-- ==== Sys2Proof/Word.lean ====
section
/-!
DEFINITION. The words of the module: a register and a core word are 32 bits (R15), memory is bytes stored
little-endian (R13).
-/

namespace Sys2Proof

/-- A register word, a core word, an address of a program core (R15, R144). -/
abbrev Word := BitVec 32

/-- A 64-bit word: an F register (R137), a counter (R686). -/
abbrev DWord := BitVec 64

/-- A byte of memory or of a message. -/
abbrev Byte := BitVec 8

end Sys2Proof
end

