-- ==== Sys2Proof/Syntax.lean ====
section
/-!
DEFINITION. The commands of the module: one constructor per row of the table of operations and events, with the
operands the row's rule gives it (spec/opcode_table.json, 95_what_each_step_holds.md).
-/

namespace Sys2Proof

/-- An island that exists, by its code (R32). -/
abbrev Island := Fin 24

/-- The width of an access (R17). -/
inductive Size where
  | byte | half | word | dword
  deriving DecidableEq, Repr

/-- The path a management command comes by (R757). -/
inductive MgmtPath where
  | port | fabric | core
  deriving DecidableEq, Repr

/-- What the pool's error code finds when a message is read or written (R52). -/
inductive Ecc where
  | good | corrected | uncorrectable
  deriving DecidableEq, Repr

/-- A program core (R137). -/
abbrev Core := Fin 8

/-- The number of a general or floating-point register. -/
abbrev RegN := Fin 32

/-- A channel of this module by its local number (R407, R449). -/
abbrev Chan512 := Fin 512

/-- A field group, FIELD-A to FIELD-H (R407). -/
abbrev Group := Fin 8

/-- What a HART transaction ends with (R403). -/
inductive HartEnd where
  | reply (rsp dev : Byte) (data : List Byte)
  | silent
  | garbled
  deriving DecidableEq, Repr

/-- A stage of the loop engine (R281). -/
abbrev Stage := Fin 2048

/-- A cyclic task (R224). -/
abbrev Task := Fin 16

/-- What has arrived complete from the active unit for a standby's boundary (R659, R660): the cycle's number, its input
items by their index in the image map, and its mirror snapshot. -/
structure PairedCycle where
  cycle  : BitVec 64
  items  : List (Nat × Word)
  mirror : List Byte
  deriving DecidableEq, Repr

/-- A matrix output (R510). -/
abbrev Pair := Fin 128

/-- What a comparator path sees: a terminal quantity in 2^-32 of mA, V, mV or Ω (R502, R503), or the raw state
of a digital input (R505). -/
inductive CmpInput where
  | quantity (q : Int)
  | level (b : Bool)
  deriving DecidableEq, Repr

/-- A packet of the fabric: its header, in whole fields, and its payload (R537). -/
structure Packet where
  kind    : Nat
  tc      : Nat
  hops    : Nat
  dst     : Nat
  src     : Nat
  dstMod  : Nat
  srcMod  : Nat
  dring   : Nat
  sring   : Nat
  seq     : Nat
  tag     : Nat
  quar    : Bool
  retry   : Bool
  op      : Nat
  len     : Nat
  epoch   : Nat
  sepoch  : Nat
  addr    : Nat
  payload : List Byte
  deriving DecidableEq, Repr

/-- A port of the switch: FP0 to FP3, PL0, PL1 (R533). -/
abbrev Port := Fin 6

/-- How a packet's tail arrives: END = GOOD with a right CRC, END = KILL, or found damaged here (R538, R541). -/
inductive TailEnd where
  | good | killed | damaged
  deriving DecidableEq, Repr

/-- A station ID (R549). -/
abbrev Station := Fin 4096

/-- An Ethernet port of NX (R602). -/
abbrev EthP := Fin 4

/-- An IEEE 1588 message as the boundary clock sees it (R602): an Announce with its data set in the order of comparison,
its grandmaster and the announce timeout in ns; a Sync whose precise origin (2^-16 ns) is known; a delay or peer-delay
request; the mean path delay (2^-16 ns) that the responses give; anything else. -/
inductive PtpMsg where
  | announce (rank : List Nat) (gm life : Nat)
  | sync (origin : Nat)
  | request (peer : Bool)
  | delay (peer : Bool) (d : Int)
  | other
  deriving DecidableEq, Repr

/-- A CAN controller. -/
abbrev CanCtl := Fin 8

/-- A frame on a CAN bus (R621, R622). -/
structure CanFrame where
  id   : BitVec 29
  xtd  : Bool
  rtr  : Bool
  fdf  : Bool
  brs  : Bool
  esi  : Bool
  dlc  : Fin 16
  data : List Byte
  deriving DecidableEq, Repr

/-- What ISO 11898-1 makes of an error: found while transmitting, one that raises no counter, found while receiving, a
dominant bit after a receiver's error flag, a protocol exception event (R610, R618). -/
inductive CanErr where
  | transmit | exempt | receive | dominant | exception
  deriving DecidableEq, Repr

/-- A file of the historian (R735). -/
structure HFile where
  fseq : Nat
  kind : Nat
  bind_ : Nat
  src  : Nat
  ft   : Nat
  tq   : Nat
  data : List Byte
  deriving DecidableEq, Repr

/-- A segment that is not free: its number, whether it is sealed, shelf, seal sequence, files, and the instant it was
opened (R734, R735). -/
structure HSeg where
  num    : Nat
  shut   : Bool
  shelf  : Nat
  order  : Nat
  files  : List HFile
  at_    : Nat
  deriving DecidableEq, Repr

/-- What the historian finds at a namespace: root port, a controller error, LBAs, whether an LBA is 4,096 bytes without metadata, and
where a valid superblock is there: the volume's segment count, identity, generation, the next file and seal sequences, the segments not free with
the files kept, and the files cut off after a failed CRC (R731 to R737). -/
structure NsInfo where
  port   : Bool
  error  : Bool
  lbas   : Nat
  lba4k  : Bool
  volume : Option (Nat × List Byte × Nat × Nat × Nat)
  segs   : List HSeg
  cut    : Nat
  deriving DecidableEq, Repr

/-- A replay window of a source pair (R569): the highest SEQ, and of the last 64 those seen with the response stored
for them (none for a READ or a POST). -/
structure Window where
  src  : Nat
  mod  : Nat
  ring : Nat
  hi   : Nat
  seen : List (Nat × Option (Nat × List Byte))
  deriving DecidableEq, Repr

/-- A heartbeat (R663, R792): mode, role, READY, PREFACT, the highest cycle number each task has completed, slice mismatches and FAILED
results recorded, CLASS major, MIRRFMT, and the hashes that R657 compares; the uncorrectable errors and POISON exceptions of row 1 of R671; over PL0 the
stages enabled with REMOTE_SP (R653). -/
structure Heartbeat where
  mode    : Fin 8
  role    : BitVec 2
  ready   : Bool
  prefact : Bool
  done    : List (Nat × Nat)
  faults  : Nat
  cls     : Byte
  mirr    : Byte
  app     : List Word
  cfg     : List Word
  errors  : Nat
  remotes : List Nat
  deriving DecidableEq, Repr

/-- What the active unit sends of a stage every 1 ms (R665): MODE, SPLOCAL, MANVAL, the remote set-point applied. -/
structure StageMirror where
  stage  : Stage
  mode   : BitVec 2
  sp     : Word
  man    : Word
  remote : Option (Int × Int)
  deriving DecidableEq, Repr

/-- A change that the active unit forwards to its standby (R658). -/
inductive Forwarded where
  | patch (task : Task) (tag : Byte) (addr : BitVec 35) (entries : List Byte)
  | single (task : Task) (tag : Byte) (chan : Chan512) (entry : List Byte)
  | commit (task : Task) (tag : Byte) (items : List (Chan512 × List Byte))
  | update (tag : Byte) (recs : List (Stage × List Word))
  deriving DecidableEq, Repr

/-- The producer of a message, and another island that asks for a buffer in the same clock (R48). -/
structure Producer where
  island : Island
  rival  : Option Island
  deriving DecidableEq, Repr

/-- The last cycle number released, by task. -/
abbrev Released := List (Task × BitVec 64)

/-- The commands, in the table's order. -/
inductive Instr where
  /-- REGISTER_WRITE (R20). -/
  | registerWrite (src : Island) (size : Size) (addr value : Word)
  /-- CROSS_ISLAND_WRITE_EFFECT (R65). -/
  | crossIslandWriteEffect (src dst : Island)
  /-- CROSS_PLANE_MESSAGE (R72). -/
  | crossPlaneMessage (src : Island) (addr value : Word)
  /-- READ_RESPONSE (R69). -/
  | readResponse (src : Island) (size : Size) (addr : Word)
  /-- FENCE_ACKNOWLEDGE (R68). -/
  | fenceAcknowledge (src dst : Island)
  /-- PUBLISH_MESSAGE (R49). -/
  | publishMessage (ring : Fin 16384) (producer : Producer) (bytes : List Byte) (ecc : Ecc)
  /-- BUFFER_RELEASE (R47). -/
  | bufferRelease (ring : Fin 16384) (ecc : Ecc)
  /-- RING_RESERVATION_WRITE (R55). -/
  | ringReservationWrite (src : Island) (value : Word)
  /-- RING_MAXIMUM_WRITE (R55). -/
  | ringMaximumWrite (src : Island) (value : Word)
  /-- RING_CONTROL_WRITE (R58). -/
  | ringControlWrite (src : Island) (value : Word)
  /-- MODE_REQUEST (R83). -/
  | modeRequest (src : Island) (value : Word)
  /-- MODE_TRANSITION (R85). -/
  | modeTransition
  /-- TRANSITION_ACKNOWLEDGE (R63). -/
  | transitionAcknowledge (island : Island)
  /-- TRANSITION_TIMEOUT (R63). -/
  | transitionTimeout
  /-- ACT_CHECK (R656). -/
  | actCheck (actiLow : Bool)
  /-- BOOT_COMPLETE (R87). -/
  | bootComplete
  /-- KEY_CONTACT_CHANGE (R89). -/
  | keyContactChange (contactA contactB : BitVec 4)
  /-- KEY_POSITION_VALID (R89). -/
  | keyPositionValid
  /-- KEY_FAULT (R91). -/
  | keyFault
  /-- KEY_CHANGE (R95). -/
  | keyChange
  /-- LOGIC_INPUTS_LOW (R847). -/
  | logicInputsLow
  /-- LOGIC_INPUT_RECOVER (R847). -/
  | logicInputRecover
  /-- POWER_FAILURE (R104). -/
  | powerFailure
  /-- POWER_RESTORED (R108). -/
  | powerRestored (ago : BitVec 64)
  /-- FLUSH_PROFILE_EXECUTE (R106). -/
  | flushProfileExecute
  /-- FLUSH_ARM (R111). -/
  | flushArm (src : Island) (value : Word)
  /-- FLUSH_DISARM (R111). -/
  | flushDisarm (src : Island) (value : Word)
  /-- POWER_STATE_REQUEST (R102). -/
  | powerStateRequest (src : Island) (value : Word)
  /-- ISLAND_RETURN_COMPLETE (R848). -/
  | islandReturnComplete (island : Island)
  /-- AUTOSTART_WRITE (R849). -/
  | autostartWrite (src : Island) (value : Word)
  /-- CONFIG_STORE (R528). -/
  | configStore
  /-- POWER_ON_RESET (R113). -/
  | powerOnReset (positions : BitVec 7)
  /-- BROWN_OUT (R113). -/
  | brownOut
  /-- RST_N_ASSERT (R114). -/
  | rstNAssert (ns : BitVec 32)
  /-- HARDWARE_WATCHDOG (R113). -/
  | hardwareWatchdog
  /-- SYSTEM_RESET (R118). -/
  | systemReset (source : Fin 7)
  /-- CORE_RESET (R115). -/
  | coreReset (source : Fin 7)
  /-- INTERNAL_RESET_RISE (R825). -/
  | internalResetRise (bootsel : BitVec 2) (clksel : Bool) (image : Option (List Byte)) (failing : List (Fin 20 × BitVec 32 × BitVec 32))
  /-- CLOCK_FALLBACK (R125). -/
  | clockFallback
  /-- PIN_RELEASE (R126). -/
  | pinRelease (src : Island) (value : Word)
  /-- BLOCK_RESET_REQUEST (R132). -/
  | blockResetRequest (src : Island) (value : Word)
  /-- BLOCK_IDLE (R132). -/
  | blockIdle
  /-- BLOCK_RESET_TIMEOUT (R133). -/
  | blockResetTimeout
  /-- CORE_RELEASE (R143). -/
  | coreRelease (core : Core)
  /-- ADD (R154). -/
  | add (core : Core) (rd ra rb : RegN) (setf : Bool) (x : BitVec 4)
  /-- SUB (R154). -/
  | sub (core : Core) (rd ra rb : RegN) (setf : Bool) (x : BitVec 4)
  /-- ADC (R154). -/
  | adc (core : Core) (rd ra rb : RegN) (setf : Bool) (x : BitVec 4)
  /-- SBC (R154). -/
  | sbc (core : Core) (rd ra rb : RegN) (setf : Bool) (x : BitVec 4)
  /-- AND (R154). -/
  | and (core : Core) (rd ra rb : RegN) (setf : Bool) (x : BitVec 4)
  /-- OR (R154). -/
  | or (core : Core) (rd ra rb : RegN) (setf : Bool) (x : BitVec 4)
  /-- XOR (R154). -/
  | xor (core : Core) (rd ra rb : RegN) (setf : Bool) (x : BitVec 4)
  /-- ANDN (R154). -/
  | andn (core : Core) (rd ra rb : RegN) (setf : Bool) (x : BitVec 4)
  /-- SHL (R154). -/
  | shl (core : Core) (rd ra rb : RegN) (setf : Bool) (x : BitVec 4)
  /-- SHR (R154). -/
  | shr (core : Core) (rd ra rb : RegN) (setf : Bool) (x : BitVec 4)
  /-- SAR (R154). -/
  | sar (core : Core) (rd ra rb : RegN) (setf : Bool) (x : BitVec 4)
  /-- ROR (R154). -/
  | ror (core : Core) (rd ra rb : RegN) (setf : Bool) (x : BitVec 4)
  /-- MUL (R154). -/
  | mul (core : Core) (rd ra rb : RegN) (setf : Bool) (x : BitVec 4)
  /-- MULHS (R154). -/
  | mulhs (core : Core) (rd ra rb : RegN) (setf : Bool) (x : BitVec 4)
  /-- MULHU (R154). -/
  | mulhu (core : Core) (rd ra rb : RegN) (setf : Bool) (x : BitVec 4)
  /-- DIV (R156). -/
  | div (core : Core) (rd ra rb : RegN) (setf : Bool) (x : BitVec 4)
  /-- DIVU (R156). -/
  | divu (core : Core) (rd ra rb : RegN) (setf : Bool) (x : BitVec 4)
  /-- REM (R156). -/
  | rem (core : Core) (rd ra rb : RegN) (setf : Bool) (x : BitVec 4)
  /-- REMU (R156). -/
  | remu (core : Core) (rd ra rb : RegN) (setf : Bool) (x : BitVec 4)
  /-- MIN (R154). -/
  | min (core : Core) (rd ra rb : RegN) (setf : Bool) (x : BitVec 4)
  /-- MAX (R154). -/
  | max (core : Core) (rd ra rb : RegN) (setf : Bool) (x : BitVec 4)
  /-- MINU (R154). -/
  | minu (core : Core) (rd ra rb : RegN) (setf : Bool) (x : BitVec 4)
  /-- MAXU (R154). -/
  | maxu (core : Core) (rd ra rb : RegN) (setf : Bool) (x : BitVec 4)
  /-- CLZ (R154). -/
  | clz (core : Core) (rd ra rb : RegN) (setf : Bool) (x : BitVec 4)
  /-- SEXTB (R154). -/
  | sextb (core : Core) (rd ra rb : RegN) (setf : Bool) (x : BitVec 4)
  /-- SEXTH (R154). -/
  | sexth (core : Core) (rd ra rb : RegN) (setf : Bool) (x : BitVec 4)
  /-- CSEL (R154). -/
  | csel (core : Core) (rd ra rb : RegN) (setf : Bool) (x : BitVec 4)
  /-- MFF (R154). -/
  | mff (core : Core) (rd ra rb : RegN) (setf : Bool) (x : BitVec 4)
  /-- MTF (R154). -/
  | mtf (core : Core) (rd ra rb : RegN) (setf : Bool) (x : BitVec 4)
  /-- ADDI (R157). -/
  | addi (core : Core) (rd ra : RegN) (imm : BitVec 16)
  /-- ADDIS (R157). -/
  | addis (core : Core) (rd ra : RegN) (imm : BitVec 16)
  /-- CMPI (R157). -/
  | cmpi (core : Core) (rd ra : RegN) (imm : BitVec 16)
  /-- ANDI (R157). -/
  | andi (core : Core) (rd ra : RegN) (imm : BitVec 16)
  /-- ORI (R157). -/
  | ori (core : Core) (rd ra : RegN) (imm : BitVec 16)
  /-- XORI (R157). -/
  | xori (core : Core) (rd ra : RegN) (imm : BitVec 16)
  /-- SHI (R157). -/
  | shi (core : Core) (rd ra : RegN) (imm : BitVec 16)
  /-- LUI (R157). -/
  | lui (core : Core) (rd ra : RegN) (imm : BitVec 16)
  /-- LB (R158). -/
  | lb (core : Core) (rd ra : RegN) (imm : BitVec 16)
  /-- LBU (R158). -/
  | lbu (core : Core) (rd ra : RegN) (imm : BitVec 16)
  /-- LH (R158). -/
  | lh (core : Core) (rd ra : RegN) (imm : BitVec 16)
  /-- LHU (R158). -/
  | lhu (core : Core) (rd ra : RegN) (imm : BitVec 16)
  /-- LW (R158). -/
  | lw (core : Core) (rd ra : RegN) (imm : BitVec 16)
  /-- SB (R158). -/
  | sb (core : Core) (rd ra : RegN) (imm : BitVec 16)
  /-- SH (R158). -/
  | sh (core : Core) (rd ra : RegN) (imm : BitVec 16)
  /-- SW (R158). -/
  | sw (core : Core) (rd ra : RegN) (imm : BitVec 16)
  /-- FLW (R158). -/
  | flw (core : Core) (rd ra : RegN) (imm : BitVec 16)
  /-- FLD (R158). -/
  | fld (core : Core) (rd ra : RegN) (imm : BitVec 16)
  /-- FSW (R158). -/
  | fsw (core : Core) (rd ra : RegN) (imm : BitVec 16)
  /-- FSD (R158). -/
  | fsd (core : Core) (rd ra : RegN) (imm : BitVec 16)
  /-- LWX (R159). -/
  | lwx (core : Core) (rd ra rb : RegN) (setf : Bool) (x : BitVec 4)
  /-- SWX (R159). -/
  | swx (core : Core) (rd ra rb : RegN) (setf : Bool) (x : BitVec 4)
  /-- CASW (R162). -/
  | casw (core : Core) (rd ra rb : RegN) (setf : Bool) (x : BitVec 4)
  /-- SWAPW (R162). -/
  | swapw (core : Core) (rd ra rb : RegN) (setf : Bool) (x : BitVec 4)
  /-- BCC (R164). -/
  | bcc (core : Core) (cond : BitVec 4) (disp : BitVec 22)
  /-- JMP (R165). -/
  | jmp (core : Core) (disp : BitVec 26)
  /-- CALL (R165). -/
  | call (core : Core) (disp : BitVec 26)
  /-- JALR (R166). -/
  | jalr (core : Core) (rd ra : RegN) (imm : BitVec 16)
  /-- CALLFB (R168). -/
  | callfb (core : Core) (ri : RegN) (disp : BitVec 21)
  /-- RETFB (R169). -/
  | retfb (core : Core) (operand : BitVec 20)
  /-- EDGE (R171). -/
  | edge (core : Core) (rd ra : RegN) (imm : BitVec 16)
  /-- TSTART (R173). -/
  | tstart (core : Core) (rd ra rb : RegN) (setf : Bool) (x : BitVec 4)
  /-- TSTOP (R173). -/
  | tstop (core : Core) (rd ra rb : RegN) (setf : Bool) (x : BitVec 4)
  /-- TREAD (R173). -/
  | tread (core : Core) (rd ra rb : RegN) (setf : Bool) (x : BitVec 4)
  /-- TDONE (R173). -/
  | tdone (core : Core) (rd ra rb : RegN) (setf : Bool) (x : BitVec 4)
  /-- PIL (R177). -/
  | pil (core : Core) (rd ra : RegN) (imm : BitVec 16)
  /-- PIS (R177). -/
  | pis (core : Core) (rd ra : RegN) (imm : BitVec 16)
  /-- CYEND (R180). -/
  | cyend (core : Core) (operand : BitVec 20)
  /-- DSYNC (R190). -/
  | dsync (core : Core) (operand : BitVec 20)
  /-- FENCE (R191). -/
  | fence (core : Core) (operand : BitVec 20)
  /-- ISYNC (R192). -/
  | isync (core : Core) (operand : BitVec 20)
  /-- SVC (R853). -/
  | svc (core : Core) (operand : BitVec 20)
  /-- BRK (R212). -/
  | brk (core : Core) (operand : BitVec 20)
  /-- ERET (R217). -/
  | eret (core : Core) (operand : BitVec 20)
  /-- FADD (R181). -/
  | fadd (core : Core) (rd ra rb : RegN) (setf : Bool) (x : BitVec 4)
  /-- FSUB (R181). -/
  | fsub (core : Core) (rd ra rb : RegN) (setf : Bool) (x : BitVec 4)
  /-- FMUL (R181). -/
  | fmul (core : Core) (rd ra rb : RegN) (setf : Bool) (x : BitVec 4)
  /-- FDIV (R181). -/
  | fdiv (core : Core) (rd ra rb : RegN) (setf : Bool) (x : BitVec 4)
  /-- FSQRT (R181). -/
  | fsqrt (core : Core) (rd ra rb : RegN) (setf : Bool) (x : BitVec 4)
  /-- FMA (R181). -/
  | fma (core : Core) (rd ra rb : RegN) (setf : Bool) (x : BitVec 4)
  /-- FMIN (R184). -/
  | fmin (core : Core) (rd ra rb : RegN) (setf : Bool) (x : BitVec 4)
  /-- FMAX (R184). -/
  | fmax (core : Core) (rd ra rb : RegN) (setf : Bool) (x : BitVec 4)
  /-- FABS (R181). -/
  | fabs (core : Core) (rd ra rb : RegN) (setf : Bool) (x : BitVec 4)
  /-- FNEG (R181). -/
  | fneg (core : Core) (rd ra rb : RegN) (setf : Bool) (x : BitVec 4)
  /-- FCMP (R186). -/
  | fcmp (core : Core) (rd ra rb : RegN) (setf : Bool) (x : BitVec 4)
  /-- FCVT_F (R181). -/
  | fcvtF (core : Core) (rd ra rb : RegN) (setf : Bool) (x : BitVec 4)
  /-- FCVT_FI (R181). -/
  | fcvtFi (core : Core) (rd ra rb : RegN) (setf : Bool) (x : BitVec 4)
  /-- FCVT_FU (R181). -/
  | fcvtFu (core : Core) (rd ra rb : RegN) (setf : Bool) (x : BitVec 4)
  /-- FCVT_IF (R185). -/
  | fcvtIf (core : Core) (rd ra rb : RegN) (setf : Bool) (x : BitVec 4)
  /-- FCVT_UF (R185). -/
  | fcvtUf (core : Core) (rd ra rb : RegN) (setf : Bool) (x : BitVec 4)
  /-- FMV_FW (R181). -/
  | fmvFw (core : Core) (rd ra rb : RegN) (setf : Bool) (x : BitVec 4)
  /-- FMV_WF (R181). -/
  | fmvWf (core : Core) (rd ra rb : RegN) (setf : Bool) (x : BitVec 4)
  /-- FMV_WFH (R181). -/
  | fmvWfh (core : Core) (rd ra rb : RegN) (setf : Bool) (x : BitVec 4)
  /-- FMV_FWH (R181). -/
  | fmvFwh (core : Core) (rd ra rb : RegN) (setf : Bool) (x : BitVec 4)
  /-- LI (R188). -/
  | li (core : Core) (rd ra : RegN) (zero : BitVec 10) (imm : Word)
  /-- ADDL (R188). -/
  | addl (core : Core) (rd ra : RegN) (zero : BitVec 10) (imm : Word)
  /-- ANDL (R188). -/
  | andl (core : Core) (rd ra : RegN) (zero : BitVec 10) (imm : Word)
  /-- ORL (R188). -/
  | orl (core : Core) (rd ra : RegN) (zero : BitVec 10) (imm : Word)
  /-- XORL (R188). -/
  | xorl (core : Core) (rd ra : RegN) (zero : BitVec 10) (imm : Word)
  /-- CMPL (R188). -/
  | cmpl (core : Core) (rd ra : RegN) (zero : BitVec 10) (imm : Word)
  /-- LWL (R188). -/
  | lwl (core : Core) (rd ra : RegN) (zero : BitVec 10) (imm : Word)
  /-- SWL (R188). -/
  | swl (core : Core) (rd ra : RegN) (zero : BitVec 10) (imm : Word)
  /-- JL (R188). -/
  | jl (core : Core) (rd ra : RegN) (zero : BitVec 10) (imm : Word)
  /-- CALLFBL (R188). -/
  | callfbl (core : Core) (rd ra : RegN) (zero : BitVec 10) (imm : Word)
  /-- FLI (R188). -/
  | fli (core : Core) (rd ra : RegN) (zero : BitVec 10) (imm : Word)
  /-- INTERRUPT_ENTRY (R215). -/
  | interruptEntry (core : Core)
  /-- STORE_RETIRE (R851). -/
  | storeRetire (core : Core)
  /-- IMPRECISE_BUSERR (R211). -/
  | impreciseBuserr (core : Core)
  /-- TIMER_TICK (R174). -/
  | timerTick
  /-- TIMER_SLOT_DONE (R174). -/
  | timerSlotDone (core : Core) (slot : Fin 2048)
  /-- TASK_ENABLE (R228). -/
  | taskEnable (src : Island) (task : Task) (value : Word)
  /-- TASK_DISABLE (R229). -/
  | taskDisable (src : Island) (task : Task) (value : Word)
  /-- TASK_BOUNDARY (R233). -/
  | taskBoundary (task : Task) (feed : Option PairedCycle)
  /-- MIRROR_STREAM (R39). -/
  | mirrorStream (task : Task)
  /-- TASK_END (R237). -/
  | taskEnd (src : Island) (value : Word)
  /-- WATCHDOG_TRIP (R264). -/
  | watchdogTrip (task : Task)
  /-- REMOTE_INPUT_FRAME (R246). -/
  | remoteInputFrame (task : Task) (station : BitVec 12) (module : BitVec 8)
  /-- PATCH_REQUEST (R270). -/
  | patchRequest (src : Island) (value : Word)
  /-- PATCH_DONE (R273). -/
  | patchDone (src : Island) (value : Word)
  /-- LE_FRAME (R304). -/
  | leFrame
  /-- STAGE_EVALUATION (R299). -/
  | stageEvaluation (stage : Stage)
  /-- STAGE_DIRECT_WRITE (R323). -/
  | stageDirectWrite (src : Island) (stage : Stage) (word : Fin 32) (value : Word)
  /-- UPDATE_SET_COMMIT (R325). -/
  | updateSetCommit (src : Island) (value : Word)
  /-- LE_DISABLE (R329). -/
  | leDisable (src : Island) (value : Word)
  /-- REMOTE_SETPOINT (R333). -/
  | remoteSetpoint
  /-- ECHO (R338). -/
  | echo
  /-- RTMO_EXPIRY (R339). -/
  | rtmoExpiry (stage : Stage)
  /-- TRACE_ARM (R345). -/
  | traceArm (src : Island) (value : Word)
  /-- SWTRIG (R346). -/
  | swtrig (src : Island) (value : Word)
  /-- TAP_ENABLE (R309). -/
  | tapEnable (src : Island) (tap : Fin 64) (value : Word)
  /-- SAMPLE_DELIVERY (R365). -/
  | sampleDelivery (chan : Chan512) (signal sensor : Int)
  /-- TRIGGER_ARRIVAL (R371). -/
  | triggerArrival (chan : Chan512)
  /-- CG_SWTRIG (R368). -/
  | cgSwtrig (src : Island) (group : Group) (high : Bool) (value : Word)
  /-- ROUND_START (R379). -/
  | roundStart (group : Group)
  /-- HANDOVER (R377). -/
  | handover (chan : Chan512) (agree : Bool)
  /-- CALIBRATE_PHASE_END (R383). -/
  | calibratePhaseEnd (chan : Chan512) (dev : BitVec 16) (gap : Int)
  /-- HAND_BACK (R377). -/
  | handBack (chan : Chan512) (agree : Bool)
  /-- SHADOW_CALIBRATION_END (R375). -/
  | shadowCalibrationEnd (chan : Chan512)
  /-- RESUME (R385). -/
  | resume (src : Island) (group : Group) (value : Word)
  /-- SERVICE_CALIBRATION (R382). -/
  | serviceCalibration (src : Island) (group : Group) (value : Word)
  /-- SERVICE_CALIBRATION_DONE (R382): the reference's deviation and the readback's gap as the group measured them. -/
  | serviceCalibrationDone (chan : Chan512) (dev : BitVec 16) (gap : Int)
  /-- RANGE_RAMP_END (R128). -/
  | rangeRampEnd (chan : Chan512)
  /-- OUTPUT_APPLY (R388). -/
  | outputApply (chan : Chan512)
  /-- RBDEV (R397). -/
  | rbdev (chan : Chan512) (present : Bool)
  /-- WIREBREAK (R360). -/
  | wirebreak (chan : Chan512) (present : Bool)
  /-- SHORT (R358). -/
  | short (chan : Chan512) (present : Bool)
  /-- LIMIT_DELAY (R424). -/
  | limitDelay (chan : Chan512) (upper : Bool)
  /-- HART_REQUEST (R402). -/
  | hartRequest (group : Group)
  /-- HART_RESPONSE (R403). -/
  | hartResponse (chan : Chan512) (result : HartEnd)
  /-- BURST_FRAME (R403). -/
  | burstFrame (chan : Chan512) (cmd : BitVec 16) (rsp dev : Byte) (data : List Byte)
  /-- CT_INVAL (R427). -/
  | ctInval (src : Island) (value : Word)
  /-- ENTRY_APPLY (R429). -/
  | entryApply (chan : Chan512)
  /-- CT_COMMIT (R435). -/
  | ctCommit (src : Island) (value : Word)
  /-- STATUS_WRITEBACK (R444). -/
  | statusWriteback (chan : Chan512)
  /-- CT_STATCLR (R447). -/
  | ctStatclr (src : Island) (value : Word)
  /-- CT_BASE_WRITE (R448). -/
  | ctBaseWrite (src : Island) (value : Word)
  /-- DI_PULSED_SAMPLE (R452). -/
  | diPulsedSample (chan : Chan512) (level : Bool)
  /-- DI_CONT_SAMPLE (R453). -/
  | diContSample (chan : Chan512)
  /-- FILTERED_CHANGE (R455). -/
  | filteredChange (chan : Chan512) (level : Bool) (edge : Nat)
  /-- SOE_DELIVERY (R461). -/
  | soeDelivery (group : Group)
  /-- OVERLOAD (R465). -/
  | overload (chan : Chan512)
  /-- OVERTEMP (R466). -/
  | overtemp (chan : Chan512)
  /-- IMBALANCE (R468). -/
  | imbalance (chan : Chan512) (present : Bool)
  /-- RBMISMATCH (R471). -/
  | rbmismatch (chan : Chan512) (present : Bool)
  /-- OPENLOAD (R473). -/
  | openload (chan : Chan512) (present : Bool)
  /-- FIELD_SUPPLY_LOW (R477). -/
  | fieldSupplyLow (group : Group) (mv : BitVec 16)
  /-- FIELD_SUPPLY_MISSING (R478). -/
  | fieldSupplyMissing (group : Group) (mv : BitVec 16)
  /-- FIELD_SUPPLY_RESTORED (R477). -/
  | fieldSupplyRestored (group : Group) (mv : BitVec 16)
  /-- FIELD_BUFFER_CHARGED (R828). -/
  | fieldBufferCharged (group : Group)
  /-- LINK_FRAME (R481). -/
  | linkFrame
  /-- LINK_FRAME_RECEIVE (R482). -/
  | linkFrameReceive (group : Group) (down good : Bool)
  /-- LINK_TIMEOUT_FIELD (R483). -/
  | linkTimeoutField (group : Group)
  /-- LINK_TIMEOUT (R484). -/
  | linkTimeout (group : Group)
  /-- LINK_RESUME (R485). -/
  | linkResume (src : Island) (group : Group) (value : Word)
  /-- TEMPERATURE_UPDATE (R491). -/
  | temperatureUpdate (a b : Option (BitVec 11))
  /-- SAFETY_LANE_FRAME (R495). -/
  | safetyLaneFrame (group : Group) (lane : Fin 2) (up good : Bool)
  /-- MATRIX_EVALUATION (R496). -/
  | matrixEvaluation
  /-- LANE_TIMEOUT_FIELD (R497). -/
  | laneTimeoutField (group : Group) (lane : Fin 2)
  /-- LANE_FAILED (R498). -/
  | laneFailed (group : Group)
  /-- LANE_RECOVER (R498). -/
  | laneRecover (group : Group)
  /-- AB_FAULT (R499). -/
  | abFault (pair : Pair)
  /-- COMPARATOR_CHANGE (R505). -/
  | comparatorChange (chan : Chan512) (input : CmpInput)
  /-- CMP_DISCREPANCY (R506). -/
  | cmpDiscrepancy (chan : Chan512) (high present : Bool) (since : Nat)
  /-- PROGTRIP_WRITE (R512). -/
  | progtripWrite (src : Island) (index : Fin 2) (value : Word)
  /-- TRIPRST (R517). -/
  | triprst (src : Island) (value : Word)
  /-- SWITCH_STUCK (R519). -/
  | switchStuck (pair : Pair) (low : Bool) (since : Nat)
  /-- SWITCH_NOT_CLOSED (R519). -/
  | switchNotClosed (pair : Pair) (low : Bool) (since : Nat)
  /-- PROOF_TEST (R520). -/
  | proofTest (pair : Pair)
  /-- PROOF_TEST_STEP (R520). -/
  | proofTestStep (pair : Pair) (opened : Bool)
  /-- SW1_CHANGE (R522). -/
  | sw1Change (a b : Bool) (positions : BitVec 7)
  /-- TP_CFGCOMMIT (R524). -/
  | tpCfgcommit (src : Island) (value : Word)
  /-- HASH_COMPLETE (R525). -/
  | hashComplete
  /-- HASHREF_WRITE (R528). -/
  | hashrefWrite (src : Island) (index : Fin 8) (value : Word)
  /-- PORT_TRAINED (R535). -/
  | portTrained (port : Port) (lanes : Fin 5)
  /-- PACKET_FORWARD (R540). -/
  | packetForward (port : Port) (pkt : Packet) (linkSeq : Nat)
  /-- PACKET_TAIL (R542). -/
  | packetTail (port : Port) (direct : Bool) (pkt : Packet) (linkSeq ack : Nat) (tail : TailEnd) (ago : BitVec 32)
  /-- NACK (R546). -/
  | nack (port : Port) (lastSeq : Nat)
  /-- LINK_FAILED (R547). -/
  | linkFailed (port : Port)
  /-- JOIN_SEND (R551). -/
  | joinSend
  /-- JOIN (R553). -/
  | join (port : Port) (direct : Bool) (pkt : Packet)
  /-- STATION_ABSENT (R553). -/
  | stationAbsent (station : Station)
  /-- QUAR_CLEAR (R552). -/
  | quarClear
  /-- WINDOW_FREE (R570). -/
  | windowFree (station : Station)
  /-- ROUTE_WRITE (R558). -/
  | routeWrite (src : Island) (dest : Station) (value : Word)
  /-- REQUEST_ISSUE (R566). -/
  | requestIssue (ring : Fin 16384)
  /-- READ (R562). -/
  | read (pkt : Packet)
  /-- WRITE (R562). -/
  | write (pkt : Packet)
  /-- FETCHADD (R562). -/
  | fetchadd (pkt : Packet)
  /-- CAS (R562). -/
  | cas (pkt : Packet)
  /-- RINGPUT (R562). -/
  | ringput (pkt : Packet)
  /-- POST (R562). -/
  | post (pkt : Packet)
  /-- RESPONSE (R575). -/
  | response (pkt : Packet)
  /-- NOTICE (R573). -/
  | notice (pkt : Packet)
  /-- TRANSACTION_DEADLINE (R574). -/
  | transactionDeadline (tag : Fin 4096)
  /-- EXPORT_LOAD (R579). -/
  | exportLoad (src : Island) (value : Word)
  /-- MAPPING_PUBLISH (R587). -/
  | mappingPublish
  /-- ANNOUNCE_SEND (R590). -/
  | announceSend
  /-- SYNC_SEND (R590). -/
  | syncSend
  /-- DREQ_SEND (R590). -/
  | dreqSend
  /-- ANNOUNCE (R591). -/
  | announce (port : Port) (pkt : Packet)
  /-- SYNC (R598). -/
  | sync (port : Port) (pkt : Packet) (ago : BitVec 32)
  /-- DREQ (R590). -/
  | dreq (port : Port) (pkt : Packet) (ago : BitVec 32)
  /-- DRSP (R590). -/
  | drsp (port : Port) (pkt : Packet) (ago : BitVec 32)
  /-- GM_TIMEOUT (R595). -/
  | gmTimeout
  /-- HOLDOVER_ENTRY (R600). -/
  | holdoverEntry
  /-- TIME_SET (R598). -/
  | timeSet (src : Island) (value : Word)
  /-- SCHEDULE_ENABLE (R606). -/
  | scheduleEnable (src : Island) (sched : Fin 256) (value : Word)
  /-- SCHEDULE_FIRING (R607). -/
  | scheduleFiring (sched : Fin 256)
  /-- PTP_MESSAGE (R602). -/
  | ptpMessage (port : EthP) (domain : BitVec 8) (udp : Bool) (msg : PtpMsg)
  /-- FRAME_LAUNCH (R604). -/
  | frameLaunch (port : EthP)
  /-- LT_FRAME_DISCARD (R605). -/
  | ltFrameDiscard (port : EthP) (queue : Fin 8)
  /-- ETHERNET_RECEIVE (R603). -/
  | ethernetReceive (port : EthP) (ring : Fin 16384) (frame : List Byte) (ago : BitVec 32)
  /-- CAN_MODE_WRITE (R613). -/
  | canModeWrite (src : Island) (ctl : CanCtl) (value : Word)
  /-- BUS_INTEGRATION (R617). -/
  | busIntegration (ctl : CanCtl)
  /-- BIT_TIMING_WRITE (R612). -/
  | bitTimingWrite (src : Island) (ctl : CanCtl) (data : Bool) (value : Word)
  /-- CAN_ARBITRATION (R624). -/
  | canArbitration (ctl : CanCtl)
  /-- CAN_FRAME_SENT (R626). -/
  | canFrameSent (ctl : CanCtl) (measured : Option (BitVec 7))
  /-- CAN_FRAME_RECEIVE (R627). -/
  | canFrameReceive (ctl : CanCtl) (frame : CanFrame) (ago : BitVec 32)
  /-- CAN_ERROR (R618). -/
  | canError (ctl : CanCtl) (err : CanErr)
  /-- RECOVER (R619). -/
  | recover (src : Island) (ctl : CanCtl) (value : Word)
  /-- RECOVERED (R619). -/
  | recovered (ctl : CanCtl)
  /-- LAUNCH_INSTANT (R625). -/
  | launchInstant (ctl : CanCtl) (queue : Fin 4)
  /-- CAN_LATE (R625). -/
  | canLate (ctl : CanCtl) (queue : Fin 4)
  /-- CAN_CANCEL (R630). -/
  | canCancel (src : Island) (ctl : CanCtl) (value : Word)
  /-- CAN_BASIC_CYCLE (R632). -/
  | canBasicCycle (ctl : CanCtl)
  /-- SLOT_DUE (R633). -/
  | slotDue (ctl : CanCtl) (slot : Fin 64)
  /-- SLOTMISS (R634). -/
  | slotmiss (ctl : CanCtl) (slot : Fin 64)
  /-- HEARTBEAT_SEND (R663). -/
  | heartbeatSend
  /-- HEARTBEAT (R663). -/
  | heartbeat (pl1 : Bool) (beat : Heartbeat) (offset : BitVec 64)
  /-- HEARTBEAT_LOSS (R668). -/
  | heartbeatLoss (actiHigh : BitVec 32) (released : Released)
  /-- PARTNER_LOST (R650). -/
  | partnerLost
  /-- PARTNER_MODE_REQUEST (R648). -/
  | partnerModeRequest (mode : Fin 8)
  /-- PARTNER_SAMPLE (R651). -/
  | partnerSample (chan : Chan512) (stamp : BitVec 64) (value : Word) (quality : BitVec 2)
  /-- PARTNER_DRAIN (R652). -/
  | partnerDrain (chan : Chan512) (value : Word)
  /-- OUTPUT_COMPARE (R664). -/
  | outputCompare (task : Task) (cycle : BitVec 64) (items : Option (List (Nat × Word)))
  /-- STAGE_MIRROR (R665). -/
  | stageMirror (stages : List StageMirror) (words : List (Chan512 × Word))
  /-- INPUT_DIVERGENCE (R666). -/
  | inputDivergence (chan : Chan512) (value : Word) (ms : BitVec 16)
  /-- FORWARDED_CHANGE (R658). -/
  | forwardedChange (change : Forwarded) (cycle : BitVec 64) (differs : Bool)
  /-- REFEREE (R671). -/
  | referee (active own : List Chan512)
  /-- HANDOVER_AGREEMENT (R673). -/
  | handoverAgreement (lead : BitVec 32) (why : BitVec 2) (released : Released)
  /-- CROSSFADE (R674). -/
  | crossfade
  /-- CROSSFADE_END (R674). -/
  | crossfadeEnd
  /-- REPLAY_WINDOW_SYNC (R678). -/
  | replayWindowSync (windows : List Window) (seqs : List (Nat × Nat))
  /-- SWAP (R680). -/
  | swap (src : Island) (value : Word)
  /-- LEAVE (R684). -/
  | leave (src : Island) (value : Word)
  /-- JOIN_SET (R683). -/
  | joinSet (src : Island) (value : Word)
  /-- PERIODIC_SWAP (R681). -/
  | periodicSwap
  /-- RESYNCHRONISATION (R682). -/
  | resynchronisation (copy : List (BitVec 35 × List Byte)) (windows : List Window) (seqs : List (Nat × Nat)) (stages : List StageMirror)
  /-- COUNTER_READ_LO (R687). -/
  | counterReadLo (src : Island) (addr : Word)
  /-- COUNTER_WRITE_HI (R689). -/
  | counterWriteHi (src : Island) (addr value : Word)
  /-- COUNTER_WRITE_LO (R689). -/
  | counterWriteLo (src : Island) (addr value : Word)
  /-- COUNTER_WRAP (R691). -/
  | counterWrap (addr : Word) (sel : Fin 16384)
  /-- FLASH_READ (R694). -/
  | flashRead (src : Island) (value : Word)
  /-- FLASH_PROGRAM (R694). -/
  | flashProgram (src : Island) (value : Word) (fetch : Option (BitVec 12))
  /-- FLASH_ERASE (R697). -/
  | flashErase (src : Island) (value : Word) (fetch : Option (BitVec 12))
  /-- FLASH_OPERATION_COMPLETE (R697). -/
  | flashOperationComplete (bank : Fin 4)
  /-- BREATH_CHECK (R707). -/
  | breathCheck (bank : Fin 4)
  /-- HOLDUP_ENERGY_UPDATE (R706). -/
  | holdupEnergyUpdate (mv : BitVec 16) (charging : Bool)
  /-- BT_RAMPGM (R705). -/
  | btRampgm (value : Word)
  /-- EVENT_RECORD (R716). -/
  | eventRecord
  /-- RECORDER_FLUSH (R722). -/
  | recorderFlush
  /-- OPMS_STORE (R713). -/
  | opmsStore
  /-- APP_EVENT (R725). -/
  | appEvent
  /-- RECORD_READ (R726). -/
  | recordRead
  /-- STREAM_CAPACITY_WRITE (R719). -/
  | streamCapacityWrite (src : Island) (value : Word)
  /-- NAMESPACE_MOUNT (R737). -/
  | namespaceMount (ns : Fin 16) (info : NsInfo)
  /-- HISTORIAN_FILE (R742). -/
  | historianFile (bind_ : Fin 32)
  /-- SEGMENT_SEAL (R736). -/
  | segmentSeal (ns : Fin 16) (seg : BitVec 32)
  /-- SHELF_LOAD (R739). -/
  | shelfLoad (src : Island) (value : Word)
  /-- IDENT (R761). -/
  | ident (path : MgmtPath)
  /-- READREG (R762). -/
  | readreg (path : MgmtPath)
  /-- WRITEREG (R762). -/
  | writereg (path : MgmtPath)
  /-- MODE (R762). -/
  | mode (path : MgmtPath)
  /-- RESET (R762). -/
  | reset (path : MgmtPath)
  /-- RECCLEAR (R728). -/
  | recclear (path : MgmtPath)
  /-- HISTFMT (R762). -/
  | histfmt (path : MgmtPath)
  /-- UPD_BEGIN (R778). -/
  | updBegin (path : MgmtPath)
  /-- UPD_DATA (R778). -/
  | updData (path : MgmtPath)
  /-- UPD_END (R778). -/
  | updEnd (path : MgmtPath)
  /-- UPD_TRIAL (R778). -/
  | updTrial (path : MgmtPath)
  /-- UPD_COMMIT (R778). -/
  | updCommit (path : MgmtPath)
  /-- UPD_ABANDON (R778). -/
  | updAbandon (path : MgmtPath)
  /-- KEY_STAGE (R753). -/
  | keyStage (path : MgmtPath)
  /-- KEY_COMMIT (R754). -/
  | keyCommit (path : MgmtPath)
  /-- ROLLBACK_ADVANCE (R780). -/
  | rollbackAdvance
  /-- SLICE (R784). -/
  | slice (test : Fin 32)
  /-- SLICE_RESULT (R788). -/
  | sliceResult (test : Fin 32) (signature : Word) (lines : List (Fin 64))
  /-- TEST_STARVED (R787). -/
  | testStarved (test : Fin 32)
  /-- SELF_TEST_RESET (R789). -/
  | selfTestReset
  /-- LOCKSTEP_MISMATCH (R783). -/
  | lockstepMismatch
  /-- HOLDUP_MEASUREMENT (R793). -/
  | holdupMeasurement (esr cap : BitVec 13)
  /-- CRACK_LOOP_CHECK (R797). -/
  | crackLoopCheck (die : Bool) (groups : BitVec 8)
  /-- IR_BLIND (R803). -/
  | irBlind
  /-- IR_REARM (R803). -/
  | irRearm
  /-- STATUS (R807). -/
  | status (frame : List Byte)
  /-- RECREAD (R807). -/
  | recread (frame : List Byte)
  /-- ALMLIST (R807). -/
  | almlist (frame : List Byte)
  /-- ALMACK (R809). -/
  | almack (frame : List Byte)
  /-- MG_ALMACK (R809). -/
  | mgAlmack (src : Island) (value : Word)
  /-- LOGIC_INPUT_LOST (R819). -/
  | logicInputLost (inputB : Bool)
  /-- LOGIC_INPUT_RESTORED (R819). -/
  | logicInputRestored (inputB : Bool)
  /-- BANK_DISCONNECT (R824). -/
  | bankDisconnect
  /-- ILLEGAL_INSTRUCTION (R152). -/
  | illegalInstruction (core : Core) (word : Word)
  /-- JUNCTION_COOLED (R466). -/
  | junctionCooled (chan : Chan512)
  /-- SEGMENT_AGE_EXPIRY (R740). -/
  | segmentAgeExpiry (ns : Fin 16) (seg : BitVec 32)
  /-- NVME_COMMAND_COMPLETE (R736). -/
  | nvmeCommandComplete (ns : Fin 16)
  /-- UNKNOWN_SERVICE (R807). -/
  | unknownService (frame : List Byte)
  /-- RESERVED_CMD (R759). -/
  | reservedCmd (path : MgmtPath)
  deriving DecidableEq, Repr

end Sys2Proof
end

