-- ==== Sys2Proof/Decode.lean ====
section
/-!
DEFINITION. The commands that spec/opcode_table.json gives as words: it gives no command any bits, so no word spells one.
-/

namespace Sys2Proof

/-- The command a word of `nbits` bits spells by the table's bits: none, since the table gives no row any bits. -/
def decodeTableWord (_nbits _w : Nat) : Option Instr := none

end Sys2Proof
end

