-- ==== Sys2Proof/Config.lean ====
section
/-!
DEFINITION. What the spec leaves open as a value: constants with no body, so that nothing can be proved about the
value. Each is named in a row of notes/assumptions.
-/

namespace Sys2Proof.Config

/-- A fresh free value: the n-th value the machine takes that no rule states (log entry 3). -/
opaque freeValue : Nat → BitVec 64

/-- Whether a result is judged tiny after rounding (true) or before it, which IEEE 754-2019 leaves to the
implementation and R181 does not settle (log entry 5). -/
opaque tinyAfterRounding : Bool

/-- Whether a fused multiply-add of zero and infinity with a quiet NaN signals invalid, which IEEE 754-2019 leaves to
the implementation (log entry 5). -/
opaque fmaInvalidWithNaN : Bool

/-- Whether a group's budget that is no whole number of mW is shown rounded up, for a budget given in 1/160 mW (log
entry 28). -/
opaque budgetRoundsUp : Nat → Bool

/-- The bytes of the internal flash of a module as delivered, by flash address: images, configuration and logs, whose
contents the spec does not give (log entry 66). -/
opaque factoryByte : Nat → BitVec 8

/-- Whether a page of the internal flash is programmed as delivered (log entry 66). -/
opaque factoryProgrammed : Nat → Bool

/-- The format version of configuration area 0 as delivered (log entry 66). -/
opaque factoryFmt : Nat

/-- The bank that holds a physical flash unit, modulo 4; the spec gives no rule (log entry 67). -/
opaque unitBank : Nat → Nat

/-- The SHA-384 of the image-signing root key, fused into the module (R743; log entry 66). -/
opaque vRootHash : List (BitVec 8)

/-- The module's identity public key, 97 bytes (R761; log entry 66). -/
opaque identityKey : List (BitVec 8)

/-- The Ethernet address of port 3, which no rule gives (log entry 75). -/
opaque ethAddress : BitVec 48

/-- The IPv4 address of the management function on port 3, which no rule gives (log entry 75). -/
opaque ipAddress : BitVec 32

/-- The ring that the executive has named for remote output messages to a station; no rule says how it names it (log entry 46). -/
opaque outRing : Nat → BitVec 14

/-- The request that carries a remote module's frame, but for its destination and length: the executive's, which no rule gives (log entry 46). -/
opaque outRequest : Nat → BitVec 256

/-- The emf of a thermocouple type (its range code) against 0 °C, in 2^-32 mV for a temperature in 2^-32 °C: the reference functions of IEC 60584-1:2013,
which R349 names and does not give (log entry 113). -/
opaque tcEmf : Nat → Int → Int

/-- The temperature at which a thermocouple type has an emf: the inverse of the same reference functions (log entry 113). -/
opaque tcCelsius : Nat → Int → Int

/-- The temperature that a resistance channel gives as a cold-junction source, by range code and 2^-32 Ω: R350 names such channels and gives no conversion
(log entry 113). -/
opaque coldOhms : Nat → Int → Int

/-- The cold-junction temperature while its source channel has no sample, by the instant (log entry 113). -/
opaque coldUnknown : Nat → Int

/-- The signature a self-test slice is compared with, by test and slice: a value held in the main image (R788; log entry
66). -/
opaque sliceSignature : Nat → Nat → BitVec 32

end Sys2Proof.Config
end

