-- ==== Sys2Proof/Machine/Regs.lean ====
section
/-!
DEFINITION. The register map (R15, R25, R145): the place of every register and field the spec's register tables
give an island, the access code of each field and its value after a system and a core reset. A register is named
by its window offset (address - 0xE000_0000, R145), a field by the spec's own name, REG_FIELD for REG.FIELD.
-/

namespace Sys2Proof.Machine

/-- A field of a register: its register's place, its highest and its lowest bit (R9, R10). -/
structure Fld where
  key : Nat
  hi  : Nat
  lo  : Nat
  deriving DecidableEq, Repr

/-- The access codes of R20. -/
inductive Acc where
  | ro | rw | rwl | w1c | rc | wo
  deriving DecidableEq, Repr

/-- One field of a register description: bits, access code, value after a system and after a core reset
(none: kept, R26, or given by a rule of its own). -/
structure FieldDesc where
  hi   : Nat
  lo   : Nat
  acc  : Acc
  atS  : Option Nat
  atC  : Option Nat
  deriving DecidableEq, Repr

/-- One row of the register map: the first register's place and how many there are, in one or two directions. -/
structure RegDesc where
  base : Nat
  n1   : Nat
  s1   : Nat
  n2   : Nat
  s2   : Nat
  fields : List FieldDesc
  deriving DecidableEq, Repr

/-- MG_CHIPID: 00_scope R2. -/
abbrev MG_CHIPID : Nat := 0x1500000
abbrev MG_CHIPID_PART : Fld := ⟨MG_CHIPID, 31, 20⟩
abbrev MG_CHIPID_REV_MAJOR : Fld := ⟨MG_CHIPID, 15, 8⟩
abbrev MG_CHIPID_REV_MINOR : Fld := ⟨MG_CHIPID, 7, 0⟩
/-- MG_MODE: 02 R80,R98. -/
abbrev MG_MODE : Nat := 0x1500100
abbrev MG_MODE_PENDING : Fld := ⟨MG_MODE, 11, 8⟩
abbrev MG_MODE_PREV : Fld := ⟨MG_MODE, 6, 4⟩
abbrev MG_MODE_CUR : Fld := ⟨MG_MODE, 2, 0⟩
/-- MG_MODEREQ: 02 R83. -/
abbrev MG_MODEREQ : Nat := 0x1500104
abbrev MG_MODEREQ_TAG : Fld := ⟨MG_MODEREQ, 15, 8⟩
abbrev MG_MODEREQ_TARGET : Fld := ⟨MG_MODEREQ, 2, 0⟩
/-- MG_MODEOUT: 02 R98. -/
abbrev MG_MODEOUT : Nat := 0x1500108
abbrev MG_MODEOUT_VALID : Fld := ⟨MG_MODEOUT, 31, 31⟩
abbrev MG_MODEOUT_TAG : Fld := ⟨MG_MODEOUT, 15, 8⟩
abbrev MG_MODEOUT_OUTCOME : Fld := ⟨MG_MODEOUT, 3, 0⟩
/-- MG_KEYSW: 02 R89. -/
abbrev MG_KEYSW : Nat := 0x1500110
abbrev MG_KEYSW_FAULT : Fld := ⟨MG_KEYSW, 18, 18⟩
abbrev MG_KEYSW_MOVING : Fld := ⟨MG_KEYSW, 17, 17⟩
abbrev MG_KEYSW_POS : Fld := ⟨MG_KEYSW, 15, 14⟩
abbrev MG_KEYSW_CONTACT_B : Fld := ⟨MG_KEYSW, 7, 4⟩
abbrev MG_KEYSW_CONTACT_A : Fld := ⟨MG_KEYSW, 3, 0⟩
/-- MG_STARTCFG: 02 R849. -/
abbrev MG_STARTCFG : Nat := 0x1500114
abbrev MG_STARTCFG_AUTOSTART : Fld := ⟨MG_STARTCFG, 0, 0⟩
/-- MG_RSTCAUSE: 02 R113. -/
abbrev MG_RSTCAUSE : Nat := 0x1500120
abbrev MG_RSTCAUSE_COUNT : Fld := ⟨MG_RSTCAUSE, 31, 16⟩
abbrev MG_RSTCAUSE_LAST_LVL : Fld := ⟨MG_RSTCAUSE, 13, 12⟩
abbrev MG_RSTCAUSE_LAST_SRC : Fld := ⟨MG_RSTCAUSE, 10, 8⟩
abbrev MG_RSTCAUSE_SRC : Fld := ⟨MG_RSTCAUSE, 6, 0⟩
/-- MG_STRAP: 02 R122. -/
abbrev MG_STRAP : Nat := 0x1500124
abbrev MG_STRAP_CLK_FALLBACK : Fld := ⟨MG_STRAP, 3, 3⟩
abbrev MG_STRAP_CLKSEL : Fld := ⟨MG_STRAP, 2, 2⟩
abbrev MG_STRAP_BOOTSEL : Fld := ⟨MG_STRAP, 1, 0⟩
/-- MG_PINREL: 02 R126. -/
abbrev MG_PINREL : Nat := 0x1500128
abbrev MG_PINREL_RELEASE : Fld := ⟨MG_PINREL, 0, 0⟩
/-- MG_BLKRST: 02 R132. -/
abbrev MG_BLKRST : Nat := 0x1500130
abbrev MG_BLKRST_TARGET : Fld := ⟨MG_BLKRST, 3, 0⟩
/-- MG_BLKCFG: 02 R132. -/
abbrev MG_BLKCFG : Nat := 0x1500134
abbrev MG_BLKCFG_TIMEOUT : Fld := ⟨MG_BLKCFG, 19, 0⟩
/-- MG_BLKSTAT: 02 R134. -/
abbrev MG_BLKSTAT : Nat := 0x1500138
abbrev MG_BLKSTAT_BUSY : Fld := ⟨MG_BLKSTAT, 31, 31⟩
abbrev MG_BLKSTAT_PHASE : Fld := ⟨MG_BLKSTAT, 25, 24⟩
abbrev MG_BLKSTAT_LAST_TARGET : Fld := ⟨MG_BLKSTAT, 11, 8⟩
abbrev MG_BLKSTAT_LAST_RESULT : Fld := ⟨MG_BLKSTAT, 2, 0⟩
/-- MG_BLKABAN_LO: 02 R133. -/
abbrev MG_BLKABAN_LO : Nat := 0x150013c
/-- MG_BLKABAN_HI: 02 R133. -/
abbrev MG_BLKABAN_HI : Nat := 0x1500140
/-- PW_ISLREQ: 02 R101. -/
abbrev PW_ISLREQ : Nat := 0x1500200
abbrev PW_ISLREQ_TAG : Fld := ⟨PW_ISLREQ, 23, 16⟩
abbrev PW_ISLREQ_STATE : Fld := ⟨PW_ISLREQ, 9, 8⟩
abbrev PW_ISLREQ_ISLAND : Fld := ⟨PW_ISLREQ, 4, 0⟩
/-- PW_ISLSTAT0: 02 R100. -/
abbrev PW_ISLSTAT0 : Nat := 0x1500204
/-- PW_ISLSTAT1: 02 R100. -/
abbrev PW_ISLSTAT1 : Nat := 0x1500208
abbrev PW_ISLSTAT1_STATE1 : Fld := ⟨PW_ISLSTAT1, 15, 0⟩
/-- PW_FLUSHCFG0: 02 R111. -/
abbrev PW_FLUSHCFG0 : Nat := 0x1500210
/-- PW_FLUSHCFG1: 02 R111. -/
abbrev PW_FLUSHCFG1 : Nat := 0x1500214
abbrev PW_FLUSHCFG1_STATE1 : Fld := ⟨PW_FLUSHCFG1, 15, 0⟩
/-- PW_FLUSHCTL: 02 R111. -/
abbrev PW_FLUSHCTL : Nat := 0x1500218
abbrev PW_FLUSHCTL_ARM : Fld := ⟨PW_FLUSHCTL, 31, 31⟩
abbrev PW_FLUSHCTL_EXECUTED : Fld := ⟨PW_FLUSHCTL, 30, 30⟩
abbrev PW_FLUSHCTL_PFAIL : Fld := ⟨PW_FLUSHCTL, 29, 29⟩
abbrev PW_FLUSHCTL_ARMREF : Fld := ⟨PW_FLUSHCTL, 28, 28⟩
abbrev PW_FLUSHCTL_RIDE_MS : Fld := ⟨PW_FLUSHCTL, 10, 0⟩
/-- PW_THERM: 08 R491,R494. -/
abbrev PW_THERM : Nat := 0x1500240
abbrev PW_THERM_LASTTHERM : Fld := ⟨PW_THERM, 31, 31⟩
abbrev PW_THERM_LASTGRP : Fld := ⟨PW_THERM, 30, 28⟩
abbrev PW_THERM_SENSFAULT : Fld := ⟨PW_THERM, 27, 27⟩
abbrev PW_THERM_HOT : Fld := ⟨PW_THERM, 26, 26⟩
abbrev PW_THERM_OVER : Fld := ⟨PW_THERM, 23, 16⟩
abbrev PW_THERM_TEMP : Fld := ⟨PW_THERM, 10, 0⟩
/-- PW_GRPCHG: 08 R490. -/
abbrev PW_GRPCHG (n : Nat) : Nat := 0x1500244 + 0x4 * n
abbrev PW_GRPCHG_BUDGET (n : Nat) : Fld := ⟨(PW_GRPCHG n), 31, 16⟩
abbrev PW_GRPCHG_CHARGE (n : Nat) : Fld := ⟨(PW_GRPCHG n), 15, 0⟩
/-- PW_HOLDUP: 14 R706. -/
abbrev PW_HOLDUP : Nat := 0x1500280
abbrev PW_HOLDUP_CHARGING : Fld := ⟨PW_HOLDUP, 31, 31⟩
abbrev PW_HOLDUP_BELOWRES : Fld := ⟨PW_HOLDUP, 30, 30⟩
abbrev PW_HOLDUP_DEFERRED : Fld := ⟨PW_HOLDUP, 23, 16⟩
abbrev PW_HOLDUP_EAVAIL : Fld := ⟨PW_HOLDUP, 11, 0⟩
/-- PW_HUHEALTH: 16 R796. -/
abbrev PW_HUHEALTH : Nat := 0x1500284
abbrev PW_HUHEALTH_WARN : Fld := ⟨PW_HUHEALTH, 31, 31⟩
abbrev PW_HUHEALTH_ALARM : Fld := ⟨PW_HUHEALTH, 30, 30⟩
abbrev PW_HUHEALTH_MEASURED : Fld := ⟨PW_HUHEALTH, 29, 29⟩
abbrev PW_HUHEALTH_ESR : Fld := ⟨PW_HUHEALTH, 25, 13⟩
abbrev PW_HUHEALTH_CAP : Fld := ⟨PW_HUHEALTH, 12, 0⟩
/-- MG_TASKDESC: 04 R226. -/
abbrev MG_TASKDESC (n : Nat) : Nat := 0x1500400 + 0x20 * n
abbrev MG_TASKDESC_ENABLE (n : Nat) : Fld := ⟨(MG_TASKDESC n), 31, 31⟩
abbrev MG_TASKDESC_ADDR (n : Nat) : Fld := ⟨(MG_TASKDESC n), 28, 0⟩
/-- MG_TASKSTAT: 04 R228. -/
abbrev MG_TASKSTAT (n : Nat) : Nat := 0x1500404 + 0x20 * n
abbrev MG_TASKSTAT_STATE (n : Nat) : Fld := ⟨(MG_TASKSTAT n), 31, 30⟩
abbrev MG_TASKSTAT_TRIPPED (n : Nat) : Fld := ⟨(MG_TASKSTAT n), 29, 29⟩
abbrev MG_TASKSTAT_REFUSE (n : Nat) : Fld := ⟨(MG_TASKSTAT n), 11, 8⟩
abbrev MG_TASKSTAT_PATCHQ (n : Nat) : Fld := ⟨(MG_TASKSTAT n), 2, 0⟩
/-- MG_TASKEXEC: 04 R239. -/
abbrev MG_TASKEXEC (n : Nat) : Nat := 0x1500408 + 0x20 * n
abbrev MG_TASKEXEC_US (n : Nat) : Fld := ⟨(MG_TASKEXEC n), 23, 0⟩
/-- MG_TASKMAX: 04 R239. -/
abbrev MG_TASKMAX (n : Nat) : Nat := 0x150040c + 0x20 * n
abbrev MG_TASKMAX_US (n : Nat) : Fld := ⟨(MG_TASKMAX n), 23, 0⟩
/-- MG_TASKCYC_LO: 04 R233. -/
abbrev MG_TASKCYC_LO (n : Nat) : Nat := 0x1500410 + 0x20 * n
/-- MG_TASKCYC_HI: 04 R233. -/
abbrev MG_TASKCYC_HI (n : Nat) : Nat := 0x1500414 + 0x20 * n
/-- MG_DISP: 04 R236. -/
abbrev MG_DISP (n : Nat) : Nat := 0x1500600 + 0x4 * n
abbrev MG_DISP_PATCH (n : Nat) : Fld := ⟨(MG_DISP n), 6, 6⟩
abbrev MG_DISP_STOP (n : Nat) : Fld := ⟨(MG_DISP n), 5, 5⟩
abbrev MG_DISP_IDLE (n : Nat) : Fld := ⟨(MG_DISP n), 4, 4⟩
abbrev MG_DISP_TASK (n : Nat) : Fld := ⟨(MG_DISP n), 3, 0⟩
/-- MG_TASKEND: 04 R237. -/
abbrev MG_TASKEND : Nat := 0x1500620
abbrev MG_TASKEND_TASK : Fld := ⟨MG_TASKEND, 3, 0⟩
/-- MG_CYCCTL: 04 R257. -/
abbrev MG_CYCCTL : Nat := 0x1500624
abbrev MG_CYCCTL_COLD : Fld := ⟨MG_CYCCTL, 0, 0⟩
/-- MG_WDCAUSE: 04 R264. -/
abbrev MG_WDCAUSE : Nat := 0x1500628
abbrev MG_WDCAUSE_VALID : Fld := ⟨MG_WDCAUSE, 31, 31⟩
abbrev MG_WDCAUSE_TASK : Fld := ⟨MG_WDCAUSE, 19, 16⟩
abbrev MG_WDCAUSE_CYCLE : Fld := ⟨MG_WDCAUSE, 15, 0⟩
/-- MG_PATCHADDR: 04 R269. -/
abbrev MG_PATCHADDR : Nat := 0x1500640
/-- MG_PATCHTGT_LO: 04 R271. -/
abbrev MG_PATCHTGT_LO : Nat := 0x1500644
/-- MG_PATCHTGT_HI: 04 R271. -/
abbrev MG_PATCHTGT_HI : Nat := 0x1500648
/-- MG_PATCHREQ: 04 R270. -/
abbrev MG_PATCHREQ : Nat := 0x150064c
abbrev MG_PATCHREQ_TASK : Fld := ⟨MG_PATCHREQ, 27, 24⟩
abbrev MG_PATCHREQ_TAG : Fld := ⟨MG_PATCHREQ, 23, 16⟩
abbrev MG_PATCHREQ_COUNT : Fld := ⟨MG_PATCHREQ, 10, 0⟩
/-- MG_PATCHSTAT: 04 R277. -/
abbrev MG_PATCHSTAT : Nat := 0x1500650
abbrev MG_PATCHSTAT_VALID : Fld := ⟨MG_PATCHSTAT, 31, 31⟩
abbrev MG_PATCHSTAT_PENDING : Fld := ⟨MG_PATCHSTAT, 26, 24⟩
abbrev MG_PATCHSTAT_TAG : Fld := ⟨MG_PATCHSTAT, 23, 16⟩
abbrev MG_PATCHSTAT_RESULT : Fld := ⟨MG_PATCHSTAT, 3, 0⟩
/-- MG_PATCHDONE: 04 R273. -/
abbrev MG_PATCHDONE : Nat := 0x1500654
abbrev MG_PATCHDONE_TASK : Fld := ⟨MG_PATCHDONE, 7, 4⟩
abbrev MG_PATCHDONE_RESULT : Fld := ⟨MG_PATCHDONE, 3, 0⟩
/-- MG_REDCFG: 13 R639. -/
abbrev MG_REDCFG : Nat := 0x1500700
abbrev MG_REDCFG_TOPO : Fld := ⟨MG_REDCFG, 31, 30⟩
abbrev MG_REDCFG_PREFACT : Fld := ⟨MG_REDCFG, 29, 29⟩
abbrev MG_REDCFG_SWAPEN : Fld := ⟨MG_REDCFG, 28, 28⟩
abbrev MG_REDCFG_SWAPH : Fld := ⟨MG_REDCFG, 27, 16⟩
abbrev MG_REDCFG_HBLOSS : Fld := ⟨MG_REDCFG, 15, 0⟩
/-- MG_REDTOL: 13 R665,R666. -/
abbrev MG_REDTOL : Nat := 0x1500704
abbrev MG_REDTOL_INTOL : Fld := ⟨MG_REDTOL, 31, 22⟩
abbrev MG_REDTOL_LETOL : Fld := ⟨MG_REDTOL, 21, 12⟩
abbrev MG_REDTOL_LETIME : Fld := ⟨MG_REDTOL, 11, 0⟩
/-- MG_REDSTAT: 13 R657,R671. -/
abbrev MG_REDSTAT : Nat := 0x1500708
abbrev MG_REDSTAT_ROLE : Fld := ⟨MG_REDSTAT, 31, 30⟩
abbrev MG_REDSTAT_READY : Fld := ⟨MG_REDSTAT, 29, 29⟩
abbrev MG_REDSTAT_PL1UP : Fld := ⟨MG_REDSTAT, 28, 28⟩
abbrev MG_REDSTAT_PL0UP : Fld := ⟨MG_REDSTAT, 27, 27⟩
abbrev MG_REDSTAT_ACTIN : Fld := ⟨MG_REDSTAT, 26, 26⟩
abbrev MG_REDSTAT_ACTOUT : Fld := ⟨MG_REDSTAT, 25, 25⟩
abbrev MG_REDSTAT_XFADE : Fld := ⟨MG_REDSTAT, 24, 24⟩
abbrev MG_REDSTAT_NRREASON : Fld := ⟨MG_REDSTAT, 23, 20⟩
abbrev MG_REDSTAT_MIRLATE : Fld := ⟨MG_REDSTAT, 19, 19⟩
abbrev MG_REDSTAT_INDIV : Fld := ⟨MG_REDSTAT, 18, 18⟩
abbrev MG_REDSTAT_REFROW : Fld := ⟨MG_REDSTAT, 14, 12⟩
abbrev MG_REDSTAT_REFOUT : Fld := ⟨MG_REDSTAT, 11, 10⟩
/-- MG_REDCMD: 13 R680,R683. -/
abbrev MG_REDCMD : Nat := 0x150070c
abbrev MG_REDCMD_SWAP : Fld := ⟨MG_REDCMD, 31, 31⟩
abbrev MG_REDCMD_LEAVE : Fld := ⟨MG_REDCMD, 30, 30⟩
abbrev MG_REDCMD_JOIN : Fld := ⟨MG_REDCMD, 29, 29⟩
abbrev MG_REDCMD_TAG : Fld := ⟨MG_REDCMD, 7, 0⟩
/-- MG_REDCMDST: 13 R680. -/
abbrev MG_REDCMDST : Nat := 0x1500710
abbrev MG_REDCMDST_VALID : Fld := ⟨MG_REDCMDST, 31, 31⟩
abbrev MG_REDCMDST_TAG : Fld := ⟨MG_REDCMDST, 15, 8⟩
abbrev MG_REDCMDST_RESULT : Fld := ⟨MG_REDCMDST, 2, 0⟩
/-- MG_APPHASH: 13 R657. -/
abbrev MG_APPHASH (n : Nat) : Nat := 0x1500720 + 0x4 * n
/-- MG_PAIROFS_LO: 13 R641. -/
abbrev MG_PAIROFS_LO : Nat := 0x1500740
/-- MG_PAIROFS_HI: 13 R641. -/
abbrev MG_PAIROFS_HI : Nat := 0x1500744
/-- MG_PARTOFS_LO: 13 R641. -/
abbrev MG_PARTOFS_LO : Nat := 0x1500748
/-- MG_PARTOFS_HI: 13 R641. -/
abbrev MG_PARTOFS_HI : Nat := 0x150074c
/-- MG_MIRLOAD: 13 R667. -/
abbrev MG_MIRLOAD : Nat := 0x1500750
abbrev MG_MIRLOAD_OVER : Fld := ⟨MG_MIRLOAD, 31, 31⟩
abbrev MG_MIRLOAD_LOAD : Fld := ⟨MG_MIRLOAD, 19, 0⟩
/-- MG_SWAPDUE: 13 R681. -/
abbrev MG_SWAPDUE : Nat := 0x1500754
abbrev MG_SWAPDUE_HOURS : Fld := ⟨MG_SWAPDUE, 11, 0⟩
/-- MG_MISMATCH_LO: 13 R664. -/
abbrev MG_MISMATCH_LO : Nat := 0x1500760
/-- MG_MISMATCH_HI: 13 R664. -/
abbrev MG_MISMATCH_HI : Nat := 0x1500764
/-- MG_TAKEOVER_LO: 13 R672. -/
abbrev MG_TAKEOVER_LO : Nat := 0x1500768
/-- MG_TAKEOVER_HI: 13 R672. -/
abbrev MG_TAKEOVER_HI : Nat := 0x150076c
/-- MG_MIRSKIP_LO: 13 R661. -/
abbrev MG_MIRSKIP_LO : Nat := 0x1500770
/-- MG_MIRSKIP_HI: 13 R661. -/
abbrev MG_MIRSKIP_HI : Nat := 0x1500774
/-- MG_SWAPS_LO: 13 R680. -/
abbrev MG_SWAPS_LO : Nat := 0x1500778
/-- MG_SWAPS_HI: 13 R680. -/
abbrev MG_SWAPS_HI : Nat := 0x150077c
/-- MG_PLLATE_LO: 13 R651. -/
abbrev MG_PLLATE_LO : Nat := 0x1500780
/-- MG_PLLATE_HI: 13 R651. -/
abbrev MG_PLLATE_HI : Nat := 0x1500784
/-- EV_RECSTAT: 14 R722. -/
abbrev EV_RECSTAT : Nat := 0x1500800
abbrev EV_RECSTAT_FLUSHING : Fld := ⟨EV_RECSTAT, 31, 31⟩
abbrev EV_RECSTAT_FLUSHDEF : Fld := ⟨EV_RECSTAT, 30, 30⟩
abbrev EV_RECSTAT_BUFOCC : Fld := ⟨EV_RECSTAT, 13, 0⟩
/-- EV_NEXTSEQ: 14 R711,R724. -/
abbrev EV_NEXTSEQ : Nat := 0x1500804
/-- EV_OPMS_LO: 14 R713. -/
abbrev EV_OPMS_LO : Nat := 0x1500808
/-- EV_OPMS_HI: 14 R713. -/
abbrev EV_OPMS_HI : Nat := 0x150080c
/-- EV_PWRCYC: 14 R713. -/
abbrev EV_PWRCYC : Nat := 0x1500810
/-- EV_STRSEL: 14 R719. -/
abbrev EV_STRSEL : Nat := 0x1500820
abbrev EV_STRSEL_STREAM : Fld := ⟨EV_STRSEL, 4, 0⟩
/-- EV_STRCFG: 14 R719. -/
abbrev EV_STRCFG : Nat := 0x1500824
abbrev EV_STRCFG_FULL : Fld := ⟨EV_STRCFG, 31, 31⟩
abbrev EV_STRCFG_CAP : Fld := ⟨EV_STRCFG, 7, 0⟩
/-- EV_STRCNT: 14 R717. -/
abbrev EV_STRCNT : Nat := 0x1500828
abbrev EV_STRCNT_CNT : Fld := ⟨EV_STRCNT, 24, 0⟩
/-- EV_STRLOST_LO: 14 R717. -/
abbrev EV_STRLOST_LO : Nat := 0x150082c
/-- EV_STRLOST_HI: 14 R717. -/
abbrev EV_STRLOST_HI : Nat := 0x1500830
/-- EV_BUFLOST_LO: 14 R723. -/
abbrev EV_BUFLOST_LO : Nat := 0x1500834
/-- EV_BUFLOST_HI: 14 R723. -/
abbrev EV_BUFLOST_HI : Nat := 0x1500838
/-- EV_RINGS: 14 R725,R726. -/
abbrev EV_RINGS : Nat := 0x1500840
abbrev EV_RINGS_RDREQ : Fld := ⟨EV_RINGS, 29, 16⟩
abbrev EV_RINGS_APP : Fld := ⟨EV_RINGS, 13, 0⟩
/-- EV_RINGS1: 14 R726. -/
abbrev EV_RINGS1 : Nat := 0x1500844
abbrev EV_RINGS1_RDRSP : Fld := ⟨EV_RINGS1, 13, 0⟩
/-- EV_CLRSTAT: 14 R727. -/
abbrev EV_CLRSTAT : Nat := 0x1500848
abbrev EV_CLRSTAT_VALID : Fld := ⟨EV_CLRSTAT, 31, 31⟩
abbrev EV_CLRSTAT_RESULT : Fld := ⟨EV_CLRSTAT, 2, 0⟩
/-- EV_CNTSEL: 14 R691. -/
abbrev EV_CNTSEL : Nat := 0x1500850
abbrev EV_CNTSEL_ISLAND : Fld := ⟨EV_CNTSEL, 20, 16⟩
abbrev EV_CNTSEL_OFFSET : Fld := ⟨EV_CNTSEL, 15, 0⟩
/-- EV_CNTOVF: 14 R691. -/
abbrev EV_CNTOVF : Nat := 0x1500854
abbrev EV_CNTOVF_ANY : Fld := ⟨EV_CNTOVF, 31, 31⟩
abbrev EV_CNTOVF_OVF : Fld := ⟨EV_CNTOVF, 0, 0⟩
/-- MG_BOOTSTAT: 15 R768,R776. -/
abbrev MG_BOOTSTAT : Nat := 0x1500900
abbrev MG_BOOTSTAT_SRC : Fld := ⟨MG_BOOTSTAT, 31, 30⟩
abbrev MG_BOOTSTAT_TRIAL : Fld := ⟨MG_BOOTSTAT, 29, 29⟩
abbrev MG_BOOTSTAT_CHFWNEW : Fld := ⟨MG_BOOTSTAT, 28, 28⟩
abbrev MG_BOOTSTAT_MIGRATED : Fld := ⟨MG_BOOTSTAT, 27, 27⟩
abbrev MG_BOOTSTAT_CFGAREA : Fld := ⟨MG_BOOTSTAT, 26, 26⟩
abbrev MG_BOOTSTAT_NOCFG : Fld := ⟨MG_BOOTSTAT, 25, 25⟩
abbrev MG_BOOTSTAT_CANDIDATE : Fld := ⟨MG_BOOTSTAT, 24, 24⟩
abbrev MG_BOOTSTAT_ATTEMPTS : Fld := ⟨MG_BOOTSTAT, 17, 16⟩
abbrev MG_BOOTSTAT_SVN : Fld := ⟨MG_BOOTSTAT, 15, 0⟩
/-- MG_ROLLBACK: 15 R779,R781. -/
abbrev MG_ROLLBACK : Nat := 0x1500904
abbrev MG_ROLLBACK_ROLLEND : Fld := ⟨MG_ROLLBACK, 31, 31⟩
abbrev MG_ROLLBACK_PENDING : Fld := ⟨MG_ROLLBACK, 30, 30⟩
abbrev MG_ROLLBACK_COUNT : Fld := ⟨MG_ROLLBACK, 8, 0⟩
/-- MG_KSSTAT: 15 R751,R752. -/
abbrev MG_KSSTAT : Nat := 0x1500908
abbrev MG_KSSTAT_EMPTY : Fld := ⟨MG_KSSTAT, 31, 31⟩
abbrev MG_KSSTAT_KSFAULT : Fld := ⟨MG_KSSTAT, 30, 30⟩
abbrev MG_KSSTAT_STAGED : Fld := ⟨MG_KSSTAT, 29, 29⟩
abbrev MG_KSSTAT_ACTSLOT : Fld := ⟨MG_KSSTAT, 28, 28⟩
abbrev MG_KSSTAT_KEYFREE : Fld := ⟨MG_KSSTAT, 12, 0⟩
/-- MG_KSGEN: 15 R751. -/
abbrev MG_KSGEN : Nat := 0x150090c
/-- MG_BOOTLOG: 15 R746. -/
abbrev MG_BOOTLOG : Nat := 0x1500910
abbrev MG_BOOTLOG_FREE : Fld := ⟨MG_BOOTLOG, 12, 0⟩
/-- MG_AUTHSTAT: 15 R763. -/
abbrev MG_AUTHSTAT : Nat := 0x1500914
abbrev MG_AUTHSTAT_VALID : Fld := ⟨MG_AUTHSTAT, 31, 31⟩
abbrev MG_AUTHSTAT_CMD : Fld := ⟨MG_AUTHSTAT, 23, 16⟩
abbrev MG_AUTHSTAT_RESULT : Fld := ⟨MG_AUTHSTAT, 15, 8⟩
abbrev MG_AUTHSTAT_PATH : Fld := ⟨MG_AUTHSTAT, 7, 0⟩
/-- MG_AUTHREF_LO: 15 R760. -/
abbrev MG_AUTHREF_LO : Nat := 0x1500918
/-- MG_AUTHREF_HI: 15 R760. -/
abbrev MG_AUTHREF_HI : Nat := 0x150091c
/-- MG_SERIAL_LO: 15 R743. -/
abbrev MG_SERIAL_LO : Nat := 0x1500920
/-- MG_SERIAL_HI: 15 R743. -/
abbrev MG_SERIAL_HI : Nat := 0x1500924
/-- MG_STCFG: 16 R784. -/
abbrev MG_STCFG : Nat := 0x1500a00
abbrev MG_STCFG_ENABLE : Fld := ⟨MG_STCFG, 31, 31⟩
abbrev MG_STCFG_BUDGET : Fld := ⟨MG_STCFG, 7, 0⟩
/-- MG_STSTAT: 16 R791. -/
abbrev MG_STSTAT : Nat := 0x1500a04
abbrev MG_STSTAT_BOOTFAIL : Fld := ⟨MG_STSTAT, 31, 31⟩
abbrev MG_STSTAT_ANYFAIL : Fld := ⟨MG_STSTAT, 30, 30⟩
abbrev MG_STSTAT_ANYSTARVE : Fld := ⟨MG_STSTAT, 29, 29⟩
/-- MG_STFAILED: 16 R788. -/
abbrev MG_STFAILED : Nat := 0x1500a08
/-- MG_STSTARVE: 16 R787. -/
abbrev MG_STSTARVE : Nat := 0x1500a0c
/-- MG_STTRANS_LO: 16 R788. -/
abbrev MG_STTRANS_LO : Nat := 0x1500a10
/-- MG_STTRANS_HI: 16 R788. -/
abbrev MG_STTRANS_HI : Nat := 0x1500a14
/-- MG_STSLICES_LO: 16 R788. -/
abbrev MG_STSLICES_LO : Nat := 0x1500a18
/-- MG_STSLICES_HI: 16 R788. -/
abbrev MG_STSLICES_HI : Nat := 0x1500a1c
/-- MG_CRACK: 16 R797. -/
abbrev MG_CRACK : Nat := 0x1500a20
abbrev MG_CRACK_DIE : Fld := ⟨MG_CRACK, 31, 31⟩
abbrev MG_CRACK_SUBSTRATE : Fld := ⟨MG_CRACK, 7, 0⟩
/-- MG_IRSTAT: 16 R803. -/
abbrev MG_IRSTAT : Nat := 0x1500a30
abbrev MG_IRSTAT_BLIND : Fld := ⟨MG_IRSTAT, 31, 31⟩
abbrev MG_IRSTAT_ACTIVE : Fld := ⟨MG_IRSTAT, 30, 30⟩
/-- MG_IRBLIND_LO: 16 R803. -/
abbrev MG_IRBLIND_LO : Nat := 0x1500a34
/-- MG_IRBLIND_HI: 16 R803. -/
abbrev MG_IRBLIND_HI : Nat := 0x1500a38
/-- MG_ALMSTAT: 16 R808. -/
abbrev MG_ALMSTAT : Nat := 0x1500a40
abbrev MG_ALMSTAT_OVF : Fld := ⟨MG_ALMSTAT, 31, 31⟩
abbrev MG_ALMSTAT_UNACK : Fld := ⟨MG_ALMSTAT, 24, 16⟩
abbrev MG_ALMSTAT_LISTED : Fld := ⟨MG_ALMSTAT, 8, 0⟩
/-- MG_ALMACK: 16 R809. -/
abbrev MG_ALMACK : Nat := 0x1500a44
/-- SG_POOLSTAT: 01 R54. -/
abbrev SG_POOLSTAT : Nat := 0x1700000
abbrev SG_POOLSTAT_FREE : Fld := ⟨SG_POOLSTAT, 17, 0⟩
/-- SG_RESVSUM: 01 R54. -/
abbrev SG_RESVSUM : Nat := 0x1700004
abbrev SG_RESVSUM_RESV : Fld := ⟨SG_RESVSUM, 17, 0⟩
/-- SG_RINGSEL: 01 R53. -/
abbrev SG_RINGSEL : Nat := 0x1700010
abbrev SG_RINGSEL_RING : Fld := ⟨SG_RINGSEL, 13, 0⟩
/-- SG_RINGCTL: 01 R58,R59. -/
abbrev SG_RINGCTL : Nat := 0x1700014
abbrev SG_RINGCTL_ENABLE : Fld := ⟨SG_RINGCTL, 31, 31⟩
abbrev SG_RINGCTL_POLICY : Fld := ⟨SG_RINGCTL, 30, 30⟩
abbrev SG_RINGCTL_CONSUMER : Fld := ⟨SG_RINGCTL, 14, 10⟩
abbrev SG_RINGCTL_PRODUCER : Fld := ⟨SG_RINGCTL, 9, 5⟩
/-- SG_RINGRES: 01 R55. -/
abbrev SG_RINGRES : Nat := 0x1700018
abbrev SG_RINGRES_COUNT : Fld := ⟨SG_RINGRES, 17, 0⟩
/-- SG_RINGMAX: 01 R55. -/
abbrev SG_RINGMAX : Nat := 0x170001c
abbrev SG_RINGMAX_COUNT : Fld := ⟨SG_RINGMAX, 17, 0⟩
/-- SG_RINGOCC: 01 R54. -/
abbrev SG_RINGOCC : Nat := 0x1700020
abbrev SG_RINGOCC_OCC : Fld := ⟨SG_RINGOCC, 17, 0⟩
/-- SG_RINGDROP_LO: 01 R50. -/
abbrev SG_RINGDROP_LO : Nat := 0x1700024
/-- SG_RINGDROP_HI: 01 R50. -/
abbrev SG_RINGDROP_HI : Nat := 0x1700028
/-- SG_ERR: 01 R52,R55. -/
abbrev SG_ERR : Nat := 0x1700030
abbrev SG_ERR_ECC_UNCORR : Fld := ⟨SG_ERR, 2, 2⟩
abbrev SG_ERR_LIMIT_REFUSED : Fld := ⟨SG_ERR, 1, 1⟩
abbrev SG_ERR_RESV_REFUSED : Fld := ⟨SG_ERR, 0, 0⟩
/-- LE_STAT: 05 R312,R323. -/
abbrev LE_STAT : Nat := 0x800000
abbrev LE_STAT_RUN : Fld := ⟨LE_STAT, 31, 31⟩
abbrev LE_STAT_UPDPEND : Fld := ⟨LE_STAT, 30, 30⟩
abbrev LE_STAT_OVR : Fld := ⟨LE_STAT, 29, 29⟩
abbrev LE_STAT_DIRREF : Fld := ⟨LE_STAT, 28, 28⟩
abbrev LE_STAT_MODELFLT : Fld := ⟨LE_STAT, 27, 27⟩
/-- LE_LOAD: 05 R309. -/
abbrev LE_LOAD : Nat := 0x800004
abbrev LE_LOAD_CHAIN : Fld := ⟨LE_LOAD, 27, 16⟩
abbrev LE_LOAD_WORST_NS : Fld := ⟨LE_LOAD, 15, 0⟩
/-- LE_FRAME_LO: 05 R304. -/
abbrev LE_FRAME_LO : Nat := 0x800008
/-- LE_FRAME_HI: 05 R304. -/
abbrev LE_FRAME_HI : Nat := 0x80000c
/-- LE_UPDCOMMIT: 05 R324. -/
abbrev LE_UPDCOMMIT : Nat := 0x800010
abbrev LE_UPDCOMMIT_TAG : Fld := ⟨LE_UPDCOMMIT, 15, 8⟩
abbrev LE_UPDCOMMIT_COUNT : Fld := ⟨LE_UPDCOMMIT, 6, 0⟩
/-- LE_UPDFRAME: 05 R328. -/
abbrev LE_UPDFRAME : Nat := 0x800014
/-- LE_UPDSTAT: 05 R348. -/
abbrev LE_UPDSTAT : Nat := 0x800018
abbrev LE_UPDSTAT_VALID : Fld := ⟨LE_UPDSTAT, 31, 31⟩
abbrev LE_UPDSTAT_BADIDX : Fld := ⟨LE_UPDSTAT, 22, 16⟩
abbrev LE_UPDSTAT_TAG : Fld := ⟨LE_UPDSTAT, 15, 8⟩
abbrev LE_UPDSTAT_RESULT : Fld := ⟨LE_UPDSTAT, 3, 0⟩
/-- LE_DISABLE: 05 R329. -/
abbrev LE_DISABLE : Nat := 0x80001c
abbrev LE_DISABLE_STAGE : Fld := ⟨LE_DISABLE, 10, 0⟩
/-- LE_OVR_LO: 05 R312. -/
abbrev LE_OVR_LO : Nat := 0x800020
/-- LE_OVR_HI: 05 R312. -/
abbrev LE_OVR_HI : Nat := 0x800024
/-- LE_COUNT: 05 R309. -/
abbrev LE_COUNT : Nat := 0x800028
abbrev LE_COUNT_TAPS : Fld := ⟨LE_COUNT, 22, 16⟩
abbrev LE_COUNT_STAGES : Fld := ⟨LE_COUNT, 11, 0⟩
/-- LE_RSPCFG: 05 R330. -/
abbrev LE_RSPCFG : Nat := 0x800030
abbrev LE_RSPCFG_ENABLE : Fld := ⟨LE_RSPCFG, 31, 31⟩
abbrev LE_RSPCFG_RXRING : Fld := ⟨LE_RSPCFG, 29, 16⟩
abbrev LE_RSPCFG_TXRING : Fld := ⟨LE_RSPCFG, 13, 0⟩
/-- LE_RSPLATE_LO: 05 R335. -/
abbrev LE_RSPLATE_LO : Nat := 0x800038
/-- LE_RSPLATE_HI: 05 R335. -/
abbrev LE_RSPLATE_HI : Nat := 0x80003c
/-- LE_RSPDISC_LO: 05 R333. -/
abbrev LE_RSPDISC_LO : Nat := 0x800040
/-- LE_RSPDISC_HI: 05 R333. -/
abbrev LE_RSPDISC_HI : Nat := 0x800044
/-- LE_RSPREPL_LO: 05 R334. -/
abbrev LE_RSPREPL_LO : Nat := 0x800048
/-- LE_RSPREPL_HI: 05 R334. -/
abbrev LE_RSPREPL_HI : Nat := 0x80004c
/-- LE_TRCCTL: 05 R345. -/
abbrev LE_TRCCTL : Nat := 0x800050
abbrev LE_TRCCTL_ARM : Fld := ⟨LE_TRCCTL, 31, 31⟩
abbrev LE_TRCCTL_SWTRIG : Fld := ⟨LE_TRCCTL, 30, 30⟩
abbrev LE_TRCCTL_TRIGSRC : Fld := ⟨LE_TRCCTL, 29, 28⟩
abbrev LE_TRCCTL_TRIGTAP : Fld := ⟨LE_TRCCTL, 27, 22⟩
abbrev LE_TRCCTL_PRE : Fld := ⟨LE_TRCCTL, 19, 10⟩
/-- LE_TRCSTAT: 05 R345. -/
abbrev LE_TRCSTAT : Nat := 0x800054
abbrev LE_TRCSTAT_TRIGGERED : Fld := ⟨LE_TRCSTAT, 31, 31⟩
abbrev LE_TRCSTAT_DONE : Fld := ⟨LE_TRCSTAT, 30, 30⟩
abbrev LE_TRCSTAT_STREAMING : Fld := ⟨LE_TRCSTAT, 29, 29⟩
/-- LE_TRCLEVEL: 05 R346. -/
abbrev LE_TRCLEVEL : Nat := 0x800058
/-- LE_TRCRING: 05 R347. -/
abbrev LE_TRCRING : Nat := 0x80005c
abbrev LE_TRCRING_RING : Fld := ⟨LE_TRCRING, 13, 0⟩
/-- LE_TRCFRAME_LO: 05 R345. -/
abbrev LE_TRCFRAME_LO : Nat := 0x800060
/-- LE_TRCFRAME_HI: 05 R345. -/
abbrev LE_TRCFRAME_HI : Nat := 0x800064
/-- LE_UPDMAP: 05 R324. -/
abbrev LE_UPDMAP (n : Nat) : Nat := 0x800100 + 0x4 * n
abbrev LE_UPDMAP_STAGE (n : Nat) : Fld := ⟨(LE_UPDMAP n), 10, 0⟩
/-- LE_MODELFLT: 05 R341. -/
abbrev LE_MODELFLT (n : Nat) : Nat := 0x800400 + 0x4 * n
/-- LE_TAPSEL: 05 R344. -/
abbrev LE_TAPSEL (n : Nat) : Nat := 0x800800 + 0x10 * n
abbrev LE_TAPSEL_ENABLE (n : Nat) : Fld := ⟨(LE_TAPSEL n), 31, 31⟩
abbrev LE_TAPSEL_NODE (n : Nat) : Fld := ⟨(LE_TAPSEL n), 30, 27⟩
abbrev LE_TAPSEL_DECIM (n : Nat) : Fld := ⟨(LE_TAPSEL n), 26, 19⟩
abbrev LE_TAPSEL_STAGE (n : Nat) : Fld := ⟨(LE_TAPSEL n), 10, 0⟩
/-- LE_TAPFRAME_LO: 05 R345. -/
abbrev LE_TAPFRAME_LO (n : Nat) : Nat := 0x800804 + 0x10 * n
/-- LE_TAPFRAME_HI: 05 R345. -/
abbrev LE_TAPFRAME_HI (n : Nat) : Nat := 0x800808 + 0x10 * n
/-- LE_TAPPOS: 05 R345. -/
abbrev LE_TAPPOS (n : Nat) : Nat := 0x80080c + 0x10 * n
abbrev LE_TAPPOS_VALID (n : Nat) : Fld := ⟨(LE_TAPPOS n), 20, 10⟩
abbrev LE_TAPPOS_OLDEST (n : Nat) : Fld := ⟨(LE_TAPPOS n), 9, 0⟩
/-- LE_STAGING: 05 R279. -/
abbrev LE_STAGING (n : Nat) : Nat := 0x810000 + 0x4 * n
/-- LE_STAGE: 05 R281,R321. -/
abbrev LE_STAGE (n : Nat) : Nat := 0x840000 + 0x4 * n
/-- LE_TRACE: 05 R279. -/
abbrev LE_TRACE (n : Nat) : Nat := 0x880000 + 0x4 * n
/-- LE_DELAY: 05 R279. -/
abbrev LE_DELAY (n : Nat) : Nat := 0x8c0000 + 0x4 * n
/-- TP_STAT: 09 R499,R527. -/
abbrev TP_STAT : Nat := 0x900000
abbrev TP_STAT_EVAL : Fld := ⟨TP_STAT, 31, 31⟩
abbrev TP_STAT_CFGVALID : Fld := ⟨TP_STAT, 30, 30⟩
abbrev TP_STAT_MATCH : Fld := ⟨TP_STAT, 29, 29⟩
abbrev TP_STAT_HASHBUSY : Fld := ⟨TP_STAT, 28, 28⟩
abbrev TP_STAT_STORED : Fld := ⟨TP_STAT, 27, 27⟩
abbrev TP_STAT_ABFAULT : Fld := ⟨TP_STAT, 26, 26⟩
abbrev TP_STAT_RSTREF : Fld := ⟨TP_STAT, 25, 25⟩
abbrev TP_STAT_LANEFLT : Fld := ⟨TP_STAT, 24, 24⟩
/-- TP_SWBANK: 09 R522. -/
abbrev TP_SWBANK : Nat := 0x900004
abbrev TP_SWBANK_SW1 : Fld := ⟨TP_SWBANK, 31, 31⟩
abbrev TP_SWBANK_SW1FAULT : Fld := ⟨TP_SWBANK, 30, 30⟩
abbrev TP_SWBANK_SW1B : Fld := ⟨TP_SWBANK, 9, 9⟩
abbrev TP_SWBANK_SW1A : Fld := ⟨TP_SWBANK, 8, 8⟩
abbrev TP_SWBANK_POS : Fld := ⟨TP_SWBANK, 7, 1⟩
/-- TP_CFGHASH: 09 R526. -/
abbrev TP_CFGHASH (n : Nat) : Nat := 0x900010 + 0x4 * n
/-- TP_HASHREF: 09 R523. -/
abbrev TP_HASHREF (n : Nat) : Nat := 0x900030 + 0x4 * n
/-- TP_CFGCOMMIT: 09 R524. -/
abbrev TP_CFGCOMMIT : Nat := 0x900050
abbrev TP_CFGCOMMIT_GO : Fld := ⟨TP_CFGCOMMIT, 31, 31⟩
abbrev TP_CFGCOMMIT_TAG : Fld := ⟨TP_CFGCOMMIT, 23, 16⟩
/-- TP_CFGSTAT: 09 R524. -/
abbrev TP_CFGSTAT : Nat := 0x900054
abbrev TP_CFGSTAT_VALID : Fld := ⟨TP_CFGSTAT, 31, 31⟩
abbrev TP_CFGSTAT_TAG : Fld := ⟨TP_CFGSTAT, 23, 16⟩
abbrev TP_CFGSTAT_BADOFF : Fld := ⟨TP_CFGSTAT, 15, 4⟩
abbrev TP_CFGSTAT_RESULT : Fld := ⟨TP_CFGSTAT, 3, 0⟩
/-- TP_TRIPRST: 09 R517. -/
abbrev TP_TRIPRST : Nat := 0x900058
abbrev TP_TRIPRST_ALL : Fld := ⟨TP_TRIPRST, 31, 31⟩
abbrev TP_TRIPRST_PAIR : Fld := ⟨TP_TRIPRST, 6, 0⟩
/-- TP_PROGTRIP: 09 R512. -/
abbrev TP_PROGTRIP (n : Nat) : Nat := 0x900060 + 0x4 * n
/-- TP_LANESTAT: 09 R498. -/
abbrev TP_LANESTAT : Nat := 0x900068
abbrev TP_LANESTAT_TMO : Fld := ⟨TP_LANESTAT, 31, 24⟩
abbrev TP_LANESTAT_UPB : Fld := ⟨TP_LANESTAT, 15, 8⟩
abbrev TP_LANESTAT_UPA : Fld := ⟨TP_LANESTAT, 7, 0⟩
/-- TP_FIRSTOUT: 09 R521. -/
abbrev TP_FIRSTOUT : Nat := 0x90006c
abbrev TP_FIRSTOUT_VALID : Fld := ⟨TP_FIRSTOUT, 31, 31⟩
abbrev TP_FIRSTOUT_PAIR : Fld := ⟨TP_FIRSTOUT, 14, 8⟩
abbrev TP_FIRSTOUT_TERM : Fld := ⟨TP_FIRSTOUT, 7, 0⟩
/-- TP_TRIPPED: 09 R513. -/
abbrev TP_TRIPPED (n : Nat) : Nat := 0x900070 + 0x4 * n
/-- TP_LATCHED: 09 R516. -/
abbrev TP_LATCHED (n : Nat) : Nat := 0x900080 + 0x4 * n
/-- TP_STUCK: 09 R519. -/
abbrev TP_STUCK (n : Nat) : Nat := 0x900090 + 0x4 * n
/-- TP_TERM: 09 R509. -/
abbrev TP_TERM (n : Nat) : Nat := 0x9000a0 + 0x4 * n
/-- TP_CMPFLT: 09 R506. -/
abbrev TP_CMPFLT (n : Nat) : Nat := 0x9000c0 + 0x4 * n
/-- TP_STAGE_TERM: 09 R509,R523. -/
abbrev TP_STAGE_TERM (n : Nat) : Nat := 0x910000 + 0x4 * n
/-- TP_STAGE_VOTER: 09 R508. -/
abbrev TP_STAGE_VOTER (n : Nat) : Nat := 0x912000 + 0x4 * n
/-- TP_STAGE_OUT: 09 R510. -/
abbrev TP_STAGE_OUT (n : Nat) : Nat := 0x913000 + 0x4 * n
/-- TP_ACT_TERM: 09 R500. -/
abbrev TP_ACT_TERM (n : Nat) : Nat := 0x920000 + 0x4 * n
/-- TP_ACT_VOTER: 09 R500. -/
abbrev TP_ACT_VOTER (n : Nat) : Nat := 0x922000 + 0x4 * n
/-- TP_ACT_OUT: 09 R500. -/
abbrev TP_ACT_OUT (n : Nat) : Nat := 0x923000 + 0x4 * n
/-- CT_BASE: 07 R448. -/
abbrev CT_BASE : Nat := 0xa00100
abbrev CT_BASE_ADDR : Fld := ⟨CT_BASE, 17, 0⟩
/-- CT_INVAL: 07 R427. -/
abbrev CT_INVAL : Nat := 0xa00104
abbrev CT_INVAL_TAG : Fld := ⟨CT_INVAL, 23, 16⟩
abbrev CT_INVAL_CHAN : Fld := ⟨CT_INVAL, 9, 0⟩
/-- CT_INVSTAT: 07 R445. -/
abbrev CT_INVSTAT : Nat := 0xa00108
abbrev CT_INVSTAT_VALID : Fld := ⟨CT_INVSTAT, 31, 31⟩
abbrev CT_INVSTAT_CHAN : Fld := ⟨CT_INVSTAT, 29, 20⟩
abbrev CT_INVSTAT_TAG : Fld := ⟨CT_INVSTAT, 15, 8⟩
abbrev CT_INVSTAT_REASON : Fld := ⟨CT_INVSTAT, 7, 4⟩
abbrev CT_INVSTAT_RESULT : Fld := ⟨CT_INVSTAT, 3, 0⟩
/-- CT_SETADDR: 07 R435. -/
abbrev CT_SETADDR : Nat := 0xa0010c
/-- CT_SETTGT_LO: 07 R437. -/
abbrev CT_SETTGT_LO : Nat := 0xa00110
/-- CT_SETTGT_HI: 07 R437. -/
abbrev CT_SETTGT_HI : Nat := 0xa00114
/-- CT_COMMIT: 07 R435. -/
abbrev CT_COMMIT : Nat := 0xa00118
abbrev CT_COMMIT_IMMED : Fld := ⟨CT_COMMIT, 31, 31⟩
abbrev CT_COMMIT_TASK : Fld := ⟨CT_COMMIT, 27, 24⟩
abbrev CT_COMMIT_TAG : Fld := ⟨CT_COMMIT, 23, 16⟩
abbrev CT_COMMIT_COUNT : Fld := ⟨CT_COMMIT, 6, 0⟩
/-- CT_SETSTAT: 07 R445. -/
abbrev CT_SETSTAT : Nat := 0xa0011c
abbrev CT_SETSTAT_VALID : Fld := ⟨CT_SETSTAT, 31, 31⟩
abbrev CT_SETSTAT_PENDING : Fld := ⟨CT_SETSTAT, 26, 24⟩
abbrev CT_SETSTAT_TAG : Fld := ⟨CT_SETSTAT, 23, 16⟩
abbrev CT_SETSTAT_BADIDX : Fld := ⟨CT_SETSTAT, 14, 8⟩
abbrev CT_SETSTAT_REASON : Fld := ⟨CT_SETSTAT, 7, 4⟩
abbrev CT_SETSTAT_RESULT : Fld := ⟨CT_SETSTAT, 3, 0⟩
/-- CT_STATCLR: 07 R447. -/
abbrev CT_STATCLR : Nat := 0xa00120
abbrev CT_STATCLR_IGNZERO : Fld := ⟨CT_STATCLR, 31, 31⟩
abbrev CT_STATCLR_OVRZERO : Fld := ⟨CT_STATCLR, 30, 30⟩
abbrev CT_STATCLR_LIMLO_S : Fld := ⟨CT_STATCLR, 29, 29⟩
abbrev CT_STATCLR_LIMHI_S : Fld := ⟨CT_STATCLR, 28, 28⟩
abbrev CT_STATCLR_MASK : Fld := ⟨CT_STATCLR, 25, 10⟩
abbrev CT_STATCLR_CHAN : Fld := ⟨CT_STATCLR, 9, 0⟩
/-- CG_CALCTL: 06 R379. -/
abbrev CG_CALCTL (n : Nat) : Nat := 0xa00200 + 0x100000 * n
abbrev CG_CALCTL_ROTEN (n : Nat) : Fld := ⟨(CG_CALCTL n), 31, 31⟩
abbrev CG_CALCTL_NOROT_RTD2 (n : Nat) : Fld := ⟨(CG_CALCTL n), 30, 30⟩
abbrev CG_CALCTL_RESUME (n : Nat) : Fld := ⟨(CG_CALCTL n), 29, 29⟩
abbrev CG_CALCTL_ROTPERIOD (n : Nat) : Fld := ⟨(CG_CALCTL n), 11, 0⟩
/-- CG_CALSTAT: 06 R384,R385. -/
abbrev CG_CALSTAT (n : Nat) : Nat := 0xa00204 + 0x100000 * n
abbrev CG_CALSTAT_REFWARN (n : Nat) : Fld := ⟨(CG_CALSTAT n), 31, 31⟩
abbrev CG_CALSTAT_REFFAULT (n : Nat) : Fld := ⟨(CG_CALSTAT n), 30, 30⟩
abbrev CG_CALSTAT_FROZEN (n : Nat) : Fld := ⟨(CG_CALSTAT n), 29, 29⟩
abbrev CG_CALSTAT_ROUND_LATE (n : Nat) : Fld := ⟨(CG_CALSTAT n), 28, 28⟩
abbrev CG_CALSTAT_LASTROUND (n : Nat) : Fld := ⟨(CG_CALSTAT n), 15, 0⟩
/-- CG_REFDEV: 06 R383. -/
abbrev CG_REFDEV (n : Nat) : Nat := 0xa00208 + 0x100000 * n
abbrev CG_REFDEV_DEV (n : Nat) : Fld := ⟨(CG_REFDEV n), 15, 0⟩
/-- CG_ROUNDS_LO: 06 R379. -/
abbrev CG_ROUNDS_LO (n : Nat) : Nat := 0xa0020c + 0x100000 * n
/-- CG_ROUNDS_HI: 06 R379. -/
abbrev CG_ROUNDS_HI (n : Nat) : Nat := 0xa00210 + 0x100000 * n
/-- CG_HOABORT_LO: 06 R377. -/
abbrev CG_HOABORT_LO (n : Nat) : Nat := 0xa00214 + 0x100000 * n
/-- CG_HOABORT_HI: 06 R377. -/
abbrev CG_HOABORT_HI (n : Nat) : Nat := 0xa00218 + 0x100000 * n
/-- CG_SWTRIG0: 06 R368. -/
abbrev CG_SWTRIG0 (n : Nat) : Nat := 0xa00220 + 0x100000 * n
/-- CG_SWTRIG1: 06 R368. -/
abbrev CG_SWTRIG1 (n : Nat) : Nat := 0xa00224 + 0x100000 * n
/-- CG_SVCCAL: 06 R382. -/
abbrev CG_SVCCAL (n : Nat) : Nat := 0xa00228 + 0x100000 * n
abbrev CG_SVCCAL_GO (n : Nat) : Fld := ⟨(CG_SVCCAL n), 31, 31⟩
abbrev CG_SVCCAL_CHAN (n : Nat) : Fld := ⟨(CG_SVCCAL n), 5, 0⟩
/-- CG_SVCSTAT: 06 R382. -/
abbrev CG_SVCSTAT (n : Nat) : Nat := 0xa0022c + 0x100000 * n
abbrev CG_SVCSTAT_BUSY (n : Nat) : Fld := ⟨(CG_SVCSTAT n), 31, 31⟩
abbrev CG_SVCSTAT_CHAN (n : Nat) : Fld := ⟨(CG_SVCSTAT n), 13, 8⟩
abbrev CG_SVCSTAT_RESULT (n : Nat) : Fld := ⟨(CG_SVCSTAT n), 2, 0⟩
/-- CG_HARTCFG: 06 R402. -/
abbrev CG_HARTCFG (n : Nat) : Nat := 0xa00230 + 0x100000 * n
abbrev CG_HARTCFG_ENABLE (n : Nat) : Fld := ⟨(CG_HARTCFG n), 31, 31⟩
abbrev CG_HARTCFG_RSPRING (n : Nat) : Fld := ⟨(CG_HARTCFG n), 29, 16⟩
abbrev CG_HARTCFG_REQRING (n : Nat) : Fld := ⟨(CG_HARTCFG n), 13, 0⟩
/-- CG_LINKCFG: 08 R483. -/
abbrev CG_LINKCFG (n : Nat) : Nat := 0xa00300 + 0x100000 * n
abbrev CG_LINKCFG_RESUME (n : Nat) : Fld := ⟨(CG_LINKCFG n), 31, 31⟩
abbrev CG_LINKCFG_TIMEOUT (n : Nat) : Fld := ⟨(CG_LINKCFG n), 19, 0⟩
/-- CG_LINKSTAT: 08 R484. -/
abbrev CG_LINKSTAT (n : Nat) : Nat := 0xa00304 + 0x100000 * n
abbrev CG_LINKSTAT_UP (n : Nat) : Fld := ⟨(CG_LINKSTAT n), 31, 31⟩
abbrev CG_LINKSTAT_SAFE (n : Nat) : Fld := ⟨(CG_LINKSTAT n), 30, 30⟩
abbrev CG_LINKSTAT_TMO (n : Nat) : Fld := ⟨(CG_LINKSTAT n), 29, 29⟩
abbrev CG_LINKSTAT_LONGGAP (n : Nat) : Fld := ⟨(CG_LINKSTAT n), 15, 0⟩
/-- CG_LINKCRC_LO: 08 R482. -/
abbrev CG_LINKCRC_LO (n : Nat) : Nat := 0xa00308 + 0x100000 * n
/-- CG_LINKCRC_HI: 08 R482. -/
abbrev CG_LINKCRC_HI (n : Nat) : Nat := 0xa0030c + 0x100000 * n
/-- CG_LINKTMO_LO: 08 R483. -/
abbrev CG_LINKTMO_LO (n : Nat) : Nat := 0xa00310 + 0x100000 * n
/-- CG_LINKTMO_HI: 08 R483. -/
abbrev CG_LINKTMO_HI (n : Nat) : Nat := 0xa00314 + 0x100000 * n
/-- CG_FPSTAT: 08 R476,R477. -/
abbrev CG_FPSTAT (n : Nat) : Nat := 0xa00320 + 0x100000 * n
abbrev CG_FPSTAT_MISSING (n : Nat) : Fld := ⟨(CG_FPSTAT n), 31, 31⟩
abbrev CG_FPSTAT_LOW (n : Nat) : Fld := ⟨(CG_FPSTAT n), 30, 30⟩
abbrev CG_FPSTAT_LOST (n : Nat) : Fld := ⟨(CG_FPSTAT n), 29, 29⟩
abbrev CG_FPSTAT_DIPPED (n : Nat) : Fld := ⟨(CG_FPSTAT n), 28, 28⟩
abbrev CG_FPSTAT_MV (n : Nat) : Fld := ⟨(CG_FPSTAT n), 15, 0⟩
/-- CG_SOECFG: 08 R458. -/
abbrev CG_SOECFG (n : Nat) : Nat := 0xa00330 + 0x100000 * n
abbrev CG_SOECFG_ENABLE (n : Nat) : Fld := ⟨(CG_SOECFG n), 31, 31⟩
abbrev CG_SOECFG_RING (n : Nat) : Fld := ⟨(CG_SOECFG n), 13, 0⟩
/-- CG_SOEDROP_LO: 08 R461. -/
abbrev CG_SOEDROP_LO (n : Nat) : Nat := 0xa00334 + 0x100000 * n
/-- CG_SOEDROP_HI: 08 R461. -/
abbrev CG_SOEDROP_HI (n : Nat) : Nat := 0xa00338 + 0x100000 * n
/-- FX_STATION: 10 R549,R550. -/
abbrev FX_STATION : Nat := 0x1200000
abbrev FX_STATION_EPOCH : Fld := ⟨FX_STATION, 31, 16⟩
abbrev FX_STATION_POS : Fld := ⟨FX_STATION, 13, 12⟩
abbrev FX_STATION_ID : Fld := ⟨FX_STATION, 11, 0⟩
/-- FX_PLANHASH_LO: 10 R551. -/
abbrev FX_PLANHASH_LO : Nat := 0x1200008
/-- FX_PLANHASH_HI: 10 R551. -/
abbrev FX_PLANHASH_HI : Nat := 0x120000c
/-- FX_CLASS: 10 R551. -/
abbrev FX_CLASS : Nat := 0x1200010
abbrev FX_CLASS_MIRRFMT : Fld := ⟨FX_CLASS, 23, 16⟩
abbrev FX_CLASS_MAJOR : Fld := ⟨FX_CLASS, 15, 8⟩
abbrev FX_CLASS_MINOR : Fld := ⟨FX_CLASS, 7, 0⟩
/-- FX_STAT: 10 R552,R567. -/
abbrev FX_STAT : Nat := 0x1200014
abbrev FX_STAT_IDCONFLICT : Fld := ⟨FX_STAT, 31, 31⟩
abbrev FX_STAT_QUAR : Fld := ⟨FX_STAT, 30, 30⟩
abbrev FX_STAT_INFLIGHT : Fld := ⟨FX_STAT, 12, 0⟩
/-- FX_TMOCFG: 10 R572. -/
abbrev FX_TMOCFG : Nat := 0x1200020
abbrev FX_TMOCFG_RETRIES : Fld := ⟨FX_TMOCFG, 31, 29⟩
abbrev FX_TMOCFG_HOPLIMIT : Fld := ⟨FX_TMOCFG, 27, 20⟩
abbrev FX_TMOCFG_TMO_US : Fld := ⟨FX_TMOCFG, 19, 0⟩
/-- FX_SEQBASE: 10 R570. -/
abbrev FX_SEQBASE : Nat := 0x1200024
/-- FX_SEQSLOTS: 10 R570. -/
abbrev FX_SEQSLOTS : Nat := 0x1200028
abbrev FX_SEQSLOTS_SLOTS : Fld := ⟨FX_SEQSLOTS, 15, 0⟩
/-- FX_EXPADDR: 10 R579. -/
abbrev FX_EXPADDR : Nat := 0x1200030
/-- FX_EXPCTL: 10 R580. -/
abbrev FX_EXPCTL : Nat := 0x1200034
abbrev FX_EXPCTL_LOAD : Fld := ⟨FX_EXPCTL, 31, 31⟩
abbrev FX_EXPCTL_BAD : Fld := ⟨FX_EXPCTL, 30, 30⟩
abbrev FX_EXPCTL_COUNT : Fld := ⟨FX_EXPCTL, 4, 0⟩
/-- FX_PORTSTAT: 10 R535. -/
abbrev FX_PORTSTAT (n : Nat) : Nat := 0x1200040 + 0x4 * n
abbrev FX_PORTSTAT_UP (n : Nat) : Fld := ⟨(FX_PORTSTAT n), 31, 31⟩
abbrev FX_PORTSTAT_RFAIL (n : Nat) : Fld := ⟨(FX_PORTSTAT n), 30, 30⟩
abbrev FX_PORTSTAT_WIDTH (n : Nat) : Fld := ⟨(FX_PORTSTAT n), 29, 28⟩
abbrev FX_PORTSTAT_NBR (n : Nat) : Fld := ⟨(FX_PORTSTAT n), 27, 16⟩
abbrev FX_PORTSTAT_NBRPOS (n : Nat) : Fld := ⟨(FX_PORTSTAT n), 15, 14⟩
abbrev FX_PORTSTAT_JOINONLY (n : Nat) : Fld := ⟨(FX_PORTSTAT n), 13, 13⟩
/-- FX_KILLED_LO: 10 Registers. -/
abbrev FX_KILLED_LO : Nat := 0x1200100
/-- FX_KILLED_HI: 10 Registers. -/
abbrev FX_KILLED_HI : Nat := 0x1200104
/-- FX_LINKDISC_LO: 10 Registers. -/
abbrev FX_LINKDISC_LO : Nat := 0x1200108
/-- FX_LINKDISC_HI: 10 Registers. -/
abbrev FX_LINKDISC_HI : Nat := 0x120010c
/-- FX_NOROUTE_LO: 10 Registers. -/
abbrev FX_NOROUTE_LO : Nat := 0x1200110
/-- FX_NOROUTE_HI: 10 Registers. -/
abbrev FX_NOROUTE_HI : Nat := 0x1200114
/-- FX_DUPREQ_LO: 10 Registers. -/
abbrev FX_DUPREQ_LO : Nat := 0x1200118
/-- FX_DUPREQ_HI: 10 Registers. -/
abbrev FX_DUPREQ_HI : Nat := 0x120011c
/-- FX_DUPRSP_LO: 10 Registers. -/
abbrev FX_DUPRSP_LO : Nat := 0x1200120
/-- FX_DUPRSP_HI: 10 Registers. -/
abbrev FX_DUPRSP_HI : Nat := 0x1200124
/-- FX_LATE_LO: 10 Registers. -/
abbrev FX_LATE_LO : Nat := 0x1200128
/-- FX_LATE_HI: 10 Registers. -/
abbrev FX_LATE_HI : Nat := 0x120012c
/-- FX_TIMEOUT_LO: 10 Registers. -/
abbrev FX_TIMEOUT_LO : Nat := 0x1200130
/-- FX_TIMEOUT_HI: 10 Registers. -/
abbrev FX_TIMEOUT_HI : Nat := 0x1200134
/-- FX_OBSDISC_LO: 10 Registers. -/
abbrev FX_OBSDISC_LO : Nat := 0x1200138
/-- FX_OBSDISC_HI: 10 Registers. -/
abbrev FX_OBSDISC_HI : Nat := 0x120013c
/-- FX_POSTDISC_LO: 10 Registers. -/
abbrev FX_POSTDISC_LO : Nat := 0x1200140
/-- FX_POSTDISC_HI: 10 Registers. -/
abbrev FX_POSTDISC_HI : Nat := 0x1200144
/-- FX_CWIN_A: 10 R577. -/
abbrev FX_CWIN_A (n : Nat) : Nat := 0x1200800 + 0x8 * n
abbrev FX_CWIN_A_EN (n : Nat) : Fld := ⟨(FX_CWIN_A n), 31, 31⟩
abbrev FX_CWIN_A_TASK (n : Nat) : Fld := ⟨(FX_CWIN_A n), 30, 30⟩
abbrev FX_CWIN_A_STATION (n : Nat) : Fld := ⟨(FX_CWIN_A n), 19, 8⟩
abbrev FX_CWIN_A_MOD (n : Nat) : Fld := ⟨(FX_CWIN_A n), 7, 0⟩
/-- FX_CWIN_B: 10 R577. -/
abbrev FX_CWIN_B (n : Nat) : Nat := 0x1200804 + 0x8 * n
/-- FX_RTE: 10 R558. -/
abbrev FX_RTE (n : Nat) : Nat := 0x1210004 + 0x4 * n
abbrev FX_RTE_V0 (n : Nat) : Fld := ⟨(FX_RTE n), 31, 31⟩
abbrev FX_RTE_V1 (n : Nat) : Fld := ⟨(FX_RTE n), 30, 30⟩
abbrev FX_RTE_NH1 (n : Nat) : Fld := ⟨(FX_RTE n), 6, 4⟩
abbrev FX_RTE_NH0 (n : Nat) : Fld := ⟨(FX_RTE n), 2, 0⟩
/-- FX_MEMBER: 10 R553. -/
abbrev FX_MEMBER (n : Nat) : Nat := 0x1220004 + 0x4 * n
abbrev FX_MEMBER_STATE (n : Nat) : Fld := ⟨(FX_MEMBER n), 31, 30⟩
abbrev FX_MEMBER_QUAR (n : Nat) : Fld := ⟨(FX_MEMBER n), 29, 29⟩
abbrev FX_MEMBER_MINORDIFF (n : Nat) : Fld := ⟨(FX_MEMBER n), 28, 28⟩
abbrev FX_MEMBER_HASHDIFF (n : Nat) : Fld := ⟨(FX_MEMBER n), 27, 27⟩
abbrev FX_MEMBER_MAJORDIFF (n : Nat) : Fld := ⟨(FX_MEMBER n), 26, 26⟩
abbrev FX_MEMBER_MODE (n : Nat) : Fld := ⟨(FX_MEMBER n), 24, 22⟩
abbrev FX_MEMBER_ROLE (n : Nat) : Fld := ⟨(FX_MEMBER n), 21, 18⟩
abbrev FX_MEMBER_EPOCH (n : Nat) : Fld := ⟨(FX_MEMBER n), 15, 0⟩
/-- TS_NOW_LO: 11 R584. -/
abbrev TS_NOW_LO : Nat := 0x1230000
/-- TS_NOW_HI: 11 R584. -/
abbrev TS_NOW_HI : Nat := 0x1230004
/-- TS_NOW_FRAC: 11 R584. -/
abbrev TS_NOW_FRAC : Nat := 0x1230008
abbrev TS_NOW_FRAC_V : Fld := ⟨TS_NOW_FRAC, 15, 0⟩
/-- TS_MONO_LO: 11 R581. -/
abbrev TS_MONO_LO : Nat := 0x123000c
/-- TS_MONO_HI: 11 R581. -/
abbrev TS_MONO_HI : Nat := 0x1230010
/-- TS_STAT: 11 R585. -/
abbrev TS_STAT : Nat := 0x1230020
abbrev TS_STAT_ISGM : Fld := ⟨TS_STAT, 31, 31⟩
abbrev TS_STAT_GMCLASS : Fld := ⟨TS_STAT, 29, 28⟩
abbrev TS_STAT_GMID : Fld := ⟨TS_STAT, 27, 16⟩
abbrev TS_STAT_GMHOPS : Fld := ⟨TS_STAT, 11, 8⟩
abbrev TS_STAT_TQ : Fld := ⟨TS_STAT, 7, 0⟩
/-- TS_DEV: 11 R592. -/
abbrev TS_DEV : Nat := 0x1230024
/-- TS_RATE: 11 R586. -/
abbrev TS_RATE : Nat := 0x1230028
/-- TS_GMCFG: 11 R594. -/
abbrev TS_GMCFG : Nat := 0x123002c
abbrev TS_GMCFG_CAND : Fld := ⟨TS_GMCFG, 31, 31⟩
abbrev TS_GMCFG_PRIO : Fld := ⟨TS_GMCFG, 23, 16⟩
abbrev TS_GMCFG_STEPLIM : Fld := ⟨TS_GMCFG, 15, 0⟩
/-- TS_CTL: 11 R598. -/
abbrev TS_CTL : Nat := 0x1230034
abbrev TS_CTL_SET : Fld := ⟨TS_CTL, 31, 31⟩
abbrev TS_CTL_STEPPED : Fld := ⟨TS_CTL, 30, 30⟩
abbrev TS_CTL_STEPS : Fld := ⟨TS_CTL, 15, 0⟩
/-- TS_SET_LO: 11 R598. -/
abbrev TS_SET_LO : Nat := 0x1230038
/-- TS_SET_HI: 11 R598. -/
abbrev TS_SET_HI : Nat := 0x123003c
/-- TS_START_LO: 11 R606. -/
abbrev TS_START_LO (n : Nat) : Nat := 0x1231000 + 0x10 * n
/-- TS_START_HI: 11 R606. -/
abbrev TS_START_HI (n : Nat) : Nat := 0x1231004 + 0x10 * n
/-- TS_PERIOD: 11 R606. -/
abbrev TS_PERIOD (n : Nat) : Nat := 0x1231008 + 0x10 * n
/-- TS_SCHEDCTL: 11 R606. -/
abbrev TS_SCHEDCTL (n : Nat) : Nat := 0x123100c + 0x10 * n
abbrev TS_SCHEDCTL_ENABLE (n : Nat) : Fld := ⟨(TS_SCHEDCTL n), 31, 31⟩
abbrev TS_SCHEDCTL_CANEN (n : Nat) : Fld := ⟨(TS_SCHEDCTL n), 8, 8⟩
abbrev TS_SCHEDCTL_CGMASK (n : Nat) : Fld := ⟨(TS_SCHEDCTL n), 7, 0⟩
/-- TS_CAPCFG: 11 R609. -/
abbrev TS_CAPCFG (n : Nat) : Nat := 0x1232000 + 0x10 * n
abbrev TS_CAPCFG_ARM (n : Nat) : Fld := ⟨(TS_CAPCFG n), 31, 31⟩
abbrev TS_CAPCFG_VALID (n : Nat) : Fld := ⟨(TS_CAPCFG n), 30, 30⟩
abbrev TS_CAPCFG_PORT (n : Nat) : Fld := ⟨(TS_CAPCFG n), 14, 12⟩
abbrev TS_CAPCFG_SRC (n : Nat) : Fld := ⟨(TS_CAPCFG n), 11, 0⟩
/-- TS_CAP_LO: 11 R609. -/
abbrev TS_CAP_LO (n : Nat) : Nat := 0x1232004 + 0x10 * n
/-- TS_CAP_HI: 11 R609. -/
abbrev TS_CAP_HI (n : Nat) : Nat := 0x1232008 + 0x10 * n
/-- TS_CAP_TQ: 11 R609. -/
abbrev TS_CAP_TQ (n : Nat) : Nat := 0x123200c + 0x10 * n
abbrev TS_CAP_TQ_FRAC (n : Nat) : Fld := ⟨(TS_CAP_TQ n), 31, 16⟩
abbrev TS_CAP_TQ_TQ (n : Nat) : Fld := ⟨(TS_CAP_TQ n), 7, 0⟩
/-- EN_PTPCFG: 11 R602. -/
abbrev EN_PTPCFG (n : Nat) : Nat := 0x1300000 + 0x100 * n
abbrev EN_PTPCFG_EN (n : Nat) : Fld := ⟨(EN_PTPCFG n), 31, 31⟩
abbrev EN_PTPCFG_P2P (n : Nat) : Fld := ⟨(EN_PTPCFG n), 30, 30⟩
abbrev EN_PTPCFG_UDP (n : Nat) : Fld := ⟨(EN_PTPCFG n), 29, 29⟩
abbrev EN_PTPCFG_MASTERONLY (n : Nat) : Fld := ⟨(EN_PTPCFG n), 28, 28⟩
abbrev EN_PTPCFG_DOMAIN (n : Nat) : Fld := ⟨(EN_PTPCFG n), 23, 16⟩
abbrev EN_PTPCFG_PRIO1 (n : Nat) : Fld := ⟨(EN_PTPCFG n), 15, 8⟩
abbrev EN_PTPCFG_PRIO2 (n : Nat) : Fld := ⟨(EN_PTPCFG n), 7, 0⟩
/-- EN_PTPSTAT: 11 R602. -/
abbrev EN_PTPSTAT (n : Nat) : Nat := 0x1300004 + 0x100 * n
abbrev EN_PTPSTAT_STATE (n : Nat) : Fld := ⟨(EN_PTPSTAT n), 31, 30⟩
abbrev EN_PTPSTAT_USABLE (n : Nat) : Fld := ⟨(EN_PTPSTAT n), 29, 29⟩
/-- EN_LTCFG: 11 R604. -/
abbrev EN_LTCFG (n : Nat) : Nat := 0x1300008 + 0x100 * n
abbrev EN_LTCFG_LTEN (n : Nat) : Fld := ⟨(EN_LTCFG n), 31, 24⟩
abbrev EN_LTCFG_LATE_NS (n : Nat) : Fld := ⟨(EN_LTCFG n), 15, 0⟩
/-- EN_TXQ: 11 R603. -/
abbrev EN_TXQ (n j : Nat) : Nat := 0x1300020 + 0x100 * n + 0x4 * j
abbrev EN_TXQ_EN (n j : Nat) : Fld := ⟨(EN_TXQ n j), 31, 31⟩
abbrev EN_TXQ_RING (n j : Nat) : Fld := ⟨(EN_TXQ n j), 13, 0⟩
/-- EN_LTLATE_LO: 11 R605. -/
abbrev EN_LTLATE_LO (n : Nat) : Nat := 0x1300040 + 0x100 * n
/-- EN_LTLATE_HI: 11 R605. -/
abbrev EN_LTLATE_HI (n : Nat) : Nat := 0x1300044 + 0x100 * n
/-- EN_LTFAR_LO: 11 R605. -/
abbrev EN_LTFAR_LO (n : Nat) : Nat := 0x1300048 + 0x100 * n
/-- EN_LTFAR_HI: 11 R605. -/
abbrev EN_LTFAR_HI (n : Nat) : Nat := 0x130004c + 0x100 * n
/-- CN_CFG: 12 R613. -/
abbrev CN_CFG (n : Nat) : Nat := 0x1301000 + 0x800 * n
abbrev CN_CFG_FDEN (n : Nat) : Fld := ⟨(CN_CFG n), 8, 8⟩
abbrev CN_CFG_TDCEN (n : Nat) : Fld := ⟨(CN_CFG n), 7, 7⟩
abbrev CN_CFG_PXHD (n : Nat) : Fld := ⟨(CN_CFG n), 6, 6⟩
abbrev CN_CFG_AUTOREC (n : Nat) : Fld := ⟨(CN_CFG n), 5, 5⟩
abbrev CN_CFG_TERM (n : Nat) : Fld := ⟨(CN_CFG n), 4, 4⟩
abbrev CN_CFG_MODE (n : Nat) : Fld := ⟨(CN_CFG n), 1, 0⟩
/-- CN_NBT: 12 R612. -/
abbrev CN_NBT (n : Nat) : Nat := 0x1301004 + 0x800 * n
abbrev CN_NBT_BRP (n : Nat) : Fld := ⟨(CN_NBT n), 31, 24⟩
abbrev CN_NBT_TSEG1 (n : Nat) : Fld := ⟨(CN_NBT n), 23, 16⟩
abbrev CN_NBT_TSEG2 (n : Nat) : Fld := ⟨(CN_NBT n), 14, 8⟩
abbrev CN_NBT_SJW (n : Nat) : Fld := ⟨(CN_NBT n), 6, 0⟩
/-- CN_DBT: 12 R612. -/
abbrev CN_DBT (n : Nat) : Nat := 0x1301008 + 0x800 * n
abbrev CN_DBT_BRP (n : Nat) : Fld := ⟨(CN_DBT n), 28, 24⟩
abbrev CN_DBT_TSEG1 (n : Nat) : Fld := ⟨(CN_DBT n), 20, 16⟩
abbrev CN_DBT_TSEG2 (n : Nat) : Fld := ⟨(CN_DBT n), 11, 8⟩
abbrev CN_DBT_SJW (n : Nat) : Fld := ⟨(CN_DBT n), 3, 0⟩
/-- CN_TDC: 12 R614. -/
abbrev CN_TDC (n : Nat) : Nat := 0x130100c + 0x800 * n
abbrev CN_TDC_TDCV (n : Nat) : Fld := ⟨(CN_TDC n), 30, 24⟩
abbrev CN_TDC_TDCO (n : Nat) : Fld := ⟨(CN_TDC n), 22, 16⟩
abbrev CN_TDC_TDCF (n : Nat) : Fld := ⟨(CN_TDC n), 6, 0⟩
/-- CN_STAT: 12 R612,R617. -/
abbrev CN_STAT (n : Nat) : Nat := 0x1301010 + 0x800 * n
abbrev CN_STAT_TIMREF (n : Nat) : Fld := ⟨(CN_STAT n), 31, 31⟩
abbrev CN_STAT_EWRXL (n : Nat) : Fld := ⟨(CN_STAT n), 5, 5⟩
abbrev CN_STAT_EWTXL (n : Nat) : Fld := ⟨(CN_STAT n), 4, 4⟩
abbrev CN_STAT_MODE (n : Nat) : Fld := ⟨(CN_STAT n), 3, 2⟩
abbrev CN_STAT_STATE (n : Nat) : Fld := ⟨(CN_STAT n), 1, 0⟩
/-- CN_ERRCNT: 12 R618. -/
abbrev CN_ERRCNT (n : Nat) : Nat := 0x1301014 + 0x800 * n
abbrev CN_ERRCNT_REC (n : Nat) : Fld := ⟨(CN_ERRCNT n), 23, 16⟩
abbrev CN_ERRCNT_TEC (n : Nat) : Fld := ⟨(CN_ERRCNT n), 8, 0⟩
/-- CN_EWL: 12 R620. -/
abbrev CN_EWL (n : Nat) : Nat := 0x1301018 + 0x800 * n
abbrev CN_EWL_RX (n : Nat) : Fld := ⟨(CN_EWL n), 23, 16⟩
abbrev CN_EWL_TX (n : Nat) : Fld := ⟨(CN_EWL n), 7, 0⟩
/-- CN_IRQSTAT: 12 R636. -/
abbrev CN_IRQSTAT (n : Nat) : Nat := 0x130101c + 0x800 * n
abbrev CN_IRQSTAT_SLOTMISS (n : Nat) : Fld := ⟨(CN_IRQSTAT n), 9, 9⟩
abbrev CN_IRQSTAT_LATE (n : Nat) : Fld := ⟨(CN_IRQSTAT n), 8, 8⟩
abbrev CN_IRQSTAT_RXDROP (n : Nat) : Fld := ⟨(CN_IRQSTAT n), 7, 7⟩
abbrev CN_IRQSTAT_PXE (n : Nat) : Fld := ⟨(CN_IRQSTAT n), 6, 6⟩
abbrev CN_IRQSTAT_RECOVERED (n : Nat) : Fld := ⟨(CN_IRQSTAT n), 5, 5⟩
abbrev CN_IRQSTAT_BUSOFF (n : Nat) : Fld := ⟨(CN_IRQSTAT n), 4, 4⟩
abbrev CN_IRQSTAT_PASSIVE (n : Nat) : Fld := ⟨(CN_IRQSTAT n), 3, 3⟩
abbrev CN_IRQSTAT_EWRX (n : Nat) : Fld := ⟨(CN_IRQSTAT n), 1, 1⟩
abbrev CN_IRQSTAT_EWTX (n : Nat) : Fld := ⟨(CN_IRQSTAT n), 0, 0⟩
/-- CN_IRQEN: 12 R636. -/
abbrev CN_IRQEN (n : Nat) : Nat := 0x1301020 + 0x800 * n
abbrev CN_IRQEN_SLOTMISS (n : Nat) : Fld := ⟨(CN_IRQEN n), 9, 9⟩
abbrev CN_IRQEN_LATE (n : Nat) : Fld := ⟨(CN_IRQEN n), 8, 8⟩
abbrev CN_IRQEN_RXDROP (n : Nat) : Fld := ⟨(CN_IRQEN n), 7, 7⟩
abbrev CN_IRQEN_PXE (n : Nat) : Fld := ⟨(CN_IRQEN n), 6, 6⟩
abbrev CN_IRQEN_RECOVERED (n : Nat) : Fld := ⟨(CN_IRQEN n), 5, 5⟩
abbrev CN_IRQEN_BUSOFF (n : Nat) : Fld := ⟨(CN_IRQEN n), 4, 4⟩
abbrev CN_IRQEN_PASSIVE (n : Nat) : Fld := ⟨(CN_IRQEN n), 3, 3⟩
abbrev CN_IRQEN_EWRX (n : Nat) : Fld := ⟨(CN_IRQEN n), 1, 1⟩
abbrev CN_IRQEN_EWTX (n : Nat) : Fld := ⟨(CN_IRQEN n), 0, 0⟩
/-- CN_RINGS0: 12 R627,R629. -/
abbrev CN_RINGS0 (n : Nat) : Nat := 0x1301024 + 0x800 * n
abbrev CN_RINGS0_DONE (n : Nat) : Fld := ⟨(CN_RINGS0 n), 29, 16⟩
abbrev CN_RINGS0_RX (n : Nat) : Fld := ⟨(CN_RINGS0 n), 13, 0⟩
/-- CN_RINGS1: 12 R636. -/
abbrev CN_RINGS1 (n : Nat) : Nat := 0x1301028 + 0x800 * n
abbrev CN_RINGS1_IRQ (n : Nat) : Fld := ⟨(CN_RINGS1 n), 13, 0⟩
/-- CN_TXQ: 12 R624. -/
abbrev CN_TXQ (n j : Nat) : Nat := 0x1301030 + 0x800 * n + 0x4 * j
abbrev CN_TXQ_EN (n j : Nat) : Fld := ⟨(CN_TXQ n j), 31, 31⟩
abbrev CN_TXQ_RING (n j : Nat) : Fld := ⟨(CN_TXQ n j), 13, 0⟩
/-- CN_LATE: 12 R625. -/
abbrev CN_LATE (n : Nat) : Nat := 0x1301040 + 0x800 * n
abbrev CN_LATE_US (n : Nat) : Fld := ⟨(CN_LATE n), 15, 0⟩
/-- CN_CANCEL: 12 R630. -/
abbrev CN_CANCEL (n : Nat) : Nat := 0x1301044 + 0x800 * n
abbrev CN_CANCEL_SLOTSEL (n : Nat) : Fld := ⟨(CN_CANCEL n), 23, 23⟩
abbrev CN_CANCEL_INDEX (n : Nat) : Fld := ⟨(CN_CANCEL n), 22, 16⟩
abbrev CN_CANCEL_TOKEN (n : Nat) : Fld := ⟨(CN_CANCEL n), 15, 0⟩
/-- CN_CANCELSTAT: 12 R630. -/
abbrev CN_CANCELSTAT (n : Nat) : Nat := 0x1301048 + 0x800 * n
abbrev CN_CANCELSTAT_VALID (n : Nat) : Fld := ⟨(CN_CANCELSTAT n), 31, 31⟩
abbrev CN_CANCELSTAT_TOKEN (n : Nat) : Fld := ⟨(CN_CANCELSTAT n), 23, 8⟩
abbrev CN_CANCELSTAT_RESULT (n : Nat) : Fld := ⟨(CN_CANCELSTAT n), 1, 0⟩
/-- CN_CTL: 12 R619. -/
abbrev CN_CTL (n : Nat) : Nat := 0x130104c + 0x800 * n
abbrev CN_CTL_RECOVER (n : Nat) : Fld := ⟨(CN_CTL n), 31, 31⟩
/-- CN_TTCFG: 12 R632,R635. -/
abbrev CN_TTCFG (n : Nat) : Nat := 0x1301050 + 0x800 * n
abbrev CN_TTCFG_EN (n : Nat) : Fld := ⟨(CN_TTCFG n), 31, 31⟩
abbrev CN_TTCFG_SCHED (n : Nat) : Fld := ⟨(CN_TTCFG n), 23, 16⟩
abbrev CN_TTCFG_NCYC (n : Nat) : Fld := ⟨(CN_TTCFG n), 2, 0⟩
/-- CN_TTSTAT: 12 R632. -/
abbrev CN_TTSTAT (n : Nat) : Nat := 0x1301054 + 0x800 * n
abbrev CN_TTSTAT_CYC (n : Nat) : Fld := ⟨(CN_TTSTAT n), 3, 0⟩
/-- CN_TXOK_LO: 12 Registers. -/
abbrev CN_TXOK_LO (n : Nat) : Nat := 0x1301060 + 0x800 * n
/-- CN_TXOK_HI: 12 Registers. -/
abbrev CN_TXOK_HI (n : Nat) : Nat := 0x1301064 + 0x800 * n
/-- CN_RXOK_LO: 12 Registers. -/
abbrev CN_RXOK_LO (n : Nat) : Nat := 0x1301068 + 0x800 * n
/-- CN_RXOK_HI: 12 Registers. -/
abbrev CN_RXOK_HI (n : Nat) : Nat := 0x130106c + 0x800 * n
/-- CN_LATECNT_LO: 12 R625,R634. -/
abbrev CN_LATECNT_LO (n : Nat) : Nat := 0x1301070 + 0x800 * n
/-- CN_LATECNT_HI: 12 R625,R634. -/
abbrev CN_LATECNT_HI (n : Nat) : Nat := 0x1301074 + 0x800 * n
/-- CN_FILT: 12 R628. -/
abbrev CN_FILT (n j : Nat) : Nat := 0x1301100 + 0x800 * n + 0x8 * j
abbrev CN_FILT_EN (n j : Nat) : Fld := ⟨(CN_FILT n j), 31, 31⟩
abbrev CN_FILT_XTD (n j : Nat) : Fld := ⟨(CN_FILT n j), 30, 30⟩
abbrev CN_FILT_ID (n j : Nat) : Fld := ⟨(CN_FILT n j), 28, 0⟩
/-- CN_FMASK: 12 R628. -/
abbrev CN_FMASK (n j : Nat) : Nat := 0x1301104 + 0x800 * n + 0x8 * j
abbrev CN_FMASK_MASK (n j : Nat) : Fld := ⟨(CN_FMASK n j), 28, 0⟩
/-- CN_SLOT: 12 R632. -/
abbrev CN_SLOT (n j : Nat) : Nat := 0x1301200 + 0x800 * n + 0x8 * j
abbrev CN_SLOT_EN (n j : Nat) : Fld := ⟨(CN_SLOT n j), 31, 31⟩
abbrev CN_SLOT_REPEAT (n j : Nat) : Fld := ⟨(CN_SLOT n j), 30, 30⟩
abbrev CN_SLOT_RING (n j : Nat) : Fld := ⟨(CN_SLOT n j), 13, 0⟩
/-- CN_SLOTT: 12 R632. -/
abbrev CN_SLOTT (n j : Nat) : Nat := 0x1301204 + 0x800 * n + 0x8 * j
abbrev CN_SLOTT_OFFSET (n j : Nat) : Fld := ⟨(CN_SLOTT n j), 31, 16⟩
abbrev CN_SLOTT_COLMASK (n j : Nat) : Fld := ⟨(CN_SLOTT n j), 15, 0⟩
/-- BT_FLREQ: 14 R694. -/
abbrev BT_FLREQ : Nat := 0x1400000
abbrev BT_FLREQ_OP : Fld := ⟨BT_FLREQ, 31, 30⟩
abbrev BT_FLREQ_TAG : Fld := ⟨BT_FLREQ, 23, 16⟩
abbrev BT_FLREQ_UNIT : Fld := ⟨BT_FLREQ, 11, 0⟩
/-- BT_FLADDR: 14 R694. -/
abbrev BT_FLADDR : Nat := 0x1400004
/-- BT_FLLEN: 14 R694. -/
abbrev BT_FLLEN : Nat := 0x1400008
abbrev BT_FLLEN_PAGESM1 : Fld := ⟨BT_FLLEN, 21, 16⟩
abbrev BT_FLLEN_FIRST : Fld := ⟨BT_FLLEN, 9, 0⟩
/-- BT_FLSTAT: 14 R694. -/
abbrev BT_FLSTAT : Nat := 0x140000c
abbrev BT_FLSTAT_VALID : Fld := ⟨BT_FLSTAT, 31, 31⟩
abbrev BT_FLSTAT_TAG : Fld := ⟨BT_FLSTAT, 15, 8⟩
abbrev BT_FLSTAT_RESULT : Fld := ⟨BT_FLSTAT, 3, 0⟩
/-- BT_UNITSEL: 14 R698. -/
abbrev BT_UNITSEL : Nat := 0x1400010
abbrev BT_UNITSEL_UNIT : Fld := ⟨BT_UNITSEL, 11, 0⟩
/-- BT_UNITINFO: 14 R698. -/
abbrev BT_UNITINFO : Nat := 0x1400014
abbrev BT_UNITINFO_STATE : Fld := ⟨BT_UNITINFO, 31, 30⟩
abbrev BT_UNITINFO_BANK : Fld := ⟨BT_UNITINFO, 29, 28⟩
abbrev BT_UNITINFO_ERASECNT : Fld := ⟨BT_UNITINFO, 14, 0⟩
/-- BT_SPARES: 14 R701. -/
abbrev BT_SPARES : Nat := 0x1400018
abbrev BT_SPARES_N : Fld := ⟨BT_SPARES, 7, 0⟩
/-- EV_HCFG: 14 R736. -/
abbrev EV_HCFG : Nat := 0x1401000
abbrev EV_HCFG_EN : Fld := ⟨EV_HCFG, 31, 31⟩
abbrev EV_HCFG_LOAD : Fld := ⟨EV_HCFG, 30, 30⟩
abbrev EV_HCFG_BAD : Fld := ⟨EV_HCFG, 29, 29⟩
abbrev EV_HCFG_SEALS : Fld := ⟨EV_HCFG, 15, 0⟩
/-- EV_HSHELF: 14 R739. -/
abbrev EV_HSHELF : Nat := 0x1401004
/-- EV_HNS: 14 R731. -/
abbrev EV_HNS (n : Nat) : Nat := 0x1401010 + 0x4 * n
abbrev EV_HNS_STATE (n : Nat) : Fld := ⟨(EV_HNS n), 31, 29⟩
abbrev EV_HNS_PORT (n : Nat) : Fld := ⟨(EV_HNS n), 28, 28⟩
abbrev EV_HNS_FREESEG (n : Nat) : Fld := ⟨(EV_HNS n), 27, 0⟩
/-- EV_HBIND: 14 R742. -/
abbrev EV_HBIND (n : Nat) : Nat := 0x1401080 + 0x4 * n
abbrev EV_HBIND_EN (n : Nat) : Fld := ⟨(EV_HBIND n), 31, 31⟩
abbrev EV_HBIND_KIND (n : Nat) : Fld := ⟨(EV_HBIND n), 29, 24⟩
abbrev EV_HBIND_SHELF (n : Nat) : Fld := ⟨(EV_HBIND n), 21, 16⟩
abbrev EV_HBIND_RING (n : Nat) : Fld := ⟨(EV_HBIND n), 13, 0⟩
/-- EV_HLOST_LO: 14 R737,R740,R742. -/
abbrev EV_HLOST_LO : Nat := 0x1401100
/-- EV_HLOST_HI: 14 R737,R740,R742. -/
abbrev EV_HLOST_HI : Nat := 0x1401104

/-- Rows of the register map, part 0. -/
def regTable0 : List RegDesc := [
  ⟨0x1500000, 1, 0x0, 1, 0x0, [⟨31, 20, .ro, some 1201, some 1201⟩, ⟨15, 8, .ro, some 1, some 1⟩, ⟨7, 0, .ro, some 1, some 1⟩]⟩,
  ⟨0x1500100, 1, 0x0, 1, 0x0, [⟨11, 8, .ro, some 0, none⟩, ⟨6, 4, .ro, some 0, none⟩, ⟨2, 0, .ro, some 0, some 0⟩]⟩,
  ⟨0x1500104, 1, 0x0, 1, 0x0, [⟨15, 8, .wo, some 0, some 0⟩, ⟨2, 0, .wo, some 0, some 0⟩]⟩,
  ⟨0x1500108, 1, 0x0, 1, 0x0, [⟨31, 31, .rc, some 0, none⟩, ⟨15, 8, .ro, some 0, none⟩, ⟨3, 0, .ro, some 0, none⟩]⟩,
  ⟨0x1500110, 1, 0x0, 1, 0x0, [⟨18, 18, .ro, some 0, none⟩, ⟨17, 17, .ro, some 0, none⟩, ⟨15, 14, .ro, some 0, none⟩, ⟨7, 4, .ro, none, none⟩, ⟨3, 0, .ro, none, none⟩]⟩,
  ⟨0x1500114, 1, 0x0, 1, 0x0, [⟨0, 0, .rwl, none, none⟩]⟩,
  ⟨0x1500120, 1, 0x0, 1, 0x0, [⟨31, 16, .ro, none, none⟩, ⟨13, 12, .ro, none, none⟩, ⟨10, 8, .ro, none, none⟩, ⟨6, 0, .w1c, none, none⟩]⟩,
  ⟨0x1500124, 1, 0x0, 1, 0x0, [⟨3, 3, .ro, some 0, none⟩, ⟨2, 2, .ro, none, none⟩, ⟨1, 0, .ro, none, none⟩]⟩,
  ⟨0x1500128, 1, 0x0, 1, 0x0, [⟨0, 0, .rw, some 0, none⟩]⟩,
  ⟨0x1500130, 1, 0x0, 1, 0x0, [⟨3, 0, .wo, some 0, some 0⟩]⟩,
  ⟨0x1500134, 1, 0x0, 1, 0x0, [⟨19, 0, .rw, some 2000, none⟩]⟩,
  ⟨0x1500138, 1, 0x0, 1, 0x0, [⟨31, 31, .ro, some 0, none⟩, ⟨25, 24, .ro, some 0, none⟩, ⟨11, 8, .ro, some 0, none⟩, ⟨2, 0, .ro, some 0, none⟩]⟩,
  ⟨0x150013c, 1, 0x0, 1, 0x0, [⟨31, 0, .ro, some 0, none⟩]⟩,
  ⟨0x1500140, 1, 0x0, 1, 0x0, [⟨31, 0, .ro, some 0, none⟩]⟩,
  ⟨0x1500200, 1, 0x0, 1, 0x0, [⟨23, 16, .wo, some 0, some 0⟩, ⟨9, 8, .wo, some 0, some 0⟩, ⟨4, 0, .wo, some 0, some 0⟩]⟩,
  ⟨0x1500204, 1, 0x0, 1, 0x0, [⟨31, 0, .ro, some 0, none⟩]⟩,
  ⟨0x1500208, 1, 0x0, 1, 0x0, [⟨15, 0, .ro, some 0, none⟩]⟩,
  ⟨0x1500210, 1, 0x0, 1, 0x0, [⟨31, 0, .rw, some 0, none⟩]⟩,
  ⟨0x1500214, 1, 0x0, 1, 0x0, [⟨15, 0, .rw, some 0, none⟩]⟩,
  ⟨0x1500218, 1, 0x0, 1, 0x0, [⟨31, 31, .rw, some 0, none⟩, ⟨30, 30, .w1c, some 0, none⟩, ⟨29, 29, .ro, some 0, none⟩, ⟨28, 28, .w1c, some 0, none⟩, ⟨10, 0, .rw, some 0, none⟩]⟩,
  ⟨0x1500240, 1, 0x0, 1, 0x0, [⟨31, 31, .ro, some 0, none⟩, ⟨30, 28, .ro, some 0, none⟩, ⟨27, 27, .ro, some 0, none⟩, ⟨26, 26, .ro, some 0, none⟩, ⟨23, 16, .ro, some 0, none⟩, ⟨10, 0, .ro, none, none⟩]⟩,
  ⟨0x1500244, 8, 0x4, 1, 0x0, [⟨31, 16, .ro, some 22500, none⟩, ⟨15, 0, .ro, some 0, none⟩]⟩,
  ⟨0x1500280, 1, 0x0, 1, 0x0, [⟨31, 31, .ro, none, none⟩, ⟨30, 30, .ro, none, none⟩, ⟨23, 16, .ro, some 0, none⟩, ⟨11, 0, .ro, none, none⟩]⟩,
  ⟨0x1500284, 1, 0x0, 1, 0x0, [⟨31, 31, .ro, some 0, none⟩, ⟨30, 30, .ro, some 0, none⟩, ⟨29, 29, .ro, some 0, none⟩, ⟨25, 13, .ro, some 0, none⟩, ⟨12, 0, .ro, some 0, none⟩]⟩,
  ⟨0x1500400, 16, 0x20, 1, 0x0, [⟨31, 31, .rwl, some 0, none⟩, ⟨28, 0, .rwl, some 0, none⟩]⟩,
  ⟨0x1500404, 16, 0x20, 1, 0x0, [⟨31, 30, .ro, some 0, some 0⟩, ⟨29, 29, .w1c, some 0, none⟩, ⟨11, 8, .ro, some 0, none⟩, ⟨2, 0, .ro, some 0, some 0⟩]⟩,
  ⟨0x1500408, 16, 0x20, 1, 0x0, [⟨23, 0, .ro, some 0, none⟩]⟩,
  ⟨0x150040c, 16, 0x20, 1, 0x0, [⟨23, 0, .rw, some 0, none⟩]⟩,
  ⟨0x1500410, 16, 0x20, 1, 0x0, [⟨31, 0, .ro, some 0, none⟩]⟩,
  ⟨0x1500414, 16, 0x20, 1, 0x0, [⟨31, 0, .ro, some 0, none⟩]⟩,
  ⟨0x1500600, 8, 0x4, 1, 0x0, [⟨6, 6, .ro, some 0, some 0⟩, ⟨5, 5, .ro, some 0, some 0⟩, ⟨4, 4, .ro, some 1, some 1⟩, ⟨3, 0, .ro, some 0, some 0⟩]⟩,
  ⟨0x1500620, 1, 0x0, 1, 0x0, [⟨3, 0, .wo, some 0, some 0⟩]⟩,
  ⟨0x1500624, 1, 0x0, 1, 0x0, [⟨0, 0, .rw, some 1, none⟩]⟩,
  ⟨0x1500628, 1, 0x0, 1, 0x0, [⟨31, 31, .w1c, none, none⟩, ⟨19, 16, .ro, none, none⟩, ⟨15, 0, .ro, none, none⟩]⟩,
  ⟨0x1500640, 1, 0x0, 1, 0x0, [⟨31, 0, .rw, some 0, none⟩]⟩,
  ⟨0x1500644, 1, 0x0, 1, 0x0, [⟨31, 0, .rw, some 0, none⟩]⟩,
  ⟨0x1500648, 1, 0x0, 1, 0x0, [⟨31, 0, .rw, some 0, none⟩]⟩,
  ⟨0x150064c, 1, 0x0, 1, 0x0, [⟨27, 24, .wo, some 0, some 0⟩, ⟨23, 16, .wo, some 0, some 0⟩, ⟨10, 0, .wo, some 0, some 0⟩]⟩,
  ⟨0x1500650, 1, 0x0, 1, 0x0, [⟨31, 31, .rc, some 0, none⟩, ⟨26, 24, .ro, some 0, some 0⟩, ⟨23, 16, .ro, some 0, none⟩, ⟨3, 0, .ro, some 0, none⟩]⟩,
  ⟨0x1500654, 1, 0x0, 1, 0x0, [⟨7, 4, .wo, some 0, some 0⟩, ⟨3, 0, .wo, some 0, some 0⟩]⟩]

/-- Rows of the register map, part 1. -/
def regTable1 : List RegDesc := [
  ⟨0x1500700, 1, 0x0, 1, 0x0, [⟨31, 30, .rwl, none, none⟩, ⟨29, 29, .rwl, none, none⟩, ⟨28, 28, .rwl, none, none⟩, ⟨27, 16, .rwl, none, none⟩, ⟨15, 0, .rwl, none, none⟩]⟩,
  ⟨0x1500704, 1, 0x0, 1, 0x0, [⟨31, 22, .rw, some 20, none⟩, ⟨21, 12, .rw, some 100, none⟩, ⟨11, 0, .rw, some 100, none⟩]⟩,
  ⟨0x1500708, 1, 0x0, 1, 0x0, [⟨31, 30, .ro, some 0, none⟩, ⟨29, 29, .ro, some 0, none⟩, ⟨28, 28, .ro, some 0, none⟩, ⟨27, 27, .ro, some 0, none⟩, ⟨26, 26, .ro, none, none⟩, ⟨25, 25, .ro, some 0, none⟩, ⟨24, 24, .ro, some 0, none⟩, ⟨23, 20, .ro, some 0, none⟩, ⟨19, 19, .w1c, some 0, none⟩, ⟨18, 18, .w1c, some 0, none⟩, ⟨14, 12, .ro, none, none⟩, ⟨11, 10, .ro, none, none⟩]⟩,
  ⟨0x150070c, 1, 0x0, 1, 0x0, [⟨31, 31, .wo, some 0, some 0⟩, ⟨30, 30, .wo, some 0, some 0⟩, ⟨29, 29, .wo, some 0, some 0⟩, ⟨7, 0, .wo, some 0, some 0⟩]⟩,
  ⟨0x1500710, 1, 0x0, 1, 0x0, [⟨31, 31, .rc, some 0, none⟩, ⟨15, 8, .ro, some 0, none⟩, ⟨2, 0, .ro, some 0, none⟩]⟩,
  ⟨0x1500720, 8, 0x4, 1, 0x0, [⟨31, 0, .ro, some 0, none⟩]⟩,
  ⟨0x1500740, 1, 0x0, 1, 0x0, [⟨31, 0, .ro, some 0, none⟩]⟩,
  ⟨0x1500744, 1, 0x0, 1, 0x0, [⟨31, 0, .ro, some 0, none⟩]⟩,
  ⟨0x1500748, 1, 0x0, 1, 0x0, [⟨31, 0, .ro, some 0, none⟩]⟩,
  ⟨0x150074c, 1, 0x0, 1, 0x0, [⟨31, 0, .ro, some 0, none⟩]⟩,
  ⟨0x1500750, 1, 0x0, 1, 0x0, [⟨31, 31, .ro, some 0, none⟩, ⟨19, 0, .ro, some 0, none⟩]⟩,
  ⟨0x1500754, 1, 0x0, 1, 0x0, [⟨11, 0, .ro, some 0, none⟩]⟩,
  ⟨0x1500760, 1, 0x0, 1, 0x0, [⟨31, 0, .ro, some 0, none⟩]⟩,
  ⟨0x1500764, 1, 0x0, 1, 0x0, [⟨31, 0, .ro, some 0, none⟩]⟩,
  ⟨0x1500768, 1, 0x0, 1, 0x0, [⟨31, 0, .ro, some 0, none⟩]⟩,
  ⟨0x150076c, 1, 0x0, 1, 0x0, [⟨31, 0, .ro, some 0, none⟩]⟩,
  ⟨0x1500770, 1, 0x0, 1, 0x0, [⟨31, 0, .ro, some 0, none⟩]⟩,
  ⟨0x1500774, 1, 0x0, 1, 0x0, [⟨31, 0, .ro, some 0, none⟩]⟩,
  ⟨0x1500778, 1, 0x0, 1, 0x0, [⟨31, 0, .ro, some 0, none⟩]⟩,
  ⟨0x150077c, 1, 0x0, 1, 0x0, [⟨31, 0, .ro, some 0, none⟩]⟩,
  ⟨0x1500780, 1, 0x0, 1, 0x0, [⟨31, 0, .ro, some 0, none⟩]⟩,
  ⟨0x1500784, 1, 0x0, 1, 0x0, [⟨31, 0, .ro, some 0, none⟩]⟩,
  ⟨0x1500800, 1, 0x0, 1, 0x0, [⟨31, 31, .ro, some 0, none⟩, ⟨30, 30, .ro, some 0, none⟩, ⟨13, 0, .ro, some 0, none⟩]⟩,
  ⟨0x1500804, 1, 0x0, 1, 0x0, [⟨31, 0, .ro, none, none⟩]⟩,
  ⟨0x1500808, 1, 0x0, 1, 0x0, [⟨31, 0, .ro, none, none⟩]⟩,
  ⟨0x150080c, 1, 0x0, 1, 0x0, [⟨31, 0, .ro, none, none⟩]⟩,
  ⟨0x1500810, 1, 0x0, 1, 0x0, [⟨31, 0, .ro, none, none⟩]⟩,
  ⟨0x1500820, 1, 0x0, 1, 0x0, [⟨4, 0, .rw, some 0, none⟩]⟩,
  ⟨0x1500824, 1, 0x0, 1, 0x0, [⟨31, 31, .ro, some 0, none⟩, ⟨7, 0, .rwl, none, none⟩]⟩,
  ⟨0x1500828, 1, 0x0, 1, 0x0, [⟨24, 0, .ro, none, none⟩]⟩,
  ⟨0x150082c, 1, 0x0, 1, 0x0, [⟨31, 0, .ro, none, none⟩]⟩,
  ⟨0x1500830, 1, 0x0, 1, 0x0, [⟨31, 0, .ro, none, none⟩]⟩,
  ⟨0x1500834, 1, 0x0, 1, 0x0, [⟨31, 0, .ro, none, none⟩]⟩,
  ⟨0x1500838, 1, 0x0, 1, 0x0, [⟨31, 0, .ro, none, none⟩]⟩,
  ⟨0x1500840, 1, 0x0, 1, 0x0, [⟨29, 16, .rw, some 0, none⟩, ⟨13, 0, .rw, some 0, none⟩]⟩,
  ⟨0x1500844, 1, 0x0, 1, 0x0, [⟨13, 0, .rw, some 0, none⟩]⟩,
  ⟨0x1500848, 1, 0x0, 1, 0x0, [⟨31, 31, .rc, some 0, none⟩, ⟨2, 0, .ro, some 0, none⟩]⟩,
  ⟨0x1500850, 1, 0x0, 1, 0x0, [⟨20, 16, .rw, some 0, none⟩, ⟨15, 0, .rw, some 0, none⟩]⟩,
  ⟨0x1500854, 1, 0x0, 1, 0x0, [⟨31, 31, .ro, some 0, none⟩, ⟨0, 0, .w1c, some 0, none⟩]⟩,
  ⟨0x1500900, 1, 0x0, 1, 0x0, [⟨31, 30, .ro, none, none⟩, ⟨29, 29, .ro, none, none⟩, ⟨28, 28, .ro, none, none⟩, ⟨27, 27, .ro, none, none⟩, ⟨26, 26, .ro, none, none⟩, ⟨25, 25, .ro, none, none⟩, ⟨24, 24, .ro, none, none⟩, ⟨17, 16, .ro, none, none⟩, ⟨15, 0, .ro, none, none⟩]⟩]

/-- Rows of the register map, part 2. -/
def regTable2 : List RegDesc := [
  ⟨0x1500904, 1, 0x0, 1, 0x0, [⟨31, 31, .ro, none, none⟩, ⟨30, 30, .ro, none, none⟩, ⟨8, 0, .ro, none, none⟩]⟩,
  ⟨0x1500908, 1, 0x0, 1, 0x0, [⟨31, 31, .ro, none, none⟩, ⟨30, 30, .ro, none, none⟩, ⟨29, 29, .ro, none, none⟩, ⟨28, 28, .ro, none, none⟩, ⟨12, 0, .ro, none, none⟩]⟩,
  ⟨0x150090c, 1, 0x0, 1, 0x0, [⟨31, 0, .ro, none, none⟩]⟩,
  ⟨0x1500910, 1, 0x0, 1, 0x0, [⟨12, 0, .ro, none, none⟩]⟩,
  ⟨0x1500914, 1, 0x0, 1, 0x0, [⟨31, 31, .rc, some 0, none⟩, ⟨23, 16, .ro, some 0, none⟩, ⟨15, 8, .ro, some 0, none⟩, ⟨7, 0, .ro, some 0, none⟩]⟩,
  ⟨0x1500918, 1, 0x0, 1, 0x0, [⟨31, 0, .ro, some 0, none⟩]⟩,
  ⟨0x150091c, 1, 0x0, 1, 0x0, [⟨31, 0, .ro, some 0, none⟩]⟩,
  ⟨0x1500920, 1, 0x0, 1, 0x0, [⟨31, 0, .ro, none, none⟩]⟩,
  ⟨0x1500924, 1, 0x0, 1, 0x0, [⟨31, 0, .ro, none, none⟩]⟩,
  ⟨0x1500a00, 1, 0x0, 1, 0x0, [⟨31, 31, .rwl, some 1, none⟩, ⟨7, 0, .rwl, some 50, none⟩]⟩,
  ⟨0x1500a04, 1, 0x0, 1, 0x0, [⟨31, 31, .ro, none, none⟩, ⟨30, 30, .ro, some 0, none⟩, ⟨29, 29, .ro, some 0, none⟩]⟩,
  ⟨0x1500a08, 1, 0x0, 1, 0x0, [⟨31, 0, .w1c, some 0, none⟩]⟩,
  ⟨0x1500a0c, 1, 0x0, 1, 0x0, [⟨31, 0, .ro, some 0, none⟩]⟩,
  ⟨0x1500a10, 1, 0x0, 1, 0x0, [⟨31, 0, .ro, some 0, none⟩]⟩,
  ⟨0x1500a14, 1, 0x0, 1, 0x0, [⟨31, 0, .ro, some 0, none⟩]⟩,
  ⟨0x1500a18, 1, 0x0, 1, 0x0, [⟨31, 0, .ro, some 0, none⟩]⟩,
  ⟨0x1500a1c, 1, 0x0, 1, 0x0, [⟨31, 0, .ro, some 0, none⟩]⟩,
  ⟨0x1500a20, 1, 0x0, 1, 0x0, [⟨31, 31, .ro, none, none⟩, ⟨7, 0, .ro, some 0, none⟩]⟩,
  ⟨0x1500a30, 1, 0x0, 1, 0x0, [⟨31, 31, .ro, some 0, none⟩, ⟨30, 30, .ro, some 0, none⟩]⟩,
  ⟨0x1500a34, 1, 0x0, 1, 0x0, [⟨31, 0, .ro, some 0, none⟩]⟩,
  ⟨0x1500a38, 1, 0x0, 1, 0x0, [⟨31, 0, .ro, some 0, none⟩]⟩,
  ⟨0x1500a40, 1, 0x0, 1, 0x0, [⟨31, 31, .w1c, some 0, none⟩, ⟨24, 16, .ro, some 0, none⟩, ⟨8, 0, .ro, some 0, none⟩]⟩,
  ⟨0x1500a44, 1, 0x0, 1, 0x0, [⟨31, 0, .wo, some 0, some 0⟩]⟩,
  ⟨0x1700000, 1, 0x0, 1, 0x0, [⟨17, 0, .ro, some 129024, none⟩]⟩,
  ⟨0x1700004, 1, 0x0, 1, 0x0, [⟨17, 0, .ro, some 2048, none⟩]⟩,
  ⟨0x1700010, 1, 0x0, 1, 0x0, [⟨13, 0, .rw, some 0, none⟩]⟩,
  ⟨0x1700014, 1, 0x0, 1, 0x0, [⟨31, 31, .rw, some 0, none⟩, ⟨30, 30, .rw, some 0, none⟩, ⟨14, 10, .rw, some 0, none⟩, ⟨9, 5, .rw, some 0, none⟩]⟩,
  ⟨0x1700018, 1, 0x0, 1, 0x0, [⟨17, 0, .rw, some 0, none⟩]⟩,
  ⟨0x170001c, 1, 0x0, 1, 0x0, [⟨17, 0, .rw, some 0, none⟩]⟩,
  ⟨0x1700020, 1, 0x0, 1, 0x0, [⟨17, 0, .ro, some 0, none⟩]⟩,
  ⟨0x1700024, 1, 0x0, 1, 0x0, [⟨31, 0, .ro, some 0, none⟩]⟩,
  ⟨0x1700028, 1, 0x0, 1, 0x0, [⟨31, 0, .ro, some 0, none⟩]⟩,
  ⟨0x1700030, 1, 0x0, 1, 0x0, [⟨2, 2, .w1c, some 0, none⟩, ⟨1, 1, .w1c, some 0, none⟩, ⟨0, 0, .w1c, some 0, none⟩]⟩,
  ⟨0x800000, 1, 0x0, 1, 0x0, [⟨31, 31, .ro, some 0, some 0⟩, ⟨30, 30, .ro, some 0, some 0⟩, ⟨29, 29, .w1c, some 0, some 0⟩, ⟨28, 28, .w1c, some 0, some 0⟩, ⟨27, 27, .ro, some 0, some 0⟩]⟩,
  ⟨0x800004, 1, 0x0, 1, 0x0, [⟨27, 16, .ro, some 0, some 0⟩, ⟨15, 0, .ro, some 0, some 0⟩]⟩,
  ⟨0x800008, 1, 0x0, 1, 0x0, [⟨31, 0, .ro, some 0, some 0⟩]⟩,
  ⟨0x80000c, 1, 0x0, 1, 0x0, [⟨31, 0, .ro, some 0, some 0⟩]⟩,
  ⟨0x800010, 1, 0x0, 1, 0x0, [⟨15, 8, .wo, some 0, some 0⟩, ⟨6, 0, .wo, some 0, some 0⟩]⟩,
  ⟨0x800014, 1, 0x0, 1, 0x0, [⟨31, 0, .rw, some 0, some 0⟩]⟩,
  ⟨0x800018, 1, 0x0, 1, 0x0, [⟨31, 31, .rc, some 0, some 0⟩, ⟨22, 16, .ro, some 0, some 0⟩, ⟨15, 8, .ro, some 0, some 0⟩, ⟨3, 0, .ro, some 0, some 0⟩]⟩]

/-- Rows of the register map, part 3. -/
def regTable3 : List RegDesc := [
  ⟨0x80001c, 1, 0x0, 1, 0x0, [⟨10, 0, .wo, some 0, some 0⟩]⟩,
  ⟨0x800020, 1, 0x0, 1, 0x0, [⟨31, 0, .ro, some 0, some 0⟩]⟩,
  ⟨0x800024, 1, 0x0, 1, 0x0, [⟨31, 0, .ro, some 0, some 0⟩]⟩,
  ⟨0x800028, 1, 0x0, 1, 0x0, [⟨22, 16, .ro, some 0, some 0⟩, ⟨11, 0, .ro, some 0, some 0⟩]⟩,
  ⟨0x800030, 1, 0x0, 1, 0x0, [⟨31, 31, .rw, some 0, some 0⟩, ⟨29, 16, .rw, some 0, some 0⟩, ⟨13, 0, .rw, some 0, some 0⟩]⟩,
  ⟨0x800038, 1, 0x0, 1, 0x0, [⟨31, 0, .ro, some 0, some 0⟩]⟩,
  ⟨0x80003c, 1, 0x0, 1, 0x0, [⟨31, 0, .ro, some 0, some 0⟩]⟩,
  ⟨0x800040, 1, 0x0, 1, 0x0, [⟨31, 0, .ro, some 0, some 0⟩]⟩,
  ⟨0x800044, 1, 0x0, 1, 0x0, [⟨31, 0, .ro, some 0, some 0⟩]⟩,
  ⟨0x800048, 1, 0x0, 1, 0x0, [⟨31, 0, .ro, some 0, some 0⟩]⟩,
  ⟨0x80004c, 1, 0x0, 1, 0x0, [⟨31, 0, .ro, some 0, some 0⟩]⟩,
  ⟨0x800050, 1, 0x0, 1, 0x0, [⟨31, 31, .rw, some 0, some 0⟩, ⟨30, 30, .wo, some 0, some 0⟩, ⟨29, 28, .rw, some 0, some 0⟩, ⟨27, 22, .rw, some 0, some 0⟩, ⟨19, 10, .rw, some 0, some 0⟩]⟩,
  ⟨0x800054, 1, 0x0, 1, 0x0, [⟨31, 31, .ro, some 0, some 0⟩, ⟨30, 30, .ro, some 0, some 0⟩, ⟨29, 29, .ro, some 0, some 0⟩]⟩,
  ⟨0x800058, 1, 0x0, 1, 0x0, [⟨31, 0, .rw, some 0, some 0⟩]⟩,
  ⟨0x80005c, 1, 0x0, 1, 0x0, [⟨13, 0, .rw, some 0, some 0⟩]⟩,
  ⟨0x800060, 1, 0x0, 1, 0x0, [⟨31, 0, .ro, some 0, some 0⟩]⟩,
  ⟨0x800064, 1, 0x0, 1, 0x0, [⟨31, 0, .ro, some 0, some 0⟩]⟩,
  ⟨0x800100, 64, 0x4, 1, 0x0, [⟨10, 0, .rw, some 0, some 0⟩]⟩,
  ⟨0x800400, 64, 0x4, 1, 0x0, [⟨31, 0, .w1c, some 0, some 0⟩]⟩,
  ⟨0x800800, 64, 0x10, 1, 0x0, [⟨31, 31, .rw, some 0, some 0⟩, ⟨30, 27, .rw, some 0, some 0⟩, ⟨26, 19, .rw, some 0, some 0⟩, ⟨10, 0, .rw, some 0, some 0⟩]⟩,
  ⟨0x800804, 64, 0x10, 1, 0x0, [⟨31, 0, .ro, some 0, some 0⟩]⟩,
  ⟨0x800808, 64, 0x10, 1, 0x0, [⟨31, 0, .ro, some 0, some 0⟩]⟩,
  ⟨0x80080c, 64, 0x10, 1, 0x0, [⟨20, 10, .ro, some 0, some 0⟩, ⟨9, 0, .ro, some 0, some 0⟩]⟩,
  ⟨0x810000, 2048, 0x4, 1, 0x0, [⟨31, 0, .rw, some 0, some 0⟩]⟩,
  ⟨0x840000, 65536, 0x4, 1, 0x0, [⟨31, 0, .rw, some 0, none⟩]⟩,
  ⟨0x880000, 65536, 0x4, 1, 0x0, [⟨31, 0, .ro, some 0, some 0⟩]⟩,
  ⟨0x8c0000, 65536, 0x4, 1, 0x0, [⟨31, 0, .rw, some 0, none⟩]⟩,
  ⟨0x900000, 1, 0x0, 1, 0x0, [⟨31, 31, .ro, some 0, none⟩, ⟨30, 30, .ro, some 0, none⟩, ⟨29, 29, .ro, some 0, none⟩, ⟨28, 28, .ro, some 0, none⟩, ⟨27, 27, .ro, some 0, none⟩, ⟨26, 26, .ro, some 0, none⟩, ⟨25, 25, .w1c, some 0, none⟩, ⟨24, 24, .ro, some 0, none⟩]⟩,
  ⟨0x900004, 1, 0x0, 1, 0x0, [⟨31, 31, .ro, some 0, none⟩, ⟨30, 30, .ro, some 0, none⟩, ⟨9, 9, .ro, none, none⟩, ⟨8, 8, .ro, none, none⟩, ⟨7, 1, .ro, none, none⟩]⟩,
  ⟨0x900010, 8, 0x4, 1, 0x0, [⟨31, 0, .ro, some 0, none⟩]⟩,
  ⟨0x900030, 8, 0x4, 1, 0x0, [⟨31, 0, .rwl, none, none⟩]⟩,
  ⟨0x900050, 1, 0x0, 1, 0x0, [⟨31, 31, .wo, some 0, some 0⟩, ⟨23, 16, .wo, some 0, some 0⟩]⟩,
  ⟨0x900054, 1, 0x0, 1, 0x0, [⟨31, 31, .rc, some 0, none⟩, ⟨23, 16, .ro, some 0, none⟩, ⟨15, 4, .ro, some 0, none⟩, ⟨3, 0, .ro, some 0, none⟩]⟩,
  ⟨0x900058, 1, 0x0, 1, 0x0, [⟨31, 31, .wo, some 0, some 0⟩, ⟨6, 0, .wo, some 0, some 0⟩]⟩,
  ⟨0x900060, 2, 0x4, 1, 0x0, [⟨31, 0, .rw, some 0, none⟩]⟩,
  ⟨0x900068, 1, 0x0, 1, 0x0, [⟨31, 24, .w1c, some 0, none⟩, ⟨15, 8, .ro, some 0, none⟩, ⟨7, 0, .ro, some 0, none⟩]⟩,
  ⟨0x90006c, 1, 0x0, 1, 0x0, [⟨31, 31, .w1c, some 0, none⟩, ⟨14, 8, .ro, some 0, none⟩, ⟨7, 0, .ro, some 0, none⟩]⟩,
  ⟨0x900070, 4, 0x4, 1, 0x0, [⟨31, 0, .ro, some 0, none⟩]⟩,
  ⟨0x900080, 4, 0x4, 1, 0x0, [⟨31, 0, .ro, some 0, none⟩]⟩,
  ⟨0x900090, 4, 0x4, 1, 0x0, [⟨31, 0, .ro, some 0, none⟩]⟩]

/-- Rows of the register map, part 4. -/
def regTable4 : List RegDesc := [
  ⟨0x9000a0, 8, 0x4, 1, 0x0, [⟨31, 0, .ro, some 0, none⟩]⟩,
  ⟨0x9000c0, 16, 0x4, 1, 0x0, [⟨31, 0, .ro, some 0, none⟩]⟩,
  ⟨0x910000, 2048, 0x4, 1, 0x0, [⟨31, 0, .rwl, some 0, none⟩]⟩,
  ⟨0x912000, 128, 0x4, 1, 0x0, [⟨31, 0, .rwl, some 0, none⟩]⟩,
  ⟨0x913000, 1536, 0x4, 1, 0x0, [⟨31, 0, .rwl, some 0, none⟩]⟩,
  ⟨0x920000, 2048, 0x4, 1, 0x0, [⟨31, 0, .ro, some 0, none⟩]⟩,
  ⟨0x922000, 128, 0x4, 1, 0x0, [⟨31, 0, .ro, some 0, none⟩]⟩,
  ⟨0x923000, 1536, 0x4, 1, 0x0, [⟨31, 0, .ro, some 0, none⟩]⟩,
  ⟨0xa00100, 1, 0x0, 1, 0x0, [⟨17, 0, .rwl, some 0, none⟩]⟩,
  ⟨0xa00104, 1, 0x0, 1, 0x0, [⟨23, 16, .wo, some 0, some 0⟩, ⟨9, 0, .wo, some 0, some 0⟩]⟩,
  ⟨0xa00108, 1, 0x0, 1, 0x0, [⟨31, 31, .rc, some 0, none⟩, ⟨29, 20, .ro, some 0, none⟩, ⟨15, 8, .ro, some 0, none⟩, ⟨7, 4, .ro, some 0, none⟩, ⟨3, 0, .ro, some 0, none⟩]⟩,
  ⟨0xa0010c, 1, 0x0, 1, 0x0, [⟨31, 0, .rw, some 0, none⟩]⟩,
  ⟨0xa00110, 1, 0x0, 1, 0x0, [⟨31, 0, .rw, some 0, none⟩]⟩,
  ⟨0xa00114, 1, 0x0, 1, 0x0, [⟨31, 0, .rw, some 0, none⟩]⟩,
  ⟨0xa00118, 1, 0x0, 1, 0x0, [⟨31, 31, .wo, some 0, some 0⟩, ⟨27, 24, .wo, some 0, some 0⟩, ⟨23, 16, .wo, some 0, some 0⟩, ⟨6, 0, .wo, some 0, some 0⟩]⟩,
  ⟨0xa0011c, 1, 0x0, 1, 0x0, [⟨31, 31, .rc, some 0, none⟩, ⟨26, 24, .ro, some 0, some 0⟩, ⟨23, 16, .ro, some 0, none⟩, ⟨14, 8, .ro, some 0, none⟩, ⟨7, 4, .ro, some 0, none⟩, ⟨3, 0, .ro, some 0, none⟩]⟩,
  ⟨0xa00120, 1, 0x0, 1, 0x0, [⟨31, 31, .wo, some 0, some 0⟩, ⟨30, 30, .wo, some 0, some 0⟩, ⟨29, 29, .wo, some 0, some 0⟩, ⟨28, 28, .wo, some 0, some 0⟩, ⟨25, 10, .wo, some 0, some 0⟩, ⟨9, 0, .wo, some 0, some 0⟩]⟩,
  ⟨0xa00200, 8, 0x100000, 1, 0x0, [⟨31, 31, .rw, some 1, none⟩, ⟨30, 30, .rw, some 0, none⟩, ⟨29, 29, .wo, some 0, some 0⟩, ⟨11, 0, .rw, some 10, none⟩]⟩,
  ⟨0xa00204, 8, 0x100000, 1, 0x0, [⟨31, 31, .ro, some 0, none⟩, ⟨30, 30, .ro, some 0, none⟩, ⟨29, 29, .ro, some 0, none⟩, ⟨28, 28, .w1c, some 0, none⟩, ⟨15, 0, .ro, some 0, none⟩]⟩,
  ⟨0xa00208, 8, 0x100000, 1, 0x0, [⟨15, 0, .ro, some 0, none⟩]⟩,
  ⟨0xa0020c, 8, 0x100000, 1, 0x0, [⟨31, 0, .ro, some 0, none⟩]⟩,
  ⟨0xa00210, 8, 0x100000, 1, 0x0, [⟨31, 0, .ro, some 0, none⟩]⟩,
  ⟨0xa00214, 8, 0x100000, 1, 0x0, [⟨31, 0, .ro, some 0, none⟩]⟩,
  ⟨0xa00218, 8, 0x100000, 1, 0x0, [⟨31, 0, .ro, some 0, none⟩]⟩,
  ⟨0xa00220, 8, 0x100000, 1, 0x0, [⟨31, 0, .wo, some 0, some 0⟩]⟩,
  ⟨0xa00224, 8, 0x100000, 1, 0x0, [⟨31, 0, .wo, some 0, some 0⟩]⟩,
  ⟨0xa00228, 8, 0x100000, 1, 0x0, [⟨31, 31, .wo, some 0, some 0⟩, ⟨5, 0, .wo, some 0, some 0⟩]⟩,
  ⟨0xa0022c, 8, 0x100000, 1, 0x0, [⟨31, 31, .ro, some 0, none⟩, ⟨13, 8, .ro, some 0, none⟩, ⟨2, 0, .ro, some 0, none⟩]⟩,
  ⟨0xa00230, 8, 0x100000, 1, 0x0, [⟨31, 31, .rw, some 0, none⟩, ⟨29, 16, .rw, some 0, none⟩, ⟨13, 0, .rw, some 0, none⟩]⟩,
  ⟨0xa00300, 8, 0x100000, 1, 0x0, [⟨31, 31, .wo, some 0, some 0⟩, ⟨19, 0, .rw, some 1000, none⟩]⟩,
  ⟨0xa00304, 8, 0x100000, 1, 0x0, [⟨31, 31, .ro, some 0, none⟩, ⟨30, 30, .ro, some 0, none⟩, ⟨29, 29, .w1c, some 0, none⟩, ⟨15, 0, .rc, some 0, none⟩]⟩,
  ⟨0xa00308, 8, 0x100000, 1, 0x0, [⟨31, 0, .ro, some 0, none⟩]⟩,
  ⟨0xa0030c, 8, 0x100000, 1, 0x0, [⟨31, 0, .ro, some 0, none⟩]⟩,
  ⟨0xa00310, 8, 0x100000, 1, 0x0, [⟨31, 0, .ro, some 0, none⟩]⟩,
  ⟨0xa00314, 8, 0x100000, 1, 0x0, [⟨31, 0, .ro, some 0, none⟩]⟩,
  ⟨0xa00320, 8, 0x100000, 1, 0x0, [⟨31, 31, .ro, some 0, none⟩, ⟨30, 30, .ro, some 0, none⟩, ⟨29, 29, .w1c, some 0, none⟩, ⟨28, 28, .w1c, some 0, none⟩, ⟨15, 0, .ro, none, none⟩]⟩,
  ⟨0xa00330, 8, 0x100000, 1, 0x0, [⟨31, 31, .rw, some 0, none⟩, ⟨13, 0, .rw, some 0, none⟩]⟩,
  ⟨0xa00334, 8, 0x100000, 1, 0x0, [⟨31, 0, .ro, some 0, none⟩]⟩,
  ⟨0xa00338, 8, 0x100000, 1, 0x0, [⟨31, 0, .ro, some 0, none⟩]⟩,
  ⟨0x1200000, 1, 0x0, 1, 0x0, [⟨31, 16, .ro, none, none⟩, ⟨13, 12, .ro, none, none⟩, ⟨11, 0, .rwl, none, none⟩]⟩]

/-- Rows of the register map, part 5. -/
def regTable5 : List RegDesc := [
  ⟨0x1200008, 1, 0x0, 1, 0x0, [⟨31, 0, .rwl, none, none⟩]⟩,
  ⟨0x120000c, 1, 0x0, 1, 0x0, [⟨31, 0, .rwl, none, none⟩]⟩,
  ⟨0x1200010, 1, 0x0, 1, 0x0, [⟨23, 16, .ro, none, none⟩, ⟨15, 8, .ro, none, none⟩, ⟨7, 0, .ro, none, none⟩]⟩,
  ⟨0x1200014, 1, 0x0, 1, 0x0, [⟨31, 31, .ro, some 0, none⟩, ⟨30, 30, .ro, some 1, none⟩, ⟨12, 0, .ro, some 0, none⟩]⟩,
  ⟨0x1200020, 1, 0x0, 1, 0x0, [⟨31, 29, .rw, some 2, none⟩, ⟨27, 20, .rw, some 16, none⟩, ⟨19, 0, .rw, some 1000, none⟩]⟩,
  ⟨0x1200024, 1, 0x0, 1, 0x0, [⟨31, 0, .rwl, none, none⟩]⟩,
  ⟨0x1200028, 1, 0x0, 1, 0x0, [⟨15, 0, .rwl, none, none⟩]⟩,
  ⟨0x1200030, 1, 0x0, 1, 0x0, [⟨31, 0, .rw, some 0, none⟩]⟩,
  ⟨0x1200034, 1, 0x0, 1, 0x0, [⟨31, 31, .wo, some 0, some 0⟩, ⟨30, 30, .ro, some 0, none⟩, ⟨4, 0, .rw, some 0, none⟩]⟩,
  ⟨0x1200040, 6, 0x4, 1, 0x0, [⟨31, 31, .ro, some 0, none⟩, ⟨30, 30, .w1c, some 0, none⟩, ⟨29, 28, .ro, some 0, none⟩, ⟨27, 16, .ro, some 0, none⟩, ⟨15, 14, .ro, some 0, none⟩, ⟨13, 13, .ro, some 0, none⟩]⟩,
  ⟨0x1200100, 1, 0x0, 1, 0x0, [⟨31, 0, .ro, some 0, none⟩]⟩,
  ⟨0x1200104, 1, 0x0, 1, 0x0, [⟨31, 0, .ro, some 0, none⟩]⟩,
  ⟨0x1200108, 1, 0x0, 1, 0x0, [⟨31, 0, .ro, some 0, none⟩]⟩,
  ⟨0x120010c, 1, 0x0, 1, 0x0, [⟨31, 0, .ro, some 0, none⟩]⟩,
  ⟨0x1200110, 1, 0x0, 1, 0x0, [⟨31, 0, .ro, some 0, none⟩]⟩,
  ⟨0x1200114, 1, 0x0, 1, 0x0, [⟨31, 0, .ro, some 0, none⟩]⟩,
  ⟨0x1200118, 1, 0x0, 1, 0x0, [⟨31, 0, .ro, some 0, none⟩]⟩,
  ⟨0x120011c, 1, 0x0, 1, 0x0, [⟨31, 0, .ro, some 0, none⟩]⟩,
  ⟨0x1200120, 1, 0x0, 1, 0x0, [⟨31, 0, .ro, some 0, none⟩]⟩,
  ⟨0x1200124, 1, 0x0, 1, 0x0, [⟨31, 0, .ro, some 0, none⟩]⟩,
  ⟨0x1200128, 1, 0x0, 1, 0x0, [⟨31, 0, .ro, some 0, none⟩]⟩,
  ⟨0x120012c, 1, 0x0, 1, 0x0, [⟨31, 0, .ro, some 0, none⟩]⟩,
  ⟨0x1200130, 1, 0x0, 1, 0x0, [⟨31, 0, .ro, some 0, none⟩]⟩,
  ⟨0x1200134, 1, 0x0, 1, 0x0, [⟨31, 0, .ro, some 0, none⟩]⟩,
  ⟨0x1200138, 1, 0x0, 1, 0x0, [⟨31, 0, .ro, some 0, none⟩]⟩,
  ⟨0x120013c, 1, 0x0, 1, 0x0, [⟨31, 0, .ro, some 0, none⟩]⟩,
  ⟨0x1200140, 1, 0x0, 1, 0x0, [⟨31, 0, .ro, some 0, none⟩]⟩,
  ⟨0x1200144, 1, 0x0, 1, 0x0, [⟨31, 0, .ro, some 0, none⟩]⟩,
  ⟨0x1200800, 64, 0x8, 1, 0x0, [⟨31, 31, .rw, some 0, none⟩, ⟨30, 30, .rw, some 0, none⟩, ⟨19, 8, .rw, some 0, none⟩, ⟨7, 0, .rw, some 0, none⟩]⟩,
  ⟨0x1200804, 64, 0x8, 1, 0x0, [⟨31, 0, .rw, some 0, none⟩]⟩,
  ⟨0x1210004, 4094, 0x4, 1, 0x0, [⟨31, 31, .rw, none, none⟩, ⟨30, 30, .rw, none, none⟩, ⟨6, 4, .rw, none, none⟩, ⟨2, 0, .rw, none, none⟩]⟩,
  ⟨0x1220004, 4094, 0x4, 1, 0x0, [⟨31, 30, .ro, some 0, none⟩, ⟨29, 29, .ro, some 0, none⟩, ⟨28, 28, .ro, some 0, none⟩, ⟨27, 27, .ro, some 0, none⟩, ⟨26, 26, .ro, some 0, none⟩, ⟨24, 22, .ro, some 0, none⟩, ⟨21, 18, .ro, some 0, none⟩, ⟨15, 0, .ro, some 0, none⟩]⟩,
  ⟨0x1230000, 1, 0x0, 1, 0x0, [⟨31, 0, .ro, none, none⟩]⟩,
  ⟨0x1230004, 1, 0x0, 1, 0x0, [⟨31, 0, .ro, none, none⟩]⟩,
  ⟨0x1230008, 1, 0x0, 1, 0x0, [⟨15, 0, .ro, none, none⟩]⟩,
  ⟨0x123000c, 1, 0x0, 1, 0x0, [⟨31, 0, .ro, none, none⟩]⟩,
  ⟨0x1230010, 1, 0x0, 1, 0x0, [⟨31, 0, .ro, none, none⟩]⟩,
  ⟨0x1230020, 1, 0x0, 1, 0x0, [⟨31, 31, .ro, some 0, none⟩, ⟨29, 28, .ro, some 0, none⟩, ⟨27, 16, .ro, some 0, none⟩, ⟨11, 8, .ro, some 0, none⟩, ⟨7, 0, .ro, some 112, none⟩]⟩,
  ⟨0x1230024, 1, 0x0, 1, 0x0, [⟨31, 0, .ro, some 0, none⟩]⟩,
  ⟨0x1230028, 1, 0x0, 1, 0x0, [⟨31, 0, .ro, some 0, none⟩]⟩]

/-- Rows of the register map, part 6. -/
def regTable6 : List RegDesc := [
  ⟨0x123002c, 1, 0x0, 1, 0x0, [⟨31, 31, .rwl, none, none⟩, ⟨23, 16, .rwl, none, none⟩, ⟨15, 0, .rwl, none, none⟩]⟩,
  ⟨0x1230034, 1, 0x0, 1, 0x0, [⟨31, 31, .wo, some 0, some 0⟩, ⟨30, 30, .w1c, some 0, none⟩, ⟨15, 0, .ro, some 0, none⟩]⟩,
  ⟨0x1230038, 1, 0x0, 1, 0x0, [⟨31, 0, .wo, some 0, some 0⟩]⟩,
  ⟨0x123003c, 1, 0x0, 1, 0x0, [⟨31, 0, .wo, some 0, some 0⟩]⟩,
  ⟨0x1231000, 256, 0x10, 1, 0x0, [⟨31, 0, .rw, some 0, none⟩]⟩,
  ⟨0x1231004, 256, 0x10, 1, 0x0, [⟨31, 0, .rw, some 0, none⟩]⟩,
  ⟨0x1231008, 256, 0x10, 1, 0x0, [⟨31, 0, .rw, some 0, none⟩]⟩,
  ⟨0x123100c, 256, 0x10, 1, 0x0, [⟨31, 31, .rw, some 0, none⟩, ⟨8, 8, .rw, some 0, none⟩, ⟨7, 0, .rw, some 0, none⟩]⟩,
  ⟨0x1232000, 8, 0x10, 1, 0x0, [⟨31, 31, .rw, some 0, none⟩, ⟨30, 30, .w1c, some 0, none⟩, ⟨14, 12, .rw, some 0, none⟩, ⟨11, 0, .rw, some 0, none⟩]⟩,
  ⟨0x1232004, 8, 0x10, 1, 0x0, [⟨31, 0, .ro, some 0, none⟩]⟩,
  ⟨0x1232008, 8, 0x10, 1, 0x0, [⟨31, 0, .ro, some 0, none⟩]⟩,
  ⟨0x123200c, 8, 0x10, 1, 0x0, [⟨31, 16, .ro, some 0, none⟩, ⟨7, 0, .ro, some 0, none⟩]⟩,
  ⟨0x1300000, 4, 0x100, 1, 0x0, [⟨31, 31, .rwl, none, none⟩, ⟨30, 30, .rwl, none, none⟩, ⟨29, 29, .rwl, none, none⟩, ⟨28, 28, .rwl, none, none⟩, ⟨23, 16, .rwl, none, none⟩, ⟨15, 8, .rwl, none, none⟩, ⟨7, 0, .rwl, none, none⟩]⟩,
  ⟨0x1300004, 4, 0x100, 1, 0x0, [⟨31, 30, .ro, some 0, none⟩, ⟨29, 29, .ro, some 0, none⟩]⟩,
  ⟨0x1300008, 4, 0x100, 1, 0x0, [⟨31, 24, .rw, some 0, none⟩, ⟨15, 0, .rw, some 1000, none⟩]⟩,
  ⟨0x1300020, 4, 0x100, 8, 0x4, [⟨31, 31, .rw, some 0, none⟩, ⟨13, 0, .rw, some 0, none⟩]⟩,
  ⟨0x1300040, 4, 0x100, 1, 0x0, [⟨31, 0, .ro, some 0, none⟩]⟩,
  ⟨0x1300044, 4, 0x100, 1, 0x0, [⟨31, 0, .ro, some 0, none⟩]⟩,
  ⟨0x1300048, 4, 0x100, 1, 0x0, [⟨31, 0, .ro, some 0, none⟩]⟩,
  ⟨0x130004c, 4, 0x100, 1, 0x0, [⟨31, 0, .ro, some 0, none⟩]⟩,
  ⟨0x1301000, 8, 0x800, 1, 0x0, [⟨8, 8, .rw, some 0, none⟩, ⟨7, 7, .rw, some 0, none⟩, ⟨6, 6, .rw, some 0, none⟩, ⟨5, 5, .rw, some 0, none⟩, ⟨4, 4, .rw, some 0, none⟩, ⟨1, 0, .rw, some 0, none⟩]⟩,
  ⟨0x1301004, 8, 0x800, 1, 0x0, [⟨31, 24, .rw, some 0, none⟩, ⟨23, 16, .rw, some 1, none⟩, ⟨14, 8, .rw, some 0, none⟩, ⟨6, 0, .rw, some 0, none⟩]⟩,
  ⟨0x1301008, 8, 0x800, 1, 0x0, [⟨28, 24, .rw, some 0, none⟩, ⟨20, 16, .rw, some 0, none⟩, ⟨11, 8, .rw, some 0, none⟩, ⟨3, 0, .rw, some 0, none⟩]⟩,
  ⟨0x130100c, 8, 0x800, 1, 0x0, [⟨30, 24, .ro, some 0, none⟩, ⟨22, 16, .rw, some 0, none⟩, ⟨6, 0, .rw, some 0, none⟩]⟩,
  ⟨0x1301010, 8, 0x800, 1, 0x0, [⟨31, 31, .w1c, some 0, none⟩, ⟨5, 5, .ro, some 0, none⟩, ⟨4, 4, .ro, some 0, none⟩, ⟨3, 2, .ro, some 0, none⟩, ⟨1, 0, .ro, some 0, none⟩]⟩,
  ⟨0x1301014, 8, 0x800, 1, 0x0, [⟨23, 16, .ro, some 0, none⟩, ⟨8, 0, .ro, some 0, none⟩]⟩,
  ⟨0x1301018, 8, 0x800, 1, 0x0, [⟨23, 16, .rw, some 96, none⟩, ⟨7, 0, .rw, some 96, none⟩]⟩,
  ⟨0x130101c, 8, 0x800, 1, 0x0, [⟨9, 9, .w1c, some 0, none⟩, ⟨8, 8, .w1c, some 0, none⟩, ⟨7, 7, .w1c, some 0, none⟩, ⟨6, 6, .w1c, some 0, none⟩, ⟨5, 5, .w1c, some 0, none⟩, ⟨4, 4, .w1c, some 0, none⟩, ⟨3, 3, .w1c, some 0, none⟩, ⟨1, 1, .w1c, some 0, none⟩, ⟨0, 0, .w1c, some 0, none⟩]⟩,
  ⟨0x1301020, 8, 0x800, 1, 0x0, [⟨9, 9, .rw, some 0, none⟩, ⟨8, 8, .rw, some 0, none⟩, ⟨7, 7, .rw, some 0, none⟩, ⟨6, 6, .rw, some 0, none⟩, ⟨5, 5, .rw, some 0, none⟩, ⟨4, 4, .rw, some 0, none⟩, ⟨3, 3, .rw, some 0, none⟩, ⟨1, 1, .rw, some 0, none⟩, ⟨0, 0, .rw, some 0, none⟩]⟩,
  ⟨0x1301024, 8, 0x800, 1, 0x0, [⟨29, 16, .rw, some 0, none⟩, ⟨13, 0, .rw, some 0, none⟩]⟩,
  ⟨0x1301028, 8, 0x800, 1, 0x0, [⟨13, 0, .rw, some 0, none⟩]⟩,
  ⟨0x1301030, 8, 0x800, 4, 0x4, [⟨31, 31, .rw, some 0, none⟩, ⟨13, 0, .rw, some 0, none⟩]⟩,
  ⟨0x1301040, 8, 0x800, 1, 0x0, [⟨15, 0, .rw, some 100, none⟩]⟩,
  ⟨0x1301044, 8, 0x800, 1, 0x0, [⟨23, 23, .wo, some 0, some 0⟩, ⟨22, 16, .wo, some 0, some 0⟩, ⟨15, 0, .wo, some 0, some 0⟩]⟩,
  ⟨0x1301048, 8, 0x800, 1, 0x0, [⟨31, 31, .rc, some 0, none⟩, ⟨23, 8, .ro, some 0, none⟩, ⟨1, 0, .ro, some 0, none⟩]⟩,
  ⟨0x130104c, 8, 0x800, 1, 0x0, [⟨31, 31, .wo, some 0, some 0⟩]⟩,
  ⟨0x1301050, 8, 0x800, 1, 0x0, [⟨31, 31, .rw, some 0, none⟩, ⟨23, 16, .rw, some 0, none⟩, ⟨2, 0, .rw, some 0, none⟩]⟩,
  ⟨0x1301054, 8, 0x800, 1, 0x0, [⟨3, 0, .ro, some 0, none⟩]⟩,
  ⟨0x1301060, 8, 0x800, 1, 0x0, [⟨31, 0, .ro, some 0, none⟩]⟩,
  ⟨0x1301064, 8, 0x800, 1, 0x0, [⟨31, 0, .ro, some 0, none⟩]⟩]

/-- Rows of the register map, part 7. -/
def regTable7 : List RegDesc := [
  ⟨0x1301068, 8, 0x800, 1, 0x0, [⟨31, 0, .ro, some 0, none⟩]⟩,
  ⟨0x130106c, 8, 0x800, 1, 0x0, [⟨31, 0, .ro, some 0, none⟩]⟩,
  ⟨0x1301070, 8, 0x800, 1, 0x0, [⟨31, 0, .ro, some 0, none⟩]⟩,
  ⟨0x1301074, 8, 0x800, 1, 0x0, [⟨31, 0, .ro, some 0, none⟩]⟩,
  ⟨0x1301100, 8, 0x800, 32, 0x8, [⟨31, 31, .rw, some 0, none⟩, ⟨30, 30, .rw, some 0, none⟩, ⟨28, 0, .rw, some 0, none⟩]⟩,
  ⟨0x1301104, 8, 0x800, 32, 0x8, [⟨28, 0, .rw, some 0, none⟩]⟩,
  ⟨0x1301200, 8, 0x800, 64, 0x8, [⟨31, 31, .rw, some 0, none⟩, ⟨30, 30, .rw, some 0, none⟩, ⟨13, 0, .rw, some 0, none⟩]⟩,
  ⟨0x1301204, 8, 0x800, 64, 0x8, [⟨31, 16, .rw, some 0, none⟩, ⟨15, 0, .rw, some 0, none⟩]⟩,
  ⟨0x1400000, 1, 0x0, 1, 0x0, [⟨31, 30, .wo, some 0, some 0⟩, ⟨23, 16, .wo, some 0, some 0⟩, ⟨11, 0, .wo, some 0, some 0⟩]⟩,
  ⟨0x1400004, 1, 0x0, 1, 0x0, [⟨31, 0, .rw, some 0, none⟩]⟩,
  ⟨0x1400008, 1, 0x0, 1, 0x0, [⟨21, 16, .rw, some 0, none⟩, ⟨9, 0, .rw, some 0, none⟩]⟩,
  ⟨0x140000c, 1, 0x0, 1, 0x0, [⟨31, 31, .rc, some 0, none⟩, ⟨15, 8, .ro, some 0, none⟩, ⟨3, 0, .ro, some 0, none⟩]⟩,
  ⟨0x1400010, 1, 0x0, 1, 0x0, [⟨11, 0, .rw, some 0, none⟩]⟩,
  ⟨0x1400014, 1, 0x0, 1, 0x0, [⟨31, 30, .ro, some 0, none⟩, ⟨29, 28, .ro, some 0, none⟩, ⟨14, 0, .ro, some 0, none⟩]⟩,
  ⟨0x1400018, 1, 0x0, 1, 0x0, [⟨7, 0, .ro, some 0, none⟩]⟩,
  ⟨0x1401000, 1, 0x0, 1, 0x0, [⟨31, 31, .rw, some 0, none⟩, ⟨30, 30, .wo, some 0, some 0⟩, ⟨29, 29, .ro, some 0, none⟩, ⟨15, 0, .rw, some 3600, none⟩]⟩,
  ⟨0x1401004, 1, 0x0, 1, 0x0, [⟨31, 0, .rw, some 0, none⟩]⟩,
  ⟨0x1401010, 16, 0x4, 1, 0x0, [⟨31, 29, .ro, some 0, none⟩, ⟨28, 28, .ro, some 0, none⟩, ⟨27, 0, .ro, some 0, none⟩]⟩,
  ⟨0x1401080, 32, 0x4, 1, 0x0, [⟨31, 31, .rw, some 0, none⟩, ⟨29, 24, .rw, some 0, none⟩, ⟨21, 16, .rw, some 0, none⟩, ⟨13, 0, .rw, some 0, none⟩]⟩,
  ⟨0x1401100, 1, 0x0, 1, 0x0, [⟨31, 0, .ro, some 0, none⟩]⟩,
  ⟨0x1401104, 1, 0x0, 1, 0x0, [⟨31, 0, .ro, some 0, none⟩]⟩]

/-- The whole register map. -/
def regTable : List RegDesc :=
  regTable0 ++ regTable1 ++ regTable2 ++ regTable3 ++ regTable4 ++ regTable5 ++ regTable6 ++ regTable7

/-- The epoch drawn from a free value: never 0 and never the one before (R550). -/
def drawEpoch (x prev : Nat) : Nat := let y := x % 65534 + 1; if prev = 0 || y < prev then y else y + 1

/-- FX_STATION as a power-on reset leaves it: the epoch the module draws is the first free value (R550; log entry 3). -/
def epochAtPower : Word := BitVec.ofNat 32 (drawEpoch (Config.freeValue 0).toNat 0 * 65536)

/-- Registers that are not 0 after a power-on reset (R25), part 0. -/
def regsAtPower0 : List (Nat × Word) := [
  (0xa00200, 0x8000000a#32),
  (0xa00300, 0x3e8#32),
  (0xb00200, 0x8000000a#32),
  (0xb00300, 0x3e8#32),
  (0xc00200, 0x8000000a#32),
  (0xc00300, 0x3e8#32),
  (0xd00200, 0x8000000a#32),
  (0xd00300, 0x3e8#32),
  (0xe00200, 0x8000000a#32),
  (0xe00300, 0x3e8#32),
  (0xf00200, 0x8000000a#32),
  (0xf00300, 0x3e8#32),
  (0x1000200, 0x8000000a#32),
  (0x1000300, 0x3e8#32),
  (0x1100200, 0x8000000a#32),
  (0x1100300, 0x3e8#32),
  (0x1200000, epochAtPower),
  (0x1200014, 0x40000000#32),
  (0x1200020, 0x410003e8#32),
  (0x1230020, 0x70#32),
  (0x1300008, 0x3e8#32),
  (0x1300108, 0x3e8#32),
  (0x1300208, 0x3e8#32),
  (0x1300308, 0x3e8#32),
  (0x1301004, 0x10000#32),
  (0x1301018, 0x600060#32),
  (0x1301040, 0x64#32),
  (0x1301804, 0x10000#32),
  (0x1301818, 0x600060#32),
  (0x1301840, 0x64#32),
  (0x1302004, 0x10000#32),
  (0x1302018, 0x600060#32),
  (0x1302040, 0x64#32),
  (0x1302804, 0x10000#32),
  (0x1302818, 0x600060#32),
  (0x1302840, 0x64#32),
  (0x1303004, 0x10000#32),
  (0x1303018, 0x600060#32),
  (0x1303040, 0x64#32),
  (0x1303804, 0x10000#32),
  (0x1303818, 0x600060#32),
  (0x1303840, 0x64#32),
  (0x1304004, 0x10000#32),
  (0x1304018, 0x600060#32),
  (0x1304040, 0x64#32),
  (0x1304804, 0x10000#32),
  (0x1304818, 0x600060#32),
  (0x1304840, 0x64#32),
  (0x1401000, 0xe10#32),
  (0x1500000, 0x4b100101#32),
  (0x1500134, 0x7d0#32),
  (0x1500244, 0x57e40000#32),
  (0x1500248, 0x57e40000#32),
  (0x150024c, 0x57e40000#32),
  (0x1500250, 0x57e40000#32),
  (0x1500254, 0x57e40000#32),
  (0x1500258, 0x57e40000#32),
  (0x150025c, 0x57e40000#32),
  (0x1500260, 0x57e40000#32),
  (0x1500600, 0x10#32)]

/-- Registers that are not 0 after a power-on reset (R25), part 1. -/
def regsAtPower1 : List (Nat × Word) := [
  (0x1500604, 0x10#32),
  (0x1500608, 0x10#32),
  (0x150060c, 0x10#32),
  (0x1500610, 0x10#32),
  (0x1500614, 0x10#32),
  (0x1500618, 0x10#32),
  (0x150061c, 0x10#32),
  (0x1500624, 0x1#32),
  (0x1500704, 0x5064064#32),
  (0x1500804, 0x1#32),
  (0x1500810, 0x1#32),
  (0x1500a00, 0x80000032#32),
  (0x1700000, 0x1f800#32),
  (0x1700004, 0x800#32)]

/-- The 64-bit counters of the islands by their _LO register (R686): first place, how many, stride. -/
def counterTable : List (Nat × Nat × Nat) := [
  (0x150013c, 1, 0x0),
  (0x1500410, 16, 0x20),
  (0x1500760, 1, 0x0),
  (0x1500768, 1, 0x0),
  (0x1500770, 1, 0x0),
  (0x1500778, 1, 0x0),
  (0x1500780, 1, 0x0),
  (0x1500808, 1, 0x0),
  (0x150082c, 1, 0x0),
  (0x1500834, 1, 0x0),
  (0x1500918, 1, 0x0),
  (0x1500a10, 1, 0x0),
  (0x1500a18, 1, 0x0),
  (0x1500a34, 1, 0x0),
  (0x1700024, 1, 0x0),
  (0x800008, 1, 0x0),
  (0x800020, 1, 0x0),
  (0x800038, 1, 0x0),
  (0x800040, 1, 0x0),
  (0x800048, 1, 0x0),
  (0x800060, 1, 0x0),
  (0x800804, 64, 0x10),
  (0xa0020c, 8, 0x100000),
  (0xa00214, 8, 0x100000),
  (0xa00308, 8, 0x100000),
  (0xa00310, 8, 0x100000),
  (0xa00334, 8, 0x100000),
  (0x1200100, 1, 0x0),
  (0x1200108, 1, 0x0),
  (0x1200110, 1, 0x0),
  (0x1200118, 1, 0x0),
  (0x1200120, 1, 0x0),
  (0x1200128, 1, 0x0),
  (0x1200130, 1, 0x0),
  (0x1200138, 1, 0x0),
  (0x1200140, 1, 0x0),
  (0x1300040, 4, 0x100),
  (0x1300048, 4, 0x100),
  (0x1301060, 8, 0x800),
  (0x1301068, 8, 0x800),
  (0x1301070, 8, 0x800),
  (0x1401100, 1, 0x0)]

/-- The register file after a power-on reset: every register of the map that is not listed is 0. -/
def regsAtPower : List (Nat × Word) :=
  regsAtPower0 ++ regsAtPower1

end Sys2Proof.Machine
end

