-- ==== Sys2Proof/Machine/Types.lean ====
section
/-!
DEFINITION. The parts of the machine as plain data: the program cores, and the chip around them (register file, pool,
and the state the spec gives each unit that no register shows).
-/

namespace Sys2Proof.Machine

/-! ## The pool and the paths between islands (01_architecture.md) -/

/-- One register access under way between two islands (R65 to R74); `ack` is the answer to an earlier write; `mute`: a core reset of its source has
come, and its acknowledgement or failure is discarded (R115). -/
structure Access where
  src   : Nat
  key   : Nat
  value : Word
  ack   : Bool
  mute  : Bool
  deriving DecidableEq, Repr

/-- A message in a ring: its bytes, whether it was marked poisoned (R52), the island that produced it, and the
register access it carries in rings 0 to 5 (R72). -/
structure Msg where
  bytes    : List Byte
  poisoned : Bool
  src      : Nat
  acc      : Option Access
  deriving DecidableEq, Repr

/-- One ring of the pool (R43, R44, R50, R58) with its drop counter and its published messages, oldest first. -/
structure Ring where
  resv  : Nat
  max   : Nat
  en    : Bool
  drop  : Bool
  prod  : Nat
  cons  : Nat
  drops : Nat
  queue : List Msg
  deriving DecidableEq, Repr

/-- A message its producer holds under WAIT, with the buffers already taken for it (R49, R50). -/
structure Held where
  ring : Nat
  got  : Nat
  msg  : Msg
  deriving DecidableEq, Repr

/-- The shared buffer pool: the rings that differ from an unused ring, the messages held, the buffers
allocated for responses to come by ring (R566), the buffers retired until
the next system reset and the single-bit errors corrected (R52), the message last handed to a consumer, and the messages that
a CAN controller will never offer, by ring and place in its queue (R630). -/
structure Pool where
  rings   : List (Nat × Ring)
  held    : List Held
  alloc   : List (Nat × Nat)
  retired : Nat
  fixed   : Nat
  lastOut : Option (Nat × Msg)
  voids   : List (Nat × Nat)
  deriving DecidableEq, Repr

/-- The answer an island got to its last register access (R17, R69, R71). -/
inductive Answer where
  | none
  | data (v : Word)
  | busError
  deriving DecidableEq, Repr

/-- An event on its way to MG (R714, R716): stream, severity, code, source island, data, fabric time and quality. -/
structure Event where
  stream : Nat
  sev    : Nat
  code   : Nat
  src    : Nat
  data   : List Byte
  ft     : Nat
  tq     : Nat
  deriving DecidableEq, Repr

/-! ## The program cores (03_zci32_instruction_set.md) -/

/-- The condition flags (R137, R141). -/
structure Flags where
  n : Bool
  z : Bool
  c : Bool
  v : Bool
  deriving DecidableEq, Repr

/-- Where an access of a core goes once the map and the regions have been applied (R144, R230, R231): DRAM at a
physical address, a byte of a core's input or output image front bank, a byte of the channel table in DRAM, an island
register, a fabric-window slot, a core-local register. -/
inductive Place where
  | dram   (a : Nat)
  | inImg  (o : Nat)
  | outImg (o : Nat)
  | ctab   (a : Nat)
  | reg    (k : Nat)
  | fabric (v : Nat)
  | loc    (o : Nat)
  deriving DecidableEq, Repr

/-- One entry of a store buffer: place, address as the core wrote it, bytes, data, and the bit a PIS bit write changes
(R179). -/
structure StoreEntry where
  place : Place
  vaddr : Word
  size  : Nat
  data  : Nat
  bit   : Option Nat
  deriving DecidableEq, Repr

/-- One hardware timer slot (R173, R174): remaining count, done, running, and the instant on the monotonic timebase from which its
ticks are still to be counted, at first that of its TSTART. -/
structure Slot where
  remaining : Nat
  done      : Bool
  running   : Bool
  since     : Nat
  deriving DecidableEq, Repr

/-- Where a load puts its data: a general register with or without sign extension, an F register, the frame of a RETFB
(R169), or an EDGE with its state byte at a place (R171). -/
inductive LoadTo where
  | w (r : Fin 32) (signExt : Bool)
  | f (r : Fin 32)
  | frame
  | edge (rd : Fin 32) (kind : Nat) (cur : Bool) (p : Place) (v : Word)
  deriving DecidableEq, Repr

/-- A load that waits for its response from the fabric (R578): its address, width, target and instruction length. -/
structure LoadWait where
  vaddr : Word
  size  : Nat
  dest  : LoadTo
  len   : Nat
  deriving DecidableEq, Repr

/-- Whether a core runs: held after a reset until MG releases it (R143), running, or halted by an exception within a
handler until the next core reset (R216, R218). -/
inductive RunState where
  | held | running | dead
  deriving DecidableEq, Repr

/-- One program core: the programmer's model (R137), the core-local registers, the store buffer (R198), the timer
slots (R173), whether it runs, a load waiting for the fabric, the stores into code that fetch
need not show yet (R194, R195), since when its clock has been stopped (R100), and whether the load at its program counter is in
a wait that OVLWAIT has counted (R203). -/
structure CoreSt where
  w       : Vector Word 32
  f       : Vector DWord 32
  flags   : Flags
  pc      : Word
  cstatus : Word
  epc     : Word
  ecause  : Word
  eaddr   : Word
  vbase   : Word
  fcsr    : Word
  tmrwin  : Word
  irgrant : Word
  stklim  : Word
  ovlwait : Nat
  ovlHi   : Word
  ovlStage : Word
  cycHi   : Word
  start   : Nat
  run     : RunState
  sb      : List StoreEntry
  timers  : List (Nat × Slot)
  wait    : Option LoadWait
  codeWr  : List (Word × Nat)
  stopped : Option Nat
  ovlSeen : Bool
  deriving DecidableEq, Repr

/-- A mapped region: virtual bounds and physical base (R227). -/
structure Region where
  vlo   : Nat
  vhi   : Nat
  pbase : Nat
  deriving DecidableEq, Repr

/-- A region write lock of the memory controller (R229, R766): first byte, length, and the task that holds it, or 16
for an image. -/
structure Lock where
  lo    : Nat
  len   : Nat
  owner : Nat
  deriving DecidableEq, Repr

/-- The image SRAM (R240): the front and back banks of all cores, byte o of core n at n × 2^18 + o. -/
structure Images where
  inF  : List (Nat × Byte)
  inB  : List (Nat × Byte)
  outF : List (Nat × Byte)
  outB : List (Nat × Byte)
  deriving DecidableEq, Repr

/-! ## Time (11_time.md) -/

/-- A mapping of monotonic time to fabric time (R586); `ft` in units of 2^-16 ns, `rate` in units of 2^-40. -/
structure Mapping where
  mono : Nat
  ft   : Nat
  rate : Int
  tq   : Nat
  deriving DecidableEq, Repr

/-! ## Channels and groups (06_analog_channels.md, 07_channel_table.md, 08_discrete_io_field_power.md) -/

/-- A sample of a channel: value word, measured value in 2^-32 of the range's unit, and conversion-end timestamp
(R352, R365). -/
structure Sample where
  value : Word
  meas  : Int
  stamp : Nat
  deriving DecidableEq, Repr

/-- A HART request waiting on its channel (R402, R404). -/
structure HartReq where
  cmd  : Nat
  tag  : Nat
  poll : Bool
  data : List Byte
  deriving DecidableEq, Repr

/-- A pending single load: the entry copied, its tag, whether it is safety-relevant, the instant of its check, and whether a triggered window was running then
(R426, R427, R429). -/
structure Load where
  entry    : List Byte
  tag      : Nat
  relevant : Bool
  since    : Nat
  busy     : Bool
  deriving DecidableEq, Repr

/-- A pending commit set (R435 to R441); `due` is the earliest start of the frame that applies it. -/
structure LoadSet where
  tag      : Nat
  immed    : Bool
  task     : Nat
  target   : Nat
  due      : Option Nat
  relevant : Bool
  entries  : List (Nat × List Byte)
  deriving DecidableEq, Repr

/-- The 1 ms ramp of a range change: its end, what the output drove at its start, and the last value written during
it (R128, R129). -/
structure Ramp where
  stop : Nat
  base : Int
  held : Option Word
  deriving DecidableEq, Repr

/-- Where a channel stands in the shadow rotation (R375). -/
inductive Rot where
  | idle | attach | calibrate | reattach | onShadow | shadowCal
  deriving DecidableEq, Repr

/-- One channel: the applied entry (empty: all zeros), the entry before it with the instant of the change (R430), the
pending load, the instant its front end has settled, the newest samples, the status it stores, its counters, its
windows and triggers, its converter with the instant its rotation phase began, its output, its digital filter, and whether its loop power is on. -/
structure Chan where
  entry    : List Byte
  prev     : List Byte
  since    : Nat
  pend     : Option Load
  readyAt  : Nat
  samples  : List Sample
  status   : Nat
  limHi    : Bool
  limLo    : Bool
  limHiS   : Bool
  limLoS   : Bool
  gen      : Nat
  res      : Nat
  wbseq    : Nat
  ovr      : Nat
  ign      : Nat
  cntOvf   : Nat
  hart     : List HartReq
  hartRsp  : Nat
  hartDev  : Nat
  window   : Option (Nat × Nat)
  queued   : Bool
  arrivals : List Nat
  lastArr  : Option Nat
  ended    : List Nat
  svcEnd   : Option Nat
  rot      : Rot
  rotAt    : Nat
  calAt    : Nat
  calGood  : Nat
  dacCor   : Int
  queue    : List (Nat × Word)
  want     : Option Word
  sent     : Option Word
  got      : Option Word
  term     : Option Word
  drive    : Int
  ramp     : Option Ramp
  rearm    : Bool
  cooled   : Bool
  filt     : Bool
  agree    : Nat
  lpwr     : Bool
  deriving DecidableEq, Repr

/-- One field group: its link (last frame started and last good frames each way, the timeout in force, the resume flag, de-energise frames
left to send and whether the present frame is one), its held SOE records, its shadow rotation, and whether the buffer of a field supply just
connected has still to charge (R828). -/
structure Grp where
  frame    : Option Nat
  goodDown : Option Nat
  goodUp   : Option Nat
  tmo      : Nat
  resume   : Bool
  resumed  : Bool
  deenLeft : Nat
  deen     : Bool
  soe      : List (List Byte)
  soeSeq   : Nat
  soeLost  : Bool
  round    : Option Nat
  todo     : List Nat
  nextLate : Bool
  lastStart : Option Nat
  filling  : Bool
  deriving DecidableEq, Repr

/-! ## The loop engine (05_loop_engine.md) -/

/-- One latched input: whether it is used, its mantissa, whether it is a channel with QUALITY 2 or 3, whether it counts
as good (R300), whether it brought no new sample, whether its conversion saturated. -/
structure InVal where
  used  : Bool
  x     : Int
  bad   : Bool
  good  : Bool
  stale : Bool
  sat   : Bool
  deriving DecidableEq, Repr

/-- A remote set-point that waits for its frame: value, instant (2^-16 ns of fabric time), QUAR, and whether its instant
had passed when it arrived; and whom its echo goes to: the outer stages and their modules (station + 4,096 × module), its own sender's first, then those of
the set-points that it has replaced (R331, R335, R337). -/
structure RemoteSp where
  mant : Int
  exp  : Int
  at_  : Nat
  quar : Bool
  late : Bool
  from_ : List (Nat × Nat)
  deriving DecidableEq, Repr

/-- A remote-fed stage: pending set-point, applied value and exponent, the one applied before it, instant of the last one applied, and the frame
that applied it, or in which the stage was enabled (R334 to R339). -/
structure Remote where
  pend    : Option RemoteSp
  applied : Option (Int × Int)
  before  : Option (Int × Int)
  lastAt  : Option Nat
  since   : Nat
  deriving DecidableEq, Repr

/-- The last echo an outer stage has had: mode and REFF of the inner stage, and the frame in which it came (R338). -/
structure Echo where
  mode  : Nat
  mant  : Int
  exp   : Int
  frame : Nat
  deriving DecidableEq, Repr

/-- A trace tap while a capture runs: evaluations until the next entry, entries left after the trigger, whether it has
stopped, the node's previous value, and the frames of its entries, oldest first (R345, R346). -/
structure Tap where
  skip    : Nat
  left    : Option Nat
  stopped : Bool
  prev    : Option Int
  frames  : List Nat
  deriving DecidableEq, Repr

/-- A pending update set: tag, target (low 32 bits of a frame number, none for the next frame), records by stage. -/
structure UpdSet where
  tag    : Nat
  target : Option Nat
  recs   : List (Nat × List Word)
  deriving DecidableEq, Repr

/-- The engine beside its registers and memories: the epoch while it runs, stages due in the present frame and not yet
evaluated, outputs as they were before this frame, latched inputs, the values and stamps of the last evaluation, stages
whose next evaluation is their first, stages whose last evaluation had a bad input, what waits for the next frame, what
comes from the fabric, stages a model fault forces to MANUAL at their next evaluation and those it has forced, and the taps; the instants of this frame's
evaluations (R308), the MODE of each stage's last evaluation (R316), the MODEL1 stages that have declared a fault since their CNT was last 0 (R343), and the
ring that the last capture streams to (R347). -/
structure Loop where
  epoch    : Option Nat
  frame    : Nat
  due      : List Nat
  outPrev  : List (Nat × Int)
  ins      : List (Nat × List InVal)
  last     : List (Nat × List (Int × Nat))
  firsts   : List Nat
  bad      : List Nat
  upd      : Option UpdSet
  disables : List Nat
  remotes  : List (Nat × Remote)
  echoes   : List (Nat × Echo)
  forced   : List Nat
  kept     : List Nat
  taps     : List (Nat × Tap)
  evals    : List (Nat × Nat)
  modes    : List (Nat × Nat)
  declared : List Nat
  stream   : Nat
  deriving DecidableEq, Repr

/-! ## The mode controller, the key and logic power (02_modes_reset_power.md) -/

/-- What a request of precedence 4 or 5 asks for: a mode from the host or from the pair partner, or a power state (R62). -/
inductive ReqKind where
  | host (mode : Nat)
  | partner (mode : Nat)
  | power (island state : Nat)
  deriving DecidableEq, Repr

/-- A pending request and its TAG. -/
structure ModeReq where
  kind : ReqKind
  tag  : Nat
  deriving DecidableEq, Repr

/-- The transition the mode controller carries out: a mode to enter, or the power state of an island; the TAG of the
host request behind it; the islands that have not acknowledged; its start; and whether an island is on its way back to
ON (R60, R63, R848). -/
structure Trans where
  goal    : Nat
  island  : Option Nat
  tag     : Option Nat
  waiting : List Nat
  since   : Nat
  back    : Bool
  deriving DecidableEq, Repr

/-- The mode controller beside its registers: pending requests by precedence (R61, R62), the transition in progress, the islands a FLUSH profile has
still to set (R106), whether a fatal fault befell BOOT (R850), whether the next start is warm
whatever COLD reads (R262), the target and the start of the block reset in progress (R132), and when the last transition completed or failed (R789). -/
structure ModeCtl where
  queue    : List ModeReq
  flush    : Bool
  fatal    : Bool
  key      : Option Nat
  trans    : Option Trans
  flushing : Option (List Nat)
  bootSafe : Bool
  warm     : Bool
  blk      : Option (Nat × Nat)
  doneAt   : Nat
  deriving DecidableEq, Repr

/-- The key switch: since when its pattern has stood, since when it has been unexplained, when the last valid position's
pattern ended, and whether a valid position has been in force (R89 to R93). -/
structure Key where
  since   : Nat
  odd     : Option Nat
  ended   : Option Nat
  valid   : Bool
  deriving DecidableEq, Repr

/-- Logic power and resets: internal reset has risen, since when both inputs are low, whether the power-up was abandoned and waits for an input
at 18 V (R846), the declared failure's start, whether the profile has executed in it, whether the store carries
the load, each input's lost flag, a reset in progress (1 power-on, 2 system) with its start, whether the bank's disconnect switch is
open, the instant at which RST_N is high again, and when the last core reset acted (R104 to R110, R113, R118, R119, R819, R824, R847). -/
structure Power where
  risen    : Bool
  lowAt    : Option Nat
  dropped  : Bool
  failAt   : Option Nat
  ran      : Bool
  onStore  : Bool
  lostA    : Bool
  lostB    : Bool
  reset    : Option (Nat × Nat)
  bankOpen : Bool
  rstHigh  : Nat
  coreAt   : Option Nat
  deriving DecidableEq, Repr

/-! ## The cycle unit and the exchange (04_cyclic_execution.md) -/

/-- A task in the present run: the number and instant of its next boundary, its last boundary with the fabric time
recorded there, the number and deadline of a released cycle that has not ended, whether its release is held for patch
sets, its period in ns, its mirror snapshot until it is streamed, and for each input item's source the stamp last taken and its age in boundaries. -/
structure TaskRun where
  num   : Nat
  next  : Nat
  last  : Nat
  ft    : Nat
  cycle : Nat
  dead  : Option Nat
  held  : Bool
  every : Nat
  snap  : Option (List Byte)
  seen  : List (Nat × Nat × Nat)
  deriving DecidableEq, Repr

/-- A pending patch set (R269 to R276). -/
structure PatchSet where
  task   : Nat
  tag    : Nat
  addr   : Nat
  count  : Nat
  target : Nat
  due    : Bool
  deriving DecidableEq, Repr

/-- The cycle unit beside its registers: the epoch while tasks run, the tasks of the run, released cycles in order of
release, the current task of each core (plus one), pending patch sets, the sets a core reset interrupted, the frames received
of each remote module by task, the output message of each remote module: unsent (with the core whose image it is from), last built, and how many were
replaced; and the instant of the last start (R243). -/
structure Cyc where
  epoch    : Option Nat
  tasks    : List (Nat × TaskRun)
  ready    : List Nat
  cur      : List (Nat × Nat)
  patches  : List PatchSet
  broken   : List PatchSet
  rx       : List (Nat × Nat)
  unsent   : List (Nat × Nat × List Byte)
  built    : List (Nat × List Byte)
  replaced : List (Nat × Nat)
  startAt  : Nat
  deriving DecidableEq, Repr

/-! ## Redundancy (13_redundancy_double_reed.md) -/

/-- A channel of the partner as this module knows it: samples (converted stamp and value word), newest first, and its
quality (R651). -/
structure PeerChan where
  samples : List (Nat × Word)
  quality : Nat
  deriving DecidableEq, Repr

/-- What is known of a neighbour: mode, role, READY, PREFACT, the highest cycle each task has completed, the slice mismatches and
FAILED results it has recorded, CLASS major and MIRRFMT, MG_APPHASH and TP_CFGHASH, the uncorrectable errors and POISON exceptions it has had (R671), the stages it has enabled with
REMOTE_SP (R653), the last heartbeat, and its SERIAL. -/
structure Peer where
  mode    : Nat
  role    : Nat
  ready   : Bool
  prefact : Bool
  done    : List (Nat × Nat)
  faults  : Nat
  cls     : Nat
  mirr    : Nat
  app     : List Word
  cfg     : List Word
  errors  : Nat
  remotes : List Nat
  hb      : Option Nat
  serial  : Option Nat
  deriving DecidableEq, Repr

/-- Redundancy beside its registers: the counterpart and the partner, the partner's channels and whether it is lost, cycles matched in a
row by task, whether a forwarded change had another result here (R658), whether resynchronisation is complete, evidence of a fault in each unit since the last matched cycle and the slice
mismatches and FAILED results recorded here (R792), the uncorrectable errors and POISON exceptions (R671), the channels of mismatches that the referee has not decided, the handover this unit asks for
(1 TAKEOVER, 2 role swap, 3 power failure), a crossfade agreed with its instant, whether this unit is the new one and why, when ACTO_N was
driven and is to be driven again for R656, the start of the present role and of the wait of R681, the last heartbeat and stage mirror sent, the active unit's channel words and since when one has
differed, its last items by task, and its sequence counters. -/
structure Red where
  peer     : Peer
  partner  : Peer
  chans    : List (Nat × PeerChan)
  lost     : Bool
  matched  : List (Nat × Nat)
  differs  : Bool
  resync   : Bool
  evActive : Bool
  evOwn    : Bool
  faults   : Nat
  errors   : Nat
  fight    : Option (List Nat)
  want     : Nat
  xAt      : Option Nat
  taking   : Bool
  why      : Nat
  droveAt  : Option Nat
  retryAt  : Option Nat
  swapFrom : Nat
  swapWait : Nat
  hbSent   : Option Nat
  mirSent  : Option Nat
  mirror   : List (Nat × Word)
  diffs    : List (Nat × Nat)
  items    : List (Nat × List (Nat × Word))
  seqs     : List (Nat × Nat)
  deriving DecidableEq, Repr

/-! ## The trip matrix (09_safety_trip_matrix.md) -/

/-- A proof test of a pair: its step (0 copy A's gap, 1 the wait, 2 copy B's gap) and the step's start (R520). -/
structure Proof where
  step : Nat
  at_  : Nat
  deriving DecidableEq, Repr

/-- TM and the safety lanes beside the registers; states are masks by signal code (R507), by pair or by channel. The
raw comparator states with the instants of their last change, those past CMPFILT, those TM has received; comparator
faults at the field side; the permits of each copy and the gaps of proof tests; tests in progress and the last one of each
pair; for lane 2g + l the last good frame up and down and the start of unbroken good frames up; lane-failed groups; the
last evaluation; pairs named for reset; since when the switch contacts stand. -/
structure Trip where
  raw      : Nat
  rawAt    : List (Nat × Nat)
  reached  : Nat
  sig      : Nat
  faults   : Nat
  outA     : Nat
  outB     : Nat
  gapA     : Nat
  gapB     : Nat
  proofs   : List (Nat × Proof)
  proved   : List (Nat × Nat)
  upAt     : List (Nat × Nat)
  upFrom   : List (Nat × Nat)
  downAt   : List (Nat × Nat)
  failed   : List Nat
  evalAt   : Nat
  rst      : Nat
  swAt     : Nat
  deriving DecidableEq, Repr

/-! ## The fabric (10_apnum_fabric.md) -/

/-- A packet kept until the neighbour acknowledges it: its link sequence number, and whether it was ended with KILL
(R541, R545). -/
structure SentPkt where
  num    : Nat
  pkt    : Packet
  killed : Bool
  deriving DecidableEq, Repr

/-- A port of the switch: link sequence numbers sent and accepted, packets not acknowledged, replays that failed in a row
and their first negative acknowledgement, and when it last tried to train (R535, R545 to R547). -/
structure LinkPort where
  sentNum : Nat
  accNum  : Nat
  unacked : List SentPkt
  fails   : Nat
  nackAt  : Option Nat
  triedAt : Option Nat
  deriving DecidableEq, Repr

/-- An outstanding transaction (R567, R572 to R575): tag, source ring, response ring and context of its request, first issue,
deadline, timeout, retries sent, the packet, and for a window access its core, address, width and whether it is a load. -/
structure Transn where
  tag      : Nat
  ring     : Nat
  rring    : Nat
  ctx      : Nat
  issued   : Nat
  deadline : Nat
  tmo      : Nat
  tries    : Nat
  pkt      : Packet
  win      : Option (Nat × Word × Nat × Bool)
  bufs     : Nat
  deriving DecidableEq, Repr

/-- The latest JOIN of one module of a station (R551, R553, R644). -/
structure JoinRec where
  at_     : Nat
  serial  : Nat
  role    : Nat
  mode    : Nat
  epoch   : Nat
  hash    : Nat
  cls     : Nat
  mirr    : Nat
  quar    : Bool
  lost    : Bool
  deriving DecidableEq, Repr

/-- An export (R579). -/
structure Export where
  fbase : Nat
  size  : Nat
  lbase : Nat
  perm  : Nat
  smin  : Nat
  smax  : Nat
  deriving DecidableEq, Repr

/-- FX beside its registers: ports; the last JOIN's number and instant, and whether one is due; the last SEQ of each source
ring; outstanding transactions; how each tag's last transaction completed (its SEQ, and whether by TIMEOUT); (SRC, ring, SEQ)
triples flooded; the packets being passed on whose tail has not come, with the ports they came in and leave by (R540);
replay windows; the JOINs known by station; since when each station is ABSENT; exports; and since
when the deviation is within 1 µs (R552). -/
structure Fabric where
  ports    : List (Nat × LinkPort)
  joinNum  : Nat
  joinAt   : Option Nat
  joinDue  : Bool
  lastSeq  : List (Nat × Nat)
  trans    : List Transn
  done     : List (Nat × Nat × Bool)
  flooded  : List (Nat × Nat × Nat)
  passing  : List (Nat × Nat × Packet)
  windows  : List Window
  joins    : List (Nat × List JoinRec)
  absent   : List (Nat × Nat)
  exports  : List Export
  within   : Option Nat
  deriving DecidableEq, Repr

/-! ## The time unit and the Ethernet ports (11_time.md) -/

/-- What a port has heard of a grandmaster: its ID, class, priority, SERIAL, step count and hops, and when (R589 to R591). -/
structure Heard where
  port   : Nat
  id     : Nat
  cls    : Nat
  prio   : Nat
  serial : Nat
  steps  : Nat
  hops   : Nat
  at_    : Nat
  deriving DecidableEq, Repr

/-- The time unit beside its registers: the RATE and the step of the mapping to be published and whether one is; what
ANNOUNCEs said, by port and grandmaster; the grandmaster elected; when one better than this station's own was last
heard; the last SYNC of each port; the last good SYNC; the last RATE change; fabric time of each port's open DREQ;
the last path delays of each port (2^-16 ns); the RATE measured while LOCKED, in parts of (ns, RATE), newest first; since when HOLDOVER;
whether the station has been in class 0; the last ANNOUNCE's number; the last ANNOUNCE, SYNC and DREQ sent; the next instance of each schedule; and
the firings still to come, each with its schedule, its CGMASK and its instant (R586 to R608). -/
structure TimeUnit where
  rate     : Int
  step     : Int
  dirty    : Bool
  heard    : List Heard
  gm       : Option Heard
  betterAt : Nat
  syncAt   : List (Nat × Nat)
  goodAt   : Option Nat
  rateAt   : Nat
  dreqs    : List (Nat × Nat)
  delays   : List (Nat × List Int)
  locked   : List (Nat × Int)
  holdAt   : Option Nat
  wasExt   : Bool
  annNum   : Nat
  annAt    : Option Nat
  sentAt   : Option Nat
  askedAt  : Option Nat
  scheds   : List (Nat × Nat)
  fired    : List (Nat × Nat × Nat)
  deriving DecidableEq, Repr

/-- A PTP master heard on an Ethernet port: its data set in the order of comparison, its grandmaster's identity, when it was last heard,
and its announce timeout (R600, R602). -/
structure PtpMaster where
  rank : List Nat
  gm   : Nat
  at_  : Nat
  life : Nat
  deriving DecidableEq, Repr

/-- An Ethernet port beside its registers: the PTP master heard, the mean path delay and the offsets of the last 2 s (2^-16 ns),
since when offsets have been taken, and until when the port transmits. -/
structure EthPort where
  master  : Option PtpMaster
  delay   : Int
  offsets : List (Nat × Int)
  from_   : Option Nat
  busy    : Nat
  deriving DecidableEq, Repr

/-! ## The CAN controllers (12_can_fd.md) -/

/-- A message a slot has taken: slot, instant, message, and whether it is a repetition (R633). -/
structure SlotMsg where
  slot : Nat
  at_  : Nat
  msg  : List Byte
  again : Bool
  deriving DecidableEq, Repr

/-- A basic cycle under way: its firing's instant, its number, and the slots whose instant has been served (R632). -/
structure BasicCycle where
  at_  : Nat
  num  : Nat
  done : List Nat
  deriving DecidableEq, Repr

/-- A CAN controller beside its registers: whether MODE has still to take effect, the attempt on the bus (queue, or 0x40 + slot, as R629 codes
it, its message and its SOF), whether the recovery sequence runs, the launch instants that have come by queue, firings
received (schedule, instance, instant), basic cycles, slot messages that are candidates, the last message each slot
took, and whether a block reset has asked it to stop offering (R637). -/
structure Can where
  moving   : Bool
  attempt  : Option (Nat × List Byte × Nat)
  recover  : Bool
  launched : List (Nat × Nat)
  firings  : List (Nat × Nat × Nat)
  cycles   : List BasicCycle
  slots    : List SlotMsg
  last     : List (Nat × List Byte)
  stopped  : Bool
  deriving DecidableEq, Repr

/-! ## Storage, recorder and historian (14_storage_recorder_historian.md) -/

/-- A page of the internal flash: as delivered, erased, programmed (bytes that are not 0, by place), or programmed but
undefined (R710). -/
inductive PageData where
  | factory | erased
  | bytes (cells : List (Nat × Byte))
  | open_
  deriving DecidableEq, Repr

/-- A logical unit: the physical unit it has been moved to, whether it is unmapped, the latest markers' counts, and
whether its erase is in progress (R697 to R702). -/
structure UnitRec where
  moved     : Option Nat
  gone      : Bool
  started   : Nat
  completed : Nat
  erasing   : Bool
  deriving DecidableEq, Repr

/-- A flash request: requester, operation (0 read, 1 program, 2 erase), TAG where the outcome is reported, unit, pages,
DRAM address, whether it has been admitted, and when it was last deferred (R694, R695, R708). -/
structure FlashReq where
  src      : Nat
  op       : Nat
  tag      : Option Nat
  unit     : Nat
  first    : Nat
  count    : Nat
  addr     : Nat
  admitted : Bool
  deferAt  : Option Nat
  deriving DecidableEq, Repr

/-- The internal flash: pages (unit × 1,024 + page), logical units, spare physical units, and the queue of each bank. -/
structure Flash where
  pages  : List (Nat × PageData)
  units  : List (Nat × UnitRec)
  spares : List Nat
  queues : List (Nat × List FlashReq)
  deriving DecidableEq, Repr

/-- An event record (R711). -/
structure EvRec where
  seq    : Nat
  stream : Nat
  sev    : Nat
  code   : Nat
  opms   : Nat
  pwr    : Nat
  rep    : Nat
  tq     : Nat
  flags  : Nat
  first  : Nat
  last   : Nat
  src    : Nat
  data   : List Byte
  deriving DecidableEq, Repr

/-- An entry of the alarm list (R808). -/
structure Alarm where
  rec_  : EvRec
  acked : Bool
  deriving DecidableEq, Repr

/-- The recorder: the volatile buffer and the log, oldest first; capacities and lost counts by stream; streams whose next accepted
record carries LOSTBEFORE; OPMS, PWRCYC and SEQ as stored, and when; the OPMS count at its last start and that start;
the alarm list, oldest first (R713 to R729, R808). -/
structure Recorder where
  buf     : List EvRec
  log     : List EvRec
  caps    : List (Nat × Nat)
  lost    : List (Nat × Nat)
  gaps    : List Nat
  stored  : Nat × Nat × Nat
  storeAt : Nat
  opms    : Nat
  opmsAt  : Nat
  alarms  : List Alarm
  deriving DecidableEq, Repr

/-- An NVMe command the historian waits for: a Flush before a segment's entry is written, an entry written with FUA, an entry
written free, a deallocation, the Flush of a power failure (R736, R738, R741). -/
inductive NvmeOp where
  | flush (seg : Nat) | entry (seg : Nat) | free (seg : Nat) | dealloc (seg : Nat) | sync
  deriving DecidableEq, Repr

/-- How a backplane output stands: with a weak pull-up only, low or high (R126). -/
inductive Drive where
  | highZ | low | high
  deriving DecidableEq, Repr

/-- A mounted volume: segment count, identity, generation, next file and seal sequence, segments in use, and the NVMe
commands outstanding, oldest first (R732, R733). -/
structure Volume where
  count : Nat
  ident : List Byte
  gen   : Nat
  fseq  : Nat
  order : Nat
  segs  : List HSeg
  ops   : List NvmeOp
  deriving DecidableEq, Repr

/-- A shelf (R739). -/
structure Shelf where
  mask : Nat
  mode : Nat
  max  : Nat
  age  : Nat
  deriving DecidableEq, Repr

/-- The historian: volumes by namespace, the LBAs of the namespaces found, the shelf table loaded, and whether a power failure has
closed it (R738). -/
structure Historian where
  vols    : List (Nat × Volume)
  sizes   : List (Nat × Nat)
  shelves : List Shelf
  closed  : Bool
  portUp0 : Bool
  portUp1 : Bool
  deriving DecidableEq, Repr

/-! ## Keys, boot and update (15_security_update.md) -/

/-- The anchor store's changing parts: key slots, logs of words with their valid bits, the attempt count, and the anti-rollback count (R743,
R744, R779). -/
structure Anchor where
  slotA    : List Byte
  slotB    : List Byte
  keyLog   : List (Word × Bool)
  bootLog  : List (Word × Bool)
  attempts : Nat
  fuses    : Nat
  deriving DecidableEq, Repr

/-- The highest COUNTER a key has used in this epoch, with the response (R761). -/
structure KeyUse where
  key      : Nat
  counter  : Nat
  response : List Byte
  deriving DecidableEq, Repr

/-- An update in progress: 0 main image or 1 package, the first unit of its target, the end of the body bytes received, and the bytes of
the image that fill no page yet (R778). -/
structure Update where
  kind : Nat
  unit : Nat
  next : Nat
  tail : List Byte
  deriving DecidableEq, Repr

/-- Security beside its registers: the anchor store, counters, an update, the parts of a key set received, a command that waits for the
Breath check (path and since when), the trial armed (bit 0 MAIN, bit 1 CHFW), whether a verified main image awaits a trial, the staged
package's pending mark, the headers of the running main image and channel package, the running recovery section (0 A, 1 B), whether the
migrated area has been stored, and whether test access is open. -/
structure Security where
  anchor   : Anchor
  used     : List KeyUse
  upd      : Option Update
  stage    : Option (List Byte)
  keyWait  : Option (Nat × Nat)
  trial    : Nat
  cand     : Bool
  mark     : Bool
  image    : List Byte
  package  : List Byte
  recSect  : Option Nat
  migSaved : Bool
  testOpen : Bool
  deriving DecidableEq, Repr

/-! ## Self-test and the service port (16_self_test_service.md) -/

/-- Self-test: slices matched in the present pass and the last completed pass by test; tests that repeat a slice; tests whose slice has been run and not compared; by test
island the boundary, frame or instant that its allowance counts from, and the µs of slices since; when a FATAL failure asked for SAFE-HOLD; the instant of the last hold-up
measurement, the capacitance it gave and the one stored with OPMS; the last crack-loop check (R784 to R797). -/
structure SelfTest where
  done     : List (Nat × Nat)
  passAt   : List (Nat × Nat)
  again    : List Nat
  granted  : List Nat
  spent    : List (Nat × Nat × Nat)
  failAt   : Option Nat
  huAt     : Option Nat
  cap      : Option Nat
  capSaved : Option Nat
  crackAt  : Option Nat
  deriving DecidableEq, Repr

/-- The Mouthpiece: the last instant at which it was blind (the last saturation while BLIND is set, else the re-arming), the last good
frame, the last request executed (SEQ, service) with its response, the response that has not started with the instant at which it
starts, and the instant until which the last one is sent (R803, R805). -/
structure Mouth where
  satAt  : Option Nat
  goodAt : Option Nat
  last   : Option (Nat × Nat × List Byte)
  reply  : Option (Nat × List Byte)
  sendTo : Nat
  deriving DecidableEq, Repr

/-- A configuration area of the internal flash: its format version and what it stores, by place (R776). -/
structure CfgArea where
  fmt   : Nat
  words : List (Nat × Word)
  deriving DecidableEq, Repr

/-! ## The chip -/

/-- Everything of the module but the program cores, DRAM and the queue; `recWanted`: the recorder has been asked to flush; `sent`: the
message last sent on each of the module's links; `permA`, `permB`: the permits as the field sides hold them, by pair;
`toStore`: what waits to be stored in the configuration block (R528, R849), `storeDef` when that store was last deferred; `area0` and
`area1`: the configuration areas (R776); `energy`: the hold-up energy in 0.1 mJ (R706); `eff`: the registers a write of which takes effect
at the next system reset, as they were at the last one. -/
structure Chip where
  now      : Nat
  monoBase : Nat
  freeCtr  : Nat
  regs     : List (Nat × Word)
  pool     : Pool
  inflight : List Access
  acks     : List (Nat × Nat)
  answers  : List (Nat × Answer)
  events   : List Event
  maps     : List Mapping
  locks    : List Lock
  xmap     : List Region
  entry    : Word
  badMem   : List Nat
  dispatchIrq : List Nat
  doorbellIrq : List Nat
  impErrs  : List (Nat × Word)
  litOpen  : List Nat
  img      : Images
  chans    : List (Nat × Chan)
  sets     : List LoadSet
  grps     : List (Nat × Grp)
  loop     : Loop
  permA    : Nat
  permB    : Nat
  ctl      : ModeCtl
  key      : Key
  power    : Power
  cyc      : Cyc
  recWanted : Bool
  sent     : List (Nat × List Byte)
  red      : Red
  trip     : Trip
  fab      : Fabric
  time     : TimeUnit
  eths     : List (Nat × EthPort)
  cans     : List (Nat × Can)
  flash    : Flash
  recorder : Recorder
  hist     : Historian
  sec      : Security
  test     : SelfTest
  mouth    : Mouth
  energy   : Nat
  area0    : CfgArea
  area1    : CfgArea
  eff      : List (Nat × Word)
  toStore  : List Nat
  storeDef : Option Nat
  deriving DecidableEq, Repr

end Sys2Proof.Machine
end

