-- ==== Sys2Proof/Machine/AtReset.lean ====
section
/-!
DEFINITION. What each part of the machine holds right after a power-on reset, beside the registers' own values (R118,
R140, R844; log entries 1 and 2). The state a unit goes back to at a later reset is the same value.
-/

namespace Sys2Proof.Machine

/-- A program core after any reset: held until MG releases it (R143), at level X, its registers as the core-local tables
say; W1 to W31, F0 to F31, the flags, EPC, EADDR and VBASE have no defined value (R140) and are 0 (log entry 1). -/
def CoreSt.atReset : CoreSt :=
  { w := Vector.replicate 32 0#32, f := Vector.replicate 32 0#64, flags := ⟨false, false, false, false⟩, pc := 0#32
    cstatus := 0x5#32, epc := 0#32, ecause := 0#32, eaddr := 0#32, vbase := 0#32, fcsr := 0#32, tmrwin := 0#32
    irgrant := 0#32, stklim := 0#32, ovlwait := 0, ovlHi := 0#32, ovlStage := 0#32, cycHi := 0#32, start := 0, run := .held
    sb := [], timers := [], wait := none, codeWr := [], stopped := none, ovlSeen := false }

/-- A channel after a power-on or system reset (R434). -/
def Chan.unused : Chan :=
  { entry := [], prev := [], since := 0, pend := none, readyAt := 0, samples := [], status := 0, limHi := false
    limLo := false, limHiS := false, limLoS := false, gen := 0, res := 0, wbseq := 0, ovr := 0, ign := 0, cntOvf := 0
    hart := [], hartRsp := 0, hartDev := 0, window := none, queued := false, arrivals := []
    lastArr := none, ended := [], svcEnd := none, rot := .idle, rotAt := 0, calAt := 0, calGood := 0, dacCor := 0, queue := [], want := none
    sent := none, got := none, term := none, drive := 0, ramp := none, rearm := false, cooled := false, filt := false
    agree := 0, lpwr := false }

/-- A group after a power-on or system reset. -/
def Grp.unused : Grp := ⟨none, none, none, 1000, false, false, 0, false, [], 0, false, none, [], false, none, false⟩

/-- A port after a reset. -/
def LinkPort.down : LinkPort := ⟨0, 0, [], 0, none, none⟩

/-- FX after a power-on or system reset. -/
def Fabric.reset : Fabric := ⟨[], 0, none, false, [], [], [], [], [], [], [], [], [], none⟩

/-- TM before anything has happened. -/
def Trip.idle : Trip := ⟨0, [], 0, 0, 0, 0, 0, 0, 0, [], [], [], [], [], [], 0, 0, 0⟩

/-- The pool after a power-on or system reset: nothing configured, nothing held (R44, R55). -/
def Pool.empty : Pool := ⟨[], [], [], 0, 0, none, []⟩

/-- The loop engine's working state after a reset. -/
def Loop.atReset : Loop := ⟨none, 0, [], [], [], [], [], [], none, [], [], [], [], [], [], [], [], [], 0⟩

/-- The mode controller after a reset. -/
def ModeCtl.atReset : ModeCtl := ⟨[], false, false, none, none, none, false, false, none, 0⟩

/-- The key switch before it has been read. -/
def Key.atReset : Key := ⟨0, none, none, false⟩

/-- Logic power at a power-on reset: internal reset is held and has not risen (R118). -/
def Power.atReset : Power := ⟨false, none, false, none, false, false, false, false, some (1, 0), false, 0, none⟩

/-- The cycle unit after a reset. -/
def Cyc.atReset : Cyc := ⟨none, [], [], [], [], [], [], [], [], [], 0⟩

/-- A neighbour nothing is known of. -/
def Peer.unknown : Peer := ⟨0, 0, false, false, [], 0, 0, 0, [], [], 0, [], none, none⟩

/-- Redundancy after a reset. -/
def Red.atReset : Red :=
  { peer := .unknown, partner := .unknown, chans := [], lost := false, matched := [], differs := false, resync := false, evActive := false
    evOwn := false, faults := 0, errors := 0, fight := none, want := 0, xAt := none, taking := false, why := 0, droveAt := none, retryAt := none
    swapFrom := 0, swapWait := 0, hbSent := none, mirSent := none, mirror := [], diffs := [], items := [], seqs := [] }

/-- The time unit after a reset: nothing heard, no mapping to publish (R584). -/
def TimeUnit.atReset : TimeUnit :=
  { rate := 0, step := 0, dirty := false, heard := [], gm := none, betterAt := 0, syncAt := [], goodAt := none, rateAt := 0
    dreqs := [], delays := [], locked := [], holdAt := none, wasExt := false, annNum := 0, annAt := none, sentAt := none, askedAt := none
    scheds := [], fired := [] }

/-- An Ethernet port after a reset. -/
def EthPort.idle : EthPort := ⟨none, 0, [], none, 0⟩

/-- A CAN controller after a reset: in CONFIG (R616). -/
def Can.idle : Can := ⟨false, none, false, [], [], [], [], [], false⟩

/-- A logical unit as delivered (log entry 67). -/
def UnitRec.fresh : UnitRec := ⟨none, false, 0, 0, false⟩

/-- The internal flash as delivered: 128 spare units (BT_SPARES; log entry 66). -/
def Flash.factory : Flash := ⟨[], [], (List.range 128).map (3968 + ·), []⟩

/-- The recorder of a module with no history (EV_NEXTSEQ, R713). -/
def Recorder.factory : Recorder := ⟨[], [], [], [], [], (0, 0, 0), 0, 0, 0, []⟩

/-- The historian after a reset. -/
def Historian.atReset : Historian := ⟨[], [], [], false, false, false⟩

/-- Keys and boot as delivered: both key slots erased and both logs empty (R751, R768), no fuse blown (log entry 66). -/
def Security.factory : Security :=
  { anchor := ⟨[], [], [], [], 0, 0⟩, used := [], upd := none, stage := none, keyWait := none, trial := 0, cand := false, mark := false
    image := [], package := [], recSect := none, migSaved := false, testOpen := false }

/-- Self-test after a power-on reset. -/
def SelfTest.atReset : SelfTest := ⟨[], [], [], [], [], none, none, none, none, none⟩

/-- The Mouthpiece after a reset. -/
def Mouth.atReset : Mouth := ⟨none, none, none, none, 0⟩

/-- The image SRAM with nothing written. -/
def Images.empty : Images := ⟨[], [], [], []⟩

/-- The configuration area as delivered: HBLOSS and SWAPH at their defaults, STEPLIM at its lowest value, everything else 0 (log entry
71). -/
def CfgArea.factory : CfgArea := ⟨Config.factoryFmt, [(0x123002C, 1#32), (0x1500700, 0x1803E8#32)]⟩

/-- The chip right after a power-on reset: the register file as its tables give it, everything else at rest. -/
def Chip.atPower : Chip :=
  { now := 0, monoBase := 0, freeCtr := 1, regs := regsAtPower, pool := .empty, inflight := [], acks := [], answers := []
    events := [], maps := [], locks := [], xmap := [], entry := 0#32, badMem := [], dispatchIrq := [], doorbellIrq := []
    impErrs := [], litOpen := [], img := .empty, chans := [], sets := [], grps := [], loop := .atReset, permA := 0
    permB := 0, ctl := .atReset, key := .atReset, power := .atReset, cyc := .atReset, recWanted := false, sent := []
    red := .atReset, trip := .idle, fab := .reset, time := .atReset, eths := [], cans := []
    flash := .factory, recorder := .factory, hist := .atReset, sec := .factory, test := .atReset, mouth := .atReset
    energy := 0, area0 := .factory, area1 := ⟨0, []⟩, eff := [], toStore := [], storeDef := none }

end Sys2Proof.Machine
end

