-- ==== Sys2Proof/Machine/State.lean ====
section
/-!
DEFINITION. The machine: the queue of commands that wait, the program cores, DRAM and the chip around them; how a step
can stop; and the machine right after reset.
-/

namespace Sys2Proof.Machine

/-- The machine. -/
structure State where
  pending : List Instr
  cores   : Vector CoreSt 8
  mem     : List Host.Cell
  chip    : Chip
  deriving DecidableEq, Repr

/-! ## How a step can stop -/

/-- Why the machine stops: no rule of the spec stops it, so there is no reason (a bus error, an exception and a
refused command are next states). -/
inductive Fault where
  deriving DecidableEq, Repr

/-- Why a command is refused. -/
inductive Refusal where
  /-- Raised by an arm of exec whose command has no meaning in this model yet: safe. -/
  | notModelled (mnemonic : String)
  deriving DecidableEq, Repr

/-- What a command gives. -/
abbrev Out := Host.Outcome State Fault Refusal


/-- The machine right after a power-on reset (R118, R119, R844): every part as AtReset gives it, DRAM with nothing listed,
no command waiting. -/
def State.reset : State := ⟨[], Vector.replicate 8 CoreSt.atReset, [], Chip.atPower⟩

end Sys2Proof.Machine
end

