-- ==== Sys2Proof/Machine/Flags.lean ====
section
/-!
DEFINITION. The integer operations of the ALU group and the flags they set (R141, R154 to R156).
-/

namespace Sys2Proof.Machine

/-- What an ALU operation gives: its result, and the flags it sets when S = 1. -/
structure AluOut where
  val   : Word
  flags : Flags
  deriving DecidableEq, Repr

/-- N and Z from a result, C and V left as they are (R155). -/
def Flags.nz (f : Flags) (r : Word) : Flags := { f with n := r.msb, z := r == 0#32 }

/-- a + b + carry with all four flags (R141). -/
def addOut (a b : Word) (cin : Bool) : AluOut :=
  let r := a + b + (if cin then 1#32 else 0#32)
  ⟨r, { n := r.msb, z := r == 0#32
        c := decide (2 ^ 32 ≤ a.toNat + b.toNat + (if cin then 1 else 0))
        v := (a.msb == b.msb) && (r.msb != a.msb) }⟩

/-- a - b - (1 - carry): C = 1 when no borrow is needed (R155). -/
def subOut (a b : Word) (cin : Bool) : AluOut :=
  let r := a - b - (if cin then 0#32 else 1#32)
  ⟨r, { n := r.msb, z := r == 0#32
        c := decide (b.toNat + (if cin then 0 else 1) ≤ a.toNat)
        v := (a.msb != b.msb) && (r.msb != a.msb) }⟩

/-- A result that sets N and Z alone. -/
def nzOut (f : Flags) (r : Word) : AluOut := ⟨r, f.nz r⟩

/-- SHL by 0 to 31: C is the last bit shifted out (R154). -/
def shlOut (f : Flags) (a : Word) (k : Nat) : AluOut :=
  let r := a <<< k
  ⟨r, { f.nz r with c := if k = 0 then f.c else a.getLsbD (32 - k) }⟩

/-- SHR by 0 to 31 (R154). -/
def shrOut (f : Flags) (a : Word) (k : Nat) : AluOut :=
  let r := a >>> k
  ⟨r, { f.nz r with c := if k = 0 then f.c else a.getLsbD (k - 1) }⟩

/-- SAR by 0 to 31 (R154). -/
def sarOut (f : Flags) (a : Word) (k : Nat) : AluOut :=
  let r := a.sshiftRight k
  ⟨r, { f.nz r with c := if k = 0 then f.c else a.getLsbD (k - 1) }⟩

/-- ROR by 0 to 31: C is bit 31 of the result when the amount is not 0 (R154). -/
def rorOut (f : Flags) (a : Word) (k : Nat) : AluOut :=
  let r := a.rotateRight k
  ⟨r, { f.nz r with c := if k = 0 then f.c else r.msb }⟩

/-- MUL: C for an unsigned product of 2^32 or more, V for a signed product that does not fit (R154). -/
def mulOut (f : Flags) (a b : Word) : AluOut :=
  let r := a * b
  ⟨r, { f.nz r with c := decide (2 ^ 32 ≤ a.toNat * b.toNat), v := decide (a.toInt * b.toInt ≠ r.toInt) }⟩

/-- A result with C = V = 0 (R154). -/
def nzClear (f : Flags) (r : Word) : AluOut := ⟨r, { f.nz r with c := false, v := false }⟩

/-- MULHS (R154). -/
def mulhsOut (f : Flags) (a b : Word) : AluOut := nzClear f (BitVec.ofInt 32 (a.toInt * b.toInt / 2 ^ 32))

/-- MULHU (R154). -/
def mulhuOut (f : Flags) (a b : Word) : AluOut := nzClear f (BitVec.ofNat 32 (a.toNat * b.toNat / 2 ^ 32))

/-- A division's result: C = 0, V in the cases R156 names. -/
def divFlags (f : Flags) (r : Word) (v : Bool) : AluOut := ⟨r, { f.nz r with c := false, v := v }⟩

/-- The signed division that leaves the 32-bit range (R156). -/
def divOverflows (a b : Word) : Bool := a == 0x80000000#32 && b == 0xFFFFFFFF#32

/-- DIV: never traps (R156). -/
def divOut (f : Flags) (a b : Word) : AluOut :=
  if b = 0#32 then divFlags f 0#32 true
  else if divOverflows a b then divFlags f 0x80000000#32 true
  else divFlags f (BitVec.ofInt 32 (Int.tdiv a.toInt b.toInt)) false

/-- DIVU (R156). -/
def divuOut (f : Flags) (a b : Word) : AluOut :=
  if b = 0#32 then divFlags f 0#32 true else divFlags f (BitVec.ofNat 32 (a.toNat / b.toNat)) false

/-- REM: the sign of ra (R154, R156). -/
def remOut (f : Flags) (a b : Word) : AluOut :=
  if b = 0#32 then divFlags f a true
  else if divOverflows a b then divFlags f 0#32 true
  else divFlags f (BitVec.ofInt 32 (Int.tmod a.toInt b.toInt)) false

/-- REMU (R156). -/
def remuOut (f : Flags) (a b : Word) : AluOut :=
  if b = 0#32 then divFlags f a true else divFlags f (BitVec.ofNat 32 (a.toNat % b.toNat)) false

/-- The count of leading zeros, 0 to 32 (R154). -/
def clzOf (a : Word) : Nat := if a = 0#32 then 32 else 31 - a.toNat.log2

/-- Whether a condition holds (R164); code 0xF never does. -/
def condHolds (f : Flags) (code : BitVec 4) : Bool :=
  let p := match code.toNat % 8 with
    | 0 => f.z
    | 1 => f.c
    | 2 => f.n
    | 3 => f.v
    | 4 => f.c && !f.z
    | 5 => f.n == f.v
    | 6 => !f.z && f.n == f.v
    | _ => true
  if code.toNat < 8 then p else !p

/-- MFF: N, Z, C, V in bits 3 to 0 (R141). -/
def Flags.word (f : Flags) : Word :=
  BitVec.ofNat 32 ((if f.n then 8 else 0) + (if f.z then 4 else 0) + (if f.c then 2 else 0) + (if f.v then 1 else 0))

/-- MTF: the flags from bits 3 to 0 (R154). -/
def Flags.ofWord (w : Word) : Flags := ⟨w.getLsbD 3, w.getLsbD 2, w.getLsbD 1, w.getLsbD 0⟩

end Sys2Proof.Machine
end

