-- ==== Sys2Proof/Machine/Map.lean ====
section
/-!
DEFINITION. Sparse data by number: a list of (key, value) pairs in one canonical form, keys strictly rising and no
value equal to what an unlisted key reads as. Memory, the register file and every large table of the module are
held this way, so that equal contents are equal data.
-/

namespace Sys2Proof.Machine

/-- What the map holds at a key; `d` at a key that is not listed. The search ends at the first key above it. -/
def mapGet {α : Type} (d : α) : List (Nat × α) → Nat → α
  | [], _ => d
  | (k, v) :: m, i => if i < k then d else if i = k then v else mapGet d m i

/-- A map without its leading entries up to a key. -/
def mapDrop {α : Type} : List (Nat × α) → Nat → List (Nat × α)
  | [], _ => []
  | (k, v) :: m, i => if k ≤ i then mapDrop m i else (k, v) :: m

/-- Writes a key, keeping the canonical form: writing `d` takes the entry out. -/
def mapSet {α : Type} [DecidableEq α] (d : α) : List (Nat × α) → Nat → α → List (Nat × α)
  | [], i, x => if x = d then [] else [(i, x)]
  | (k, v) :: m, i, x =>
    if i < k then (if x = d then (k, v) :: m else (i, x) :: (k, v) :: m)
    else if i = k then (if x = d then mapDrop m i else (i, x) :: m)
    else (k, v) :: mapSet d m i x

/-- The canonical form: keys strictly rising from `lo`, no entry holding `d`. -/
def mapWfFrom {α : Type} [DecidableEq α] (d : α) : Nat → List (Nat × α) → Bool
  | _, [] => true
  | lo, (k, v) :: m => decide (lo ≤ k) && decide (v ≠ d) && mapWfFrom d (k + 1) m

/-- The canonical form of a whole map. -/
def mapWf {α : Type} [DecidableEq α] (d : α) (m : List (Nat × α)) : Bool := mapWfFrom d 0 m

end Sys2Proof.Machine
end

