-- ==== Sys2Proof/Machine/Ops.lean ====
section
/-!
DEFINITION. The named operations over registers, memory, time, counters and events that every meaning is built from.
-/

namespace Sys2Proof.Machine

/-! ## Numbers and bits -/

/-- Bits `hi` to `lo` of a number (R9, R10). -/
def bitsOf (x hi lo : Nat) : Nat := (x >>> lo) % 2 ^ (hi - lo + 1)

/-- 1 for true. -/
def b2n (b : Bool) : Nat := if b then 1 else 0

/-- Adds a number to a list without repeats. -/
def addOnce (l : List Nat) (n : Nat) : List Nat := if l.contains n then l else l ++ [n]

/-- A bit of a number. -/
def bitAt (x i : Nat) : Bool := bitsOf x i i == 1

/-- The signed reading of the low `n` bits of a number. -/
def signed (n x : Nat) : Int := (BitVec.ofNat n x).toInt

/-- The two's complement of an integer in `n` bits. -/
def unsigned (n : Nat) (i : Int) : Nat := (BitVec.ofInt n i).toNat

/-- An integer held within a signed range. -/
def clampInt (lo hi x : Int) : Int := if x < lo then lo else if hi < x then hi else x

/-- The `n` bytes of a number, least significant first (R13). -/
def toBytes : Nat → Nat → List Byte
  | 0, _ => []
  | n + 1, x => BitVec.ofNat 8 x :: toBytes n (x / 256)

/-- The number that bytes spell, least significant first (R13). -/
def ofBytes : List Byte → Nat
  | [] => 0
  | b :: bs => b.toNat + 256 * ofBytes bs

/-- `n` bytes from offset `o` of a list, as a number. -/
def bytesAt (bs : List Byte) (o n : Nat) : Nat := ofBytes ((bs.drop o).take n)

/-! ## CRC-32 (R481) -/

/-- Eight steps of the reflected polynomial. -/
def crc32Bits : Nat → Nat → Nat
  | 0, x => x
  | n + 1, x => crc32Bits n (if x % 2 = 1 then x / 2 ^^^ 0xEDB88320 else x / 2)

/-- The register after a list of bytes. -/
def crc32From : Nat → List Byte → Nat
  | x, [] => x
  | x, b :: bs => crc32From (crc32Bits 8 (x ^^^ b.toNat)) bs

/-- The CRC-32 of R481. -/
def crc32 (bs : List Byte) : Nat := crc32From 0xFFFFFFFF bs ^^^ 0xFFFFFFFF

/-! ## Memory -/

/-- The number of bytes of DRAM (R843). -/
def dramSize : Nat := 0x800000000

/-- What a byte that nothing has written reads as (R844). -/
def memDefault : Byte := 0#8

/-- One byte of DRAM. -/
def memByte (m : List Host.Cell) (a : Nat) : Byte := mapGet memDefault m a

/-- Writes one byte of DRAM. -/
def memSetByte (m : List Host.Cell) (a : Nat) (b : Byte) : List Host.Cell := mapSet memDefault m a b

/-- `n` bytes of DRAM as a number (R13). -/
def memRead (m : List Host.Cell) : Nat → Nat → Nat
  | 0, _ => 0
  | n + 1, a => (memByte m a).toNat + 256 * memRead m n (a + 1)

/-- Writes the low `n` bytes of a number (R13). -/
def memWrite (m : List Host.Cell) : Nat → Nat → Nat → List Host.Cell
  | 0, _, _ => m
  | n + 1, a, x => memWrite (memSetByte m a (BitVec.ofNat 8 x)) n (a + 1) (x / 256)

/-- `n` bytes of DRAM as a list. -/
def memBytes (m : List Host.Cell) : Nat → Nat → List Byte
  | 0, _ => []
  | n + 1, a => memByte m a :: memBytes m n (a + 1)

/-- Writes a list of bytes. -/
def memPut (m : List Host.Cell) : Nat → List Byte → List Host.Cell
  | _, [] => m
  | a, b :: bs => memPut (memSetByte m a b) (a + 1) bs

/-- Whether every byte of a range lies in DRAM (R843). -/
def inDram (a n : Nat) : Bool := decide (a + n ≤ dramSize)

/-- The canonical form of memory. -/
def memWf (m : List Host.Cell) : Bool := mapWf memDefault m

/-! ## The register file -/

/-- The value of a field in a word. -/
def getF (f : Fld) (w : Word) : Nat := bitsOf w.toNat f.hi f.lo

/-- The bits a field covers. -/
def maskF (f : Fld) : Word := BitVec.ofNat 32 ((2 ^ (f.hi - f.lo + 1) - 1) <<< f.lo)

/-- A word with one field written. -/
def putF (f : Fld) (w : Word) (v : Nat) : Word :=
  (w &&& ~~~ maskF f) ||| (BitVec.ofNat 32 (v <<< f.lo) &&& maskF f)

/-- A register of the file; 0 where the file lists none. -/
def Chip.reg (c : Chip) (k : Nat) : Word := mapGet 0#32 c.regs k

/-- Writes a register of the file. -/
def Chip.setReg (c : Chip) (k : Nat) (w : Word) : Chip := { c with regs := mapSet 0#32 c.regs k w }

/-- A field of the file. -/
def Chip.fld (c : Chip) (f : Fld) : Nat := getF f (c.reg f.key)

/-- Writes a field of the file. -/
def Chip.setFld (c : Chip) (f : Fld) (v : Nat) : Chip := c.setReg f.key (putF f (c.reg f.key) v)

/-- A field as a flag. -/
def Chip.flag (c : Chip) (f : Fld) : Bool := c.fld f != 0

/-- Sets or clears a flag. -/
def Chip.setFlag (c : Chip) (f : Fld) (b : Bool) : Chip := c.setFld f (b2n b)

/-- Writes several fields in order. -/
def Chip.setFlds (c : Chip) : List (Fld × Nat) → Chip
  | [] => c
  | (f, v) :: l => (c.setFld f v).setFlds l

/-- The island code of a register (R32, R145). -/
def islandOf (k : Nat) : Nat := k / 0x100000

/-- The offset of a register within its island. -/
def offsetOf (k : Nat) : Nat := k % 0x100000

/-- The copy of a register that is kept for one requesting island (R53, R687). -/
def banked (k src : Nat) : Nat := k + (src + 1) * 0x2000000

/-- The latch of a counter's high word for a reading island (R687). -/
def latchKey (k src : Nat) : Nat := 0x40000000 + banked k src

/-- The staged high word of a counter for a writing island (R689). -/
def stagedKey (k src : Nat) : Nat := 0x80000000 + banked k src

/-- The sticky overflow flag of a counter (R691). -/
def ovfKey (k : Nat) : Nat := 0xC0000000 + k

/-- A field of a register whose written value takes effect at the next system reset (MG_REDCFG.TOPO, FX_STATION.ID,
FX_SEQSLOTS): as it was at the last one. -/
def Chip.effFld (c : Chip) (f : Fld) : Nat := getF f (mapGet 0#32 c.eff f.key)

/-- The configuration of the set in force (R639). -/
def Chip.topo (c : Chip) : Nat := c.effFld MG_REDCFG_TOPO

/-! ## The configuration block -/

/-- The configuration area in use (MG_BOOTSTAT.CFGAREA). -/
def Chip.cfgArea (c : Chip) : CfgArea := if c.flag MG_BOOTSTAT_CFGAREA then c.area1 else c.area0

/-- What the area in use stores. -/
def Chip.cfgBlock (c : Chip) : List (Nat × Word) := c.cfgArea.words

/-- Changes the area in use. -/
def Chip.onArea (c : Chip) (f : CfgArea → CfgArea) : Chip :=
  if c.flag MG_BOOTSTAT_CFGAREA then { c with area1 := f c.area1 } else { c with area0 := f c.area0 }

/-! ## Free values -/

/-- Takes a fresh free value of `n` bits (log entry 3). -/
def Chip.free (c : Chip) (n : Nat) : Nat × Chip :=
  ((Config.freeValue c.freeCtr).toNat % 2 ^ n, { c with freeCtr := c.freeCtr + 1 })

/-! ## Time -/

/-- The monotonic timebase in ns (R581). -/
def Chip.mono (c : Chip) : Nat := c.now - c.monoBase

/-- The mapping in force at a monotonic instant: the last one whose reference is not after it (R587). -/
def mapAt : List Mapping → Nat → Mapping
  | [], _ => ⟨0, 0, 0, 0x70⟩
  | p :: ps, m => if p.mono ≤ m then p else mapAt ps m

/-- Fabric time at a monotonic instant in units of 2^-16 ns (R584, R586). -/
def Mapping.at (p : Mapping) (m : Nat) : Nat :=
  ((p.ft : Int) + ((m : Int) - p.mono) * (2 ^ 40 + p.rate) * 65536 / 2 ^ 40).toNat % 2 ^ 80

/-- Fabric time of a monotonic instant, in units of 2^-16 ns. -/
def Chip.fabricFracAt (c : Chip) (m : Nat) : Nat := (mapAt c.maps m).at m

/-- Fabric time of a monotonic instant, in ns (R584). -/
def Chip.fabricAt (c : Chip) (m : Nat) : Nat := c.fabricFracAt m / 65536

/-- Fabric time now, in ns. -/
def Chip.fabricNow (c : Chip) : Nat := c.fabricAt c.mono

/-- The code of TQ.ERR for a bound in ns (R585). -/
def errCode (ns : Nat) : Nat :=
  if ns ≤ 10 then 0 else if ns ≤ 100 then 1 else if ns ≤ 1000 then 2 else if ns ≤ 10000 then 3 else if ns ≤ 100000 then 4
  else if ns ≤ 1000000 then 5 else 6

/-- The bound of R601 after `t` ns of holdover, on A1. -/
def holdBound (t : Nat) : Nat := 5 + 13325 * t / 1000000000000

/-- A TQ byte with ERR as it is now: in holdover it follows its bound (R601). -/
def Chip.tqLive (c : Chip) (tq : Nat) : Nat :=
  match c.time.holdAt with
  | some h => if tq % 4 = 2 then tq - tq % 128 / 16 * 16 + errCode (holdBound (c.mono - h)) * 16 else tq
  | none => tq

/-- The time quality of a stamp of a monotonic instant: that of the mapping in force (R585, R586). -/
def Chip.tqAt (c : Chip) (m : Nat) : Nat := c.tqLive (mapAt c.maps m).tq

/-- The time quality of a stamp taken now. -/
def Chip.tqNow (c : Chip) : Nat := c.tqAt c.mono

/-! ## Events -/

/-- Sends an event towards MG with its stamp (R714): code = stream × 0x100 + n (R720). -/
def Chip.raise (c : Chip) (code sev src : Nat) (data : List Byte) : Chip :=
  { c with events := c.events ++ [⟨code / 256, sev, code, src, data, c.fabricNow, c.tqNow⟩] }

/-! ## Counters -/

/-- A 64-bit register counter's value (R686). -/
def Chip.counter (c : Chip) (k : Nat) : Nat := (c.reg k).toNat + (c.reg (k + 4)).toNat * 2 ^ 32

/-- Loads a 64-bit register counter. -/
def Chip.setCounter (c : Chip) (k v : Nat) : Chip :=
  (c.setReg k (BitVec.ofNat 32 v)).setReg (k + 4) (BitVec.ofNat 32 (v / 2 ^ 32))

/-- What a counter's wrap leaves (R691): the sticky OVF and an event in stream 27. -/
def Chip.counterWrapped (c : Chip) (k : Nat) : Chip :=
  (c.setReg (ovfKey k) 1#32).raise 0x1B01 2 (islandOf k) (toBytes 2 (islandOf k) ++ toBytes 2 (offsetOf k % 65536))

/-- Adds to a 64-bit register counter; a wrap sets OVF (R691). -/
def Chip.bump (c : Chip) (k n : Nat) : Chip :=
  let v := c.counter k + n
  let c := c.setCounter k (v % 2 ^ 64)
  if 2 ^ 64 ≤ v then c.counterWrapped k else c

/-! ## Islands -/

/-- The power state of an island: 0 ON, 1 IDLE, 2 RETAIN, 3 OFF (R100). -/
def Chip.islandState (c : Chip) (i : Nat) : Nat :=
  if i < 16 then bitsOf (c.reg PW_ISLSTAT0).toNat (2 * i + 1) (2 * i)
  else bitsOf (c.reg PW_ISLSTAT1).toNat (2 * (i - 16) + 1) (2 * (i - 16))

/-- The operating mode's code (R80): 0 BOOT, and so on. -/
def Chip.mode (c : Chip) : Nat := c.fld MG_MODE_CUR

/-- The islands that RECOVERY brings up: NX for Ethernet port 3, ST, MG and the pool (R771; log entry 73). -/
def inRecovery (i : Nat) : Bool := i == 0x13 || i == 0x14 || i == 0x15 || i == 0x17

/-- Whether an island answers register accesses (R71). -/
def Chip.islandOn (c : Chip) (i : Nat) : Bool := c.power.reset.isNone && c.islandState i == 0 && (c.mode != 1 || inRecovery i)

/-- A new epoch, which clears the COUNTERs of management commands (R550, R761). -/
def Chip.setEpoch (c : Chip) (e : Nat) : Chip :=
  let c := if e = c.fld FX_STATION_EPOCH then c else { c with sec := { c.sec with used := [] } }
  c.setFld FX_STATION_EPOCH e

/-- What an island does by its own clock: nothing while the clock stands (R100). -/
def Chip.clocked (c : Chip) (i : Nat) (f : Chip → Chip) : Chip := if c.islandOn i then f c else c

/-- What an island does by its own clock to the whole machine: nothing while the clock stands (R100). -/
def State.clocked (s : State) (i : Nat) (f : State → State) : State := if s.chip.islandOn i then f s else s

/-- Sets the power state PW_ISLSTAT shows for an island (R100). -/
def Chip.setIslandState (c : Chip) (i st : Nat) : Chip :=
  if i < 16 then c.setFld ⟨PW_ISLSTAT0, 2 * i + 1, 2 * i⟩ st
  else c.setFld ⟨PW_ISLSTAT1, 2 * (i - 16) + 1, 2 * (i - 16)⟩ st

/-- Records the answer an island gets to an access (R17, R69, R71). -/
def Chip.answer (c : Chip) (src : Nat) (a : Answer) : Chip := { c with answers := mapSet .none c.answers src a }

/-- Puts the last message on a link: 0 to 5 the fabric ports, 6 PL0, 7 PL1, 8 to 11 Ethernet, 16 to 23 CAN, 30 the
service port. -/
def Chip.send (c : Chip) (port : Nat) (bs : List Byte) : Chip := { c with sent := mapSet [] c.sent port bs }

/-- The enabled tasks. -/
def Chip.enabledTasks (c : Chip) : List Nat := (List.range 16).filter fun k => c.flag (MG_TASKDESC_ENABLE k)

/-- The number of the cycle that the lowest enabled task is in. -/
def Chip.cycleNow (c : Chip) : Nat := match c.enabledTasks with
  | [] => 0
  | k :: _ => c.counter (MG_TASKCYC_LO k) - 1

/-- The active unit of a Duplex set forwards a change over PL1 as it takes effect (R658, log entry 117): 0 a patch set, 1 a load, 2 a commit set, 3 an update
set, with its TAG and the cycle number. -/
def Chip.forwardOut (c : Chip) (kind tag cycle : Nat) (bs : List Byte) : Chip :=
  if c.topo % 2 = 1 ∧ c.fld MG_REDSTAT_ROLE = 1 then c.send 7 (toBytes 1 kind ++ toBytes 1 tag ++ toBytes 8 cycle ++ bs) else c

/-- Puts a message on an Ethernet port, which transmits nothing in STANDBY (R647). -/
def Chip.sendEth (c : Chip) (p : Nat) (bs : List Byte) : Chip := if c.mode = 6 then c else c.send (8 + p) bs

/-- Puts a pair in an association list, replacing the one of its key. -/
def assocSet {α : Type} (l : List (Nat × α)) (k : Nat) (v : α) : List (Nat × α) := (k, v) :: l.filter fun p => p.1 != k

/-- Looks a key up in an association list. -/
def assocGet {α : Type} (l : List (Nat × α)) (k : Nat) : Option α := (l.find? fun p => p.1 == k).map Prod.snd

end Sys2Proof.Machine
end

