-- ==== Sys2Proof/Machine/Pool.lean ====
section
/-!
DEFINITION. The shared buffer pool: rings, reservations, full policies, publishing and releasing (R43 to R59, R845).
-/

namespace Sys2Proof.Machine

/-- The buffers of the pool. -/
def poolSize : Nat := 131072

/-- A ring nobody has configured. -/
def Ring.unused : Ring := ⟨0, 0, false, false, 0, 0, 0, []⟩

/-- The producer of a system ring as its chapter names it (R73, R578, R588, R642, R757); 0 where no chapter does (log entry 4). -/
def sysProducer (n : Nat) : Nat :=
  if n < 2 then 0x00 else if n < 4 then 0x14 else if n < 6 then 0x15
  else if n < 14 then n - 6 else if n < 24 || n == 25 || n == 27 || (28 ≤ n && n < 36) || n == 44 then 0x12
  else if n == 24 || n == 45 || n == 47 || n == 49 then 0x15 else if n == 26 then 0x08
  else if 36 ≤ n && n < 44 then n - 26 else if n == 46 then 0x13 else 0

/-- The consumer of a system ring as its chapter names it (R73, R578, R588, R642, R757); 0 where no chapter does (log entry 4). -/
def sysConsumer (n : Nat) : Nat :=
  if n == 0 || n == 5 then 0x14 else if n == 1 || n == 3 || n == 23 then 0x15
  else if (6 ≤ n && n < 14) || n == 24 || n == 26 || (36 ≤ n && n < 44) || n == 45 then 0x12 else if 14 ≤ n && n < 22 then n - 4
  else if n == 22 || n == 27 then 0x08 else if n == 25 || n == 44 || n == 46 || n == 48 then 0x15
  else if 28 ≤ n && n < 36 then n - 18 else if n == 47 then 0x13 else 0

/-- The system rings with the DROP policy: ring 44 (R757), and ring 46, which Ethernet port 3 feeds (R51). -/
def sysDrop (n : Nat) : Bool := n == 44 || n == 46

/-- A ring of the pool; rings 0 to 63 are fixed (R45, R58, R74). -/
def Pool.ring (p : Pool) (n : Nat) : Ring :=
  let r := mapGet Ring.unused p.rings n
  if n < 64 then
    { r with resv := 32, max := 32, en := true, drop := sysDrop n, prod := sysProducer n, cons := sysConsumer n }
  else r

/-- Writes a ring; of a system ring only what the module does not fix is kept. -/
def Pool.setRing (p : Pool) (n : Nat) (r : Ring) : Pool :=
  let r := if n < 64 then { Ring.unused with drops := r.drops, queue := r.queue } else r
  { p with rings := mapSet Ring.unused p.rings n r }

/-- The buffers a message takes: one for each 256 bytes, at least one. -/
def Msg.need (m : Msg) : Nat := Nat.max 1 ((m.bytes.length + 255) / 256)

/-- The buffers of the published messages of a ring. -/
def queueBufs : List Msg → Nat
  | [] => 0
  | m :: ms => m.need + queueBufs ms

/-- The buffers taken for messages of a ring that are not published. -/
def heldBufs (n : Nat) : List Held → Nat
  | [] => 0
  | h :: hs => (if h.ring = n then h.got else 0) + heldBufs n hs

/-- The buffers allocated in a ring for responses to come (R566). -/
def allocBufs (n : Nat) : List (Nat × Nat) → Nat
  | [] => 0
  | (r, k) :: l => (if r = n then k else 0) + allocBufs n l

/-- The occupancy of a ring: SG_RINGOCC. -/
def Pool.occ (p : Pool) (n : Nat) : Nat := queueBufs (p.ring n).queue + heldBufs n p.held + allocBufs n p.alloc

/-- The sum of the reservations of rings 64 and up. -/
def resvAbove : List (Nat × Ring) → Nat
  | [] => 0
  | (n, r) :: rs => (if n < 64 then 0 else r.resv) + resvAbove rs

/-- SG_RESVSUM: the sum of all reservations, with 2,048 for the system rings (R45, R46). -/
def Pool.resvSum (p : Pool) : Nat := 2048 + resvAbove p.rings

/-- The rings that hold a buffer or are configured. -/
def Pool.live (p : Pool) : List Nat := (p.rings.map Prod.fst ++ p.held.map Held.ring ++ p.alloc.map Prod.fst).eraseDups

/-- The buffers held above reservations, which count against the unreserved remainder (R47, R57). -/
def Pool.unreservedHeld (p : Pool) : Nat :=
  (p.live.map fun n => p.occ n - (p.ring n).resv).foldl (· + ·) 0

/-- Every buffer that some ring holds. -/
def Pool.held' (p : Pool) : Nat := (p.live.map p.occ).foldl (· + ·) 0

/-- SG_POOLSTAT.FREE: unreserved buffers not held by any ring, 0 while more are held than the remainder (R845);
a retired buffer (R52) is no longer one of them. -/
def Pool.free (p : Pool) : Nat := poolSize - p.retired - p.resvSum - p.unreservedHeld

/-- Whether a ring obtains its next buffer now (R47, R56, R845). -/
def Pool.canTake (p : Pool) (n : Nat) : Bool :=
  let occ := p.occ n
  if occ < (p.ring n).resv then decide (p.held' + p.retired < poolSize)
  else decide (occ < (p.ring n).max) && decide (0 < p.free)

/-- Takes buffers for a message, at most `fuel` of them, while the ring obtains them. -/
def Pool.take (p : Pool) (n : Nat) : Nat → Nat → Nat
  | 0, got => got
  | fuel + 1, got =>
    if ({ p with held := ⟨n, got, ⟨[], false, 0, none⟩⟩ :: p.held }).canTake n then p.take n fuel (got + 1) else got

/-- Takes buffers as `take` does for a producer that another island outbids in this clock: the last free unreserved buffer goes to the other (R48). -/
def Pool.takeOutbid (p : Pool) (n : Nat) : Nat → Nat → Nat
  | 0, got => got
  | fuel + 1, got =>
    let q := { p with held := ⟨n, got, ⟨[], false, 0, none⟩⟩ :: p.held }
    if q.canTake n && !(decide ((q.ring n).resv ≤ q.occ n) && q.free == 1) then p.takeOutbid n fuel (got + 1) else got

/-- Allocates `k` buffers in a ring for a response to come (R566), where the ring obtains them all. -/
def Pool.allocate (p : Pool) (n k : Nat) : Option Pool :=
  if (p.ring n).en && !(p.held.any fun h => h.ring == n) && p.take n k 0 == k then some { p with alloc := (n, k) :: p.alloc } else none

/-- What became of a message offered to a ring. -/
inductive Offer where
  | published | waiting | dropped
  deriving DecidableEq, Repr

/-- Puts a whole message in a ring's queue (R49). -/
def Pool.enqueue (p : Pool) (n : Nat) (m : Msg) : Pool :=
  p.setRing n { p.ring n with queue := (p.ring n).queue ++ [m] }

/-- Counts one message discarded at a ring (R50, R58). -/
def Chip.ringDrop (c : Chip) (n : Nat) : Chip :=
  let v := (c.pool.ring n).drops + 1
  let c := { c with pool := c.pool.setRing n { c.pool.ring n with drops := v % 2 ^ 64 } }
  if 2 ^ 64 ≤ v then (c.setReg (ovfKey (SG_RINGDROP_LO + 0x100 * n)) 1#32).raise 0x1B01 2 0x17
    (toBytes 2 0x17 ++ toBytes 2 (offsetOf SG_RINGDROP_LO)) else c

/-- A producer offers a message (R49, R50, R58): discarded where the ring is disabled, published where every buffer is obtained, dropped or held by
the ring's full policy, which is DROP where the source cannot be held back (`live`, R51); `outbid`: another island takes the last free unreserved
buffer in this clock (R48). -/
def Chip.offerAs (c : Chip) (n : Nat) (m : Msg) (live outbid : Bool) : Offer × Chip :=
  let r := c.pool.ring n
  if !r.en then (.dropped, c.ringDrop n)
  else
    let waitingBehind := c.pool.held.any fun h => h.ring == n
    let got := if waitingBehind then 0 else if outbid then c.pool.takeOutbid n m.need 0 else c.pool.take n m.need 0
    if got = m.need then (.published, { c with pool := c.pool.enqueue n m })
    else if r.drop || live then (.dropped, c.ringDrop n)
    else (.waiting, { c with pool := { c.pool with held := c.pool.held ++ [⟨n, got, m⟩] } })

/-- A producer offers a message that nobody contends with. -/
def Chip.offer (c : Chip) (n : Nat) (m : Msg) : Offer × Chip := c.offerAs n m false false

/-- A source that cannot be held back offers a message (R51). -/
def Chip.offerLive (c : Chip) (n : Nat) (m : Msg) : Offer × Chip := c.offerAs n m true false

/-- The same for a message of bytes whose fate does not matter to its producer. -/
def Chip.publishLive (c : Chip) (n src : Nat) (bs : List Byte) : Chip := (c.offerLive n ⟨bs, false, src, none⟩).2

/-- Whether a ring would take a message of one buffer at once. -/
def Chip.hasRoom (c : Chip) (n : Nat) : Bool := c.pool.canTake n && !(c.pool.held.any fun h => h.ring == n)

/-- A message of one buffer passes through each of some system rings on its way (R35, R588, R642): its effect comes where all of them have room,
and it waits at its producer where one has none. It leaves its ring when it takes effect, so that no buffer stays taken (log entry 97). -/
def Chip.through (c : Chip) (rings : List Nat) (eff : Chip → Chip) : Chip := if rings.all c.hasRoom then eff c else c

/-- A producer offers a message of bytes; what becomes of it is the ring's matter. -/
def Chip.publish (c : Chip) (n src : Nat) (bs : List Byte) : Chip := (c.offer n ⟨bs, false, src, none⟩).2

/-- A producer offers a message to a ring that uses the WAIT policy whatever SG_RINGCTL says of it (R347, R402); the system rings
take none of these messages. -/
def Chip.publishWait (c : Chip) (n src : Nat) (bs : List Byte) : Chip :=
  let was := (c.pool.ring n).drop
  let policy := fun (c : Chip) (d : Bool) => { c with pool := c.pool.setRing n { c.pool.ring n with drop := d } }
  if n < 64 then c else policy ((policy c false).publish n src bs) was

/-- The first message of each ring among those that wait. -/
def firstOfRings : List Nat → List Held → List Held
  | _, [] => []
  | seen, h :: hs => if seen.contains h.ring then firstOfRings seen hs else h :: firstOfRings (h.ring :: seen) hs

/-- The held message that the next free buffer goes to: first one whose ring is below its reservation (R845), then
in order of arrival. -/
def Pool.nextServed (p : Pool) : Option Held :=
  let fs := (firstOfRings [] p.held).filter fun h => p.canTake h.ring
  match fs.find? fun h => p.occ h.ring < (p.ring h.ring).resv with
  | some h => some h
  | none => fs.head?

/-- Gives one buffer to a held message; publishes it when it is complete (R49). -/
def Pool.giveOne (p : Pool) (n : Nat) : Pool :=
  match p.held.find? fun h => h.ring == n with
  | none => p
  | some h =>
    let rest := p.held.eraseP fun x => x.ring == n
    if h.got + 1 < h.msg.need then
      { p with held := (p.held.takeWhile fun x => x.ring != n) ++ ⟨n, h.got + 1, h.msg⟩ ::
          (p.held.dropWhile fun x => x.ring != n).drop 1 }
    else ({ p with held := rest }).enqueue n h.msg

/-- Serves waiting producers while a buffer can be had, at most `fuel` buffers (R47, R50, R845). -/
def Pool.serve (p : Pool) : Nat → Pool
  | 0 => p
  | fuel + 1 =>
    match p.nextServed with
    | none => p
    | some h => (p.giveOne h.ring).serve fuel

/-- The buffers that waiting producers still want. -/
def Pool.wanted (p : Pool) : Nat := (p.held.map fun h => h.msg.need - h.got).foldl (· + ·) 0

/-- Serves every waiting producer that can be served. -/
def Pool.settle (p : Pool) : Pool := p.serve p.wanted

/-- The oldest published message of a ring. -/
def Chip.head? (c : Chip) (n : Nat) : Option Msg := (c.pool.ring n).queue.head?

/-- A ring that software has configured (R43). -/
def userRing (r : Nat) : Bool := decide (64 ≤ r ∧ r < 16384)

/-- The oldest message of a ring that software has given to an island: the island takes messages only of a ring that has it as its
consumer (R43, R53). -/
def Chip.inbox (c : Chip) (ring who : Nat) : Option Msg :=
  if userRing ring && (c.pool.ring ring).cons == who then c.head? ring else none

/-- The marks of R630 once the oldest message of a ring has gone. -/
def voidsAfter (n : Nat) (l : List (Nat × Nat)) : List (Nat × Nat) :=
  (l.filter fun q => !(q.1 == n && q.2 == 0)).map fun q => (q.1, if q.1 = n then q.2 - 1 else q.2)

/-- A consumer takes the oldest message of a ring and releases its buffers (R47, R50); a buffer of a poisoned message
is retired until the next system reset (R52). -/
def Chip.consume (c : Chip) (n : Nat) : Chip :=
  match c.head? n with
  | none => c
  | some m =>
    let p := c.pool.setRing n { c.pool.ring n with queue := (c.pool.ring n).queue.drop 1 }
    let p := { p with lastOut := some (n, m), retired := p.retired + b2n m.poisoned, voids := voidsAfter n p.voids }
    { c with pool := p.settle }

/-- Evidence of a fault in this unit, for the referee: an uncorrectable error or a POISON exception (R671). -/
def Chip.evidence (c : Chip) : Chip := { c with red := { c.red with evOwn := true, errors := c.red.errors + 1 } }

/-- An uncorrectable error found in a message (R52). -/
def Chip.eccUncorrectable (c : Chip) : Chip := (c.setFlag SG_ERR_ECC_UNCORR true).evidence

/-- A single-bit error corrected and counted (R52). -/
def Chip.eccCorrected (c : Chip) : Chip := { c with pool := { c.pool with fixed := c.pool.fixed + 1 } }

/-- Marks the oldest message of a ring poisoned (R52). -/
def Chip.poisonHead (c : Chip) (n : Nat) : Chip :=
  let r := c.pool.ring n
  match r.queue with
  | [] => c
  | m :: ms => { c.eccUncorrectable with pool := c.pool.setRing n { r with queue := { m with poisoned := true } :: ms } }

/-- Whether a message of a task or the loop engine for a ring is discarded uncounted: in STANDBY, one whose consumer is FX or NX (R647). -/
def Chip.standbyDrops (c : Chip) (ring : Nat) : Bool :=
  c.mode == 6 && ((c.pool.ring ring).cons == 0x12 || (c.pool.ring ring).cons == 0x13)

/-- PUBLISH_MESSAGE (R48 to R52, R58, R647): `rival` is another island that asks for an unreserved buffer in the same clock; the lower code wins (R48). A
producer whose clock is stopped publishes nothing (R100). -/
def Chip.publishMessage (c : Chip) (n src : Nat) (bs : List Byte) (e : Ecc) (rival : Option Nat) : Chip :=
  if !c.islandOn src || (decide (src ≤ 8) && c.standbyDrops n) then c
  else
    let c := match e with
      | .good => c
      | .corrected => c.eccCorrected
      | .uncorrectable => c.eccUncorrectable
    let outbid := match rival with
      | some r => decide (r < src)
      | none => false
    (c.offerAs n ⟨bs, e == .uncorrectable, src, none⟩ false outbid).2

/-- BUFFER_RELEASE (R47, R50, R52): a ring whose consumer is not ON keeps its messages (R103). -/
def Chip.bufferRelease (c : Chip) (n : Nat) (e : Ecc) : Chip :=
  if !c.islandOn (c.pool.ring n).cons then c
  else match c.head? n with
  | none => c
  | some _ => match e with
    | .good => c.consume n
    | .corrected => c.eccCorrected.consume n
    | .uncorrectable => (c.poisonHead n).consume n

/-- The ring an island has selected with its own SG_RINGSEL (R53). -/
def Chip.ringSel (c : Chip) (src : Nat) : Nat := (c.reg (banked SG_RINGSEL src)).toNat

/-- The request by which a remote module's frame leaves, as FX takes it from its ring (R563): destination, module and length are the module's, every other
field the executive's (log entry 46). -/
def outRequest (remote : Nat) (frame : List Byte) : List Byte :=
  let h := toBytes 32 (Config.outRequest remote).toNat
  let n := (frame.length + 3) / 4
  h.take 2 ++ toBytes 2 (remote % 4096) ++ toBytes 1 (remote / 4096) ++ toBytes 1 n ++ h.drop 6 ++ frame ++
    List.replicate (4 * n - frame.length) 0#8

/-- Publishes the message of one remote module in the ring that the executive has named for its station; it stays unsent where the ring does not take it. -/
def Chip.sendOne (c : Chip) (p : Nat × Nat × List Byte) : Chip :=
  let ring := (Config.outRing (p.1 % 4096)).toNat
  match if c.standbyDrops ring then (.published, c) else c.offer ring ⟨outRequest p.1 p.2.2, false, p.2.1, none⟩ with
  | (.published, c1) => { c1 with cyc := { c1.cyc with unsent := c1.cyc.unsent.filter fun q => q.1 != p.1 } }
  | _ => c

/-- Publishes the unsent messages of remote modules whose rings take them (R239, R248). -/
def Chip.sendUnsent (c : Chip) : Chip := c.cyc.unsent.foldl Chip.sendOne c

/-- Changes a ring's settings and serves producers that may now obtain buffers (R56, R57, R845). -/
def Chip.resetRing (c : Chip) (n : Nat) (r : Ring) : Chip := { c with pool := (c.pool.setRing n r).settle }

/-- A write of SG_RINGRES (R45, R46, R55, R845). -/
def Chip.writeRingRes (c : Chip) (src : Nat) (v : Word) : Chip :=
  let n := c.ringSel src
  let r := c.pool.ring n
  let want := bitsOf v.toNat 17 0
  if n < 64 then c
  else if r.max < want || poolSize < c.pool.resvSum - r.resv + want then c.setFlag SG_ERR_RESV_REFUSED true
  else c.resetRing n { r with resv := want }

/-- A write of SG_RINGMAX (R45, R55, R56). -/
def Chip.writeRingMax (c : Chip) (src : Nat) (v : Word) : Chip :=
  let n := c.ringSel src
  let r := c.pool.ring n
  let want := bitsOf v.toNat 17 0
  if n < 64 then c
  else if want < r.resv then c.setFlag SG_ERR_LIMIT_REFUSED true
  else c.resetRing n { r with max := want }

/-- Discards the messages a ring's producers hold, each counted (R58); a bad buffer of one of them is retired (R52). -/
def Chip.discardHeld (c : Chip) (n : Nat) : Chip :=
  let gone := c.pool.held.filter fun h => h.ring == n
  let bad := (gone.filter fun h => h.msg.poisoned && 0 < h.got).length
  let c := { c with pool := { c.pool with held := c.pool.held.filter fun h => h.ring != n, retired := c.pool.retired + bad } }
  gone.length.repeat (fun c => c.ringDrop n) c

/-- A write of SG_RINGCTL (R58, R59): PRODUCER and CONSUMER change only where the ring was disabled and empty before
the write. A message held under WAIT goes on waiting when POLICY becomes DROP (DESIGN CHOICE, log entry 97: R50 does not say). -/
def Chip.writeRingCtl (c : Chip) (src : Nat) (v : Word) : Chip :=
  let n := c.ringSel src
  let r := c.pool.ring n
  if n < 64 then c
  else
    let en := bitAt v.toNat 31
    let free := !r.en && c.pool.occ n == 0
    let r' := { r with en := en, drop := bitAt v.toNat 30
                       prod := if free then bitsOf v.toNat 9 5 else r.prod
                       cons := if free then bitsOf v.toNat 14 10 else r.cons }
    let c := { c with pool := c.pool.setRing n r' }
    let c := if en then c else c.discardHeld n
    { c with pool := c.pool.settle }

/-- What SG_RINGCTL reads for a ring. -/
def Ring.ctlWord (r : Ring) : Word :=
  BitVec.ofNat 32 (b2n r.en * 2 ^ 31 + b2n r.drop * 2 ^ 30 + r.cons % 32 * 2 ^ 10 + r.prod % 32 * 2 ^ 5)

end Sys2Proof.Machine
end

