-- ==== Sys2Proof/Machine/Paths.lean ====
section
/-!
DEFINITION. How register accesses travel between islands: directly within a plane, as a message in a system ring
between planes, with acknowledgements back (R65 to R74).
-/

namespace Sys2Proof.Machine

/-- Changes the chip. -/
def State.onChip (s : State) (f : Chip → Chip) : State := { s with chip := f s.chip }

/-- Whether a range touches a byte that the memory controller has write-locked (R229, R766). -/
def Chip.locked (c : Chip) (a n : Nat) : Bool := c.locks.any fun l => decide (l.lo < a + n ∧ a < l.lo + l.len)

/-- The plane of an island: 0 control, 1 data, 2 management (R30). -/
def planeOf (i : Nat) : Nat := if i < 0x12 then 0 else if i = 0x15 then 2 else 1

/-- The system ring that carries register accesses from one plane to another (R73). -/
def crossRing (p q : Nat) : Nat :=
  match p, q with
  | 0, 1 => 0
  | 0, _ => 1
  | 1, 0 => 2
  | 1, _ => 3
  | _, 0 => 4
  | _, _ => 5

/-- The island that a core-side or island-side access names (R145). -/
def keyOfAddr (a : Word) : Nat := a.toNat - 0xE0000000

/-- Whether an address lies in the island register window (R144, R145). -/
def inRegWindow (a : Word) : Bool := decide (0xE0800000 ≤ a.toNat ∧ a.toNat ≤ 0xE17FFFFF)

/-- Issues a register write: within a plane it is under way at once, between planes it is a message in the system ring
(R65, R72); false where that ring has no room and the write waits at its source (R74). -/
def Chip.issueWrite (c : Chip) (src k : Nat) (v : Word) : Bool × Chip :=
  let p := planeOf src
  let q := planeOf (islandOf k)
  let a : Access := ⟨src, k, v, false, false⟩
  if p = q then (true, { c with inflight := c.inflight ++ [a] })
  else
    let r := crossRing p q
    if c.hasRoom r then (true, (c.offer r ⟨[], false, src, some a⟩).2) else (false, c)

/-- CROSS_PLANE_MESSAGE (R72, R74): a write whose ring is full is held by its producer until a buffer is free. -/
def Chip.crossPlaneMessage (c : Chip) (src k : Nat) (v : Word) : Chip :=
  let p := planeOf src
  let q := planeOf (islandOf k)
  if p = q then (c.issueWrite src k v).2
  else (c.offer (crossRing p q) ⟨[], false, src, some ⟨src, k, v, false, false⟩⟩).2

/-- Whether a message of a system ring is a write from `src` to island `dst`. -/
def Msg.isWrite (m : Msg) (src dst : Nat) : Bool :=
  match m.acc with
  | some a => !a.ack && a.src == src && islandOf a.key == dst
  | none => false

/-- Takes the first message of a ring's queue that meets a test and serves the producers that wait. -/
def Chip.takeMsg (c : Chip) (r : Nat) (test : Msg → Bool) : Option Msg × Chip :=
  let ring := c.pool.ring r
  match ring.queue.find? test with
  | none => (none, c)
  | some m => (some m, { c with pool := (c.pool.setRing r { ring with queue := ring.queue.eraseP test }).settle })

/-- Takes the oldest write under way from one island to another (R66). -/
def Chip.takeWrite (c : Chip) (src dst : Nat) : Option Access × Chip :=
  let p := planeOf src
  let q := planeOf dst
  if p = q then
    let test := fun a : Access => a.src == src && islandOf a.key == dst
    match c.inflight.find? test with
    | none => (none, c)
    | some a => (some a, { c with inflight := c.inflight.eraseP test })
  else
    match c.takeMsg (crossRing p q) (fun m => m.isWrite src dst) with
    | (some m, c) => (m.acc, c)
    | (none, c) => (none, c)

/-- Sends the acknowledgement of a write back: a line within a plane, a message of the reverse ring between planes
(R68). -/
def Chip.sendAck (c : Chip) (src dst : Nat) : Chip :=
  let p := planeOf src
  let q := planeOf dst
  if p = q then { c with acks := c.acks ++ [(src, dst)] }
  else (c.offer (crossRing q p) ⟨[], false, dst, some ⟨src, dst * 0x100000, 0#32, true, false⟩⟩).2

/-- Whether a message of a system ring is an acknowledgement for `src` from island `dst`. -/
def Msg.isAck (m : Msg) (src dst : Nat) : Bool :=
  match m.acc with
  | some a => a.ack && a.src == src && islandOf a.key == dst
  | none => false

/-- FENCE_ACKNOWLEDGE (R68): one acknowledgement returns to the issuing island. -/
def Chip.takeAck (c : Chip) (src dst : Nat) : Chip :=
  let p := planeOf src
  let q := planeOf dst
  if p = q then { c with acks := c.acks.erase (src, dst) }
  else (c.takeMsg (crossRing q p) (fun m => m.isAck src dst)).2

/-- The messages of the rings between planes: published, and held by their producers (R72, R74). -/
def Chip.crossMsgs (c : Chip) : List Msg :=
  ([0, 1, 2, 3, 4, 5].map fun r => (c.pool.ring r).queue).flatten ++ (c.pool.held.filter fun h => h.ring < 6).map Held.msg

/-- The destinations an island still has writes under way to. -/
def Chip.writesOut (c : Chip) (src : Nat) : List Nat :=
  ((c.inflight.filter fun a => a.src == src).map fun a => islandOf a.key) ++
    (c.crossMsgs.filterMap fun m => m.acc.bind fun a => if !a.ack && a.src == src then some (islandOf a.key) else none)

/-- Whether an acknowledgement for an island waits for room in its ring (R68, R74). -/
def Chip.ackHeld (c : Chip) (src : Nat) : Bool :=
  c.pool.held.any fun h => match h.msg.acc with
    | some a => a.ack && a.src == src && decide (h.ring < 6)
    | none => false

/-- Whether the ring from one island to another has room for a message; within a plane no ring is needed (R72, R74). -/
def Chip.pathRoom (c : Chip) (src dst : Nat) : Bool :=
  planeOf src == planeOf dst || c.hasRoom (crossRing (planeOf src) (planeOf dst))

/-- Whether a write of an island would take effect at another now: its earlier writes there have (R66), and its ring has room (R74). -/
def Chip.writeClear (c : Chip) (src dst : Nat) : Bool := !(c.writesOut src).contains dst && c.pathRoom src dst

/-- Whether a read of an island would be answered by another now: as a write, and the response finds room on its way back (R69, R74). -/
def Chip.readClear (c : Chip) (src dst : Nat) : Bool := c.writeClear src dst && c.pathRoom dst src

/-- A register write that reaches its island: it waits behind the island's earlier writes there and for room in its ring (R66, R74); then it has its
effect where the island is ON, and gets a bus error where it is not (R71). -/
def Chip.whenOn (c : Chip) (src k : Nat) (eff : Chip → Chip) : Chip :=
  if !c.writeClear src (islandOf k) then c
  else if c.islandOn (islandOf k) then eff c else c.answer src .busError

/-- Drops every acknowledgement on its way to an island. -/
def Chip.dropAcks (c : Chip) (src : Nat) : Chip :=
  let c := { c with acks := c.acks.filter fun a => a.1 != src }
  let mine := fun m : Msg => match m.acc with | some a => a.ack && a.src == src | none => false
  let drop := fun (c : Chip) (r : Nat) =>
    let ring := c.pool.ring r
    if ring.queue.any mine then { c with pool := (c.pool.setRing r { ring with queue := ring.queue.filter fun m => !mine m }).settle }
    else c
  [0, 1, 2, 3, 4, 5].foldl drop c

/-- A core reset of an island: the writes that have left it still take effect, but their acknowledgements and failures are discarded (R115). -/
def Access.mutedBy (a : Access) (src : Nat) : Access := if a.src == src && !a.ack then { a with mute := true } else a

/-- The message of a write that a core reset mutes. -/
def Msg.mutedBy (m : Msg) (src : Nat) : Msg := { m with acc := m.acc.map fun a => a.mutedBy src }

/-- Mutes every write that an island has under way (R115). -/
def Chip.muteWrites (c : Chip) (src : Nat) : Chip :=
  let quiet := fun (p : Pool) (r : Nat) =>
    if (p.ring r).queue.isEmpty then p else p.setRing r { p.ring r with queue := (p.ring r).queue.map fun m => m.mutedBy src }
  let p := [0, 1, 2, 3, 4, 5].foldl quiet c.pool
  { c with
    inflight := c.inflight.map fun a => a.mutedBy src
    pool := { p with held := p.held.map fun h => if h.ring < 6 then { h with msg := h.msg.mutedBy src } else h } }

/-- What a failed write leaves at its source: a core raises BUSERR later (R211), another island sees a bus error. -/
def Chip.writeFailed (c : Chip) (src k : Nat) : Chip :=
  if src < 8 then { c with impErrs := c.impErrs ++ [(src, BitVec.ofNat 32 (0xE0000000 + k))] }
  else c.answer src .busError

end Sys2Proof.Machine
end

