-- ==== Sys2Proof/Machine/Operands.lean ====
section
/-!
DEFINITION. Operands of the program cores: registers, encodings, task descriptors, and the address map a core sees at
its level (R137 to R151, R226 to R231, R409, R577).
-/

namespace Sys2Proof.Machine

/-! ## Registers -/

/-- A program core of the machine. -/
def State.core (s : State) (n : Core) : CoreSt := s.cores[n]

/-- Writes a program core. -/
def State.setCore (s : State) (n : Core) (c : CoreSt) : State := { s with cores := s.cores.set n c }

/-- Reads a general register; W0 reads 0 (R138). -/
def CoreSt.rw (c : CoreSt) (r : RegN) : Word := if r = 0 then 0#32 else c.w[r]

/-- Writes a general register; a write to W0 is discarded (R139). -/
def CoreSt.ww (c : CoreSt) (r : RegN) (v : Word) : CoreSt := if r = 0 then c else { c with w := c.w.set r v }

/-- Reads an F register. -/
def CoreSt.rf (c : CoreSt) (r : RegN) : DWord := c.f[r]

/-- Writes an F register. -/
def CoreSt.wf (c : CoreSt) (r : RegN) (v : DWord) : CoreSt := { c with f := c.f.set r v }

/-- CSTATUS.LEVEL is X. -/
def CoreSt.isX (c : CoreSt) : Bool := c.cstatus.getLsbD 0

/-- CSTATUS.IE. -/
def CoreSt.ie (c : CoreSt) : Bool := c.cstatus.getLsbD 1

/-- CSTATUS.EXL. -/
def CoreSt.exl (c : CoreSt) : Bool := c.cstatus.getLsbD 4

/-- Moves past an instruction of `len` bytes. -/
def CoreSt.adv (c : CoreSt) (len : Nat) : CoreSt := { c with pc := c.pc + BitVec.ofNat 32 len }

/-! ## Encodings (R150) -/

/-- Form A with its fn field taken apart: S, bits 9:6 and bits 5:0 (R151). -/
def formA (op : Nat) (rd ra rb : RegN) (st : Bool) (x : BitVec 4) (fn : Nat) : Word :=
  BitVec.ofNat 32 (op * 2 ^ 26 + rd.val * 2 ^ 21 + ra.val * 2 ^ 16 + rb.val * 2 ^ 11 + b2n st * 2 ^ 10 + x.toNat * 2 ^ 6 + fn)

/-- Form B. -/
def formB (op : Nat) (rd ra : RegN) (imm : BitVec 16) : Word :=
  BitVec.ofNat 32 (op * 2 ^ 26 + rd.val * 2 ^ 21 + ra.val * 2 ^ 16 + imm.toNat)

/-- Form C. -/
def formC (op : Nat) (cond : BitVec 4) (disp : BitVec 22) : Word :=
  BitVec.ofNat 32 (op * 2 ^ 26 + cond.toNat * 2 ^ 22 + disp.toNat)

/-- Form J. -/
def formJ (op : Nat) (disp : BitVec 26) : Word := BitVec.ofNat 32 (op * 2 ^ 26 + disp.toNat)

/-- Form F. -/
def formF (op : Nat) (ri : RegN) (disp : BitVec 21) : Word := BitVec.ofNat 32 (op * 2 ^ 26 + ri.val * 2 ^ 21 + disp.toNat)

/-- Form D. -/
def formD (op : Nat) (operand : BitVec 20) (sub : Nat) : Word := BitVec.ofNat 32 (op * 2 ^ 26 + operand.toNat * 2 ^ 6 + sub)

/-- The first word of form L. -/
def formL (lop : Nat) (rd ra : RegN) (zero : BitVec 10) : Word :=
  BitVec.ofNat 32 (0x3F * 2 ^ 26 + lop * 2 ^ 20 + rd.val * 2 ^ 15 + ra.val * 2 ^ 10 + zero.toNat)

/-! ## Task descriptors (R226, R227) -/

/-- The physical address of a task's descriptor. -/
def State.descAddr (s : State) (k : Nat) : Nat := s.chip.fld (MG_TASKDESC_ADDR k) * 64

/-- A field of a task's descriptor: `n` bytes at offset `o`. -/
def State.descField (s : State) (k o n : Nat) : Nat := memRead s.mem n (s.descAddr k + o)

/-- A region entry at a physical address (R227). -/
def regionAt (m : List Host.Cell) (a : Nat) : Region := ⟨memRead m 4 a, memRead m 4 (a + 4), memRead m 4 (a + 8)⟩

/-- A region of a task's descriptor. -/
def State.taskRegion (s : State) (k o : Nat) : Region := regionAt s.mem (s.descAddr k + o)

/-- Where a virtual range lies in a region (R227). -/
def Region.place (r : Region) (v n : Nat) : Option Nat :=
  if r.vlo ≤ v ∧ v + n ≤ r.vhi then some (r.pbase * 64 + (v - r.vlo)) else none

/-- The task that is a core's current task (R236). -/
def State.currentTask (s : State) (n : Core) : Option Nat :=
  match mapGet 0 s.chip.cyc.cur n.val with
  | 0 => none
  | k + 1 => some k

/-- The level-X region that covers a range (R231). -/
def Chip.xPlace (c : Chip) (v n : Nat) : Option Nat := c.xmap.findSome? fun r => r.place v n

/-! ## The address map of a core (R144) -/

/-- What an access does. -/
inductive AccKind where
  | fetch | read | write | atomic
  deriving DecidableEq, Repr

/-- What the map answers: a place, a refusal (FETCH for a fetch, ACCESS otherwise), or a bus error. -/
inductive Mapped where
  | at (p : Place)
  | denied
  | busError
  deriving DecidableEq, Repr

/-- A place the map grants, or a refusal. -/
def Mapped.ofOpt : Option Nat → Mapped
  | some a => .at (.dram a)
  | none => .denied

/-- The range at its place in one of the three translated regions: through the current task's region at level T, through
the level-X table at level X (R230, R231). -/
def State.translate (s : State) (n : Core) (off v size : Nat) : Option Nat :=
  if (s.core n).isX then s.chip.xPlace v size
  else (s.currentTask n).bind fun k => (s.taskRegion k off).place v size

/-- A write only where no byte is write-locked (R229, R767). -/
def Chip.unlocked (c : Chip) (p : Option Nat) (n : Nat) : Option Nat :=
  p.bind fun a => if c.locked a n then none else some a

/-- Whether the current task owns an image page (R226, R230); level X reaches every page. -/
def State.ownsPage (s : State) (n : Core) (off o : Nat) : Bool :=
  (s.core n).isX || match s.currentTask n with
    | some k => (s.descField k off 8).testBit (o / 4096)
    | none => false

/-- The bytes of the channel-table window that hold entries: 512 entries, 1,024 in a Double Reed station (R409, R449; log entry 98). -/
def Chip.tableBytes (c : Chip) : Nat := if 2 ≤ c.topo then 0x40000 else 0x20000

/-- The channel-table window (R408, R409); a store of a core into a write-locked byte is refused with ACCESS (R229, R767). -/
def State.mapTable (s : State) (n : Core) (k : AccKind) (o size : Nat) : Mapped :=
  let inStatus := decide (0xB0 ≤ o % 256 ∧ o % 256 < 0xF0)
  let ok := decide (o < s.chip.tableBytes) && (k == .read || (k == .write && (s.core n).isX && !inStatus))
  let a := s.chip.fld CT_BASE_ADDR * 0x40000 + o
  if !ok || (k == .write && s.chip.locked a size) then .denied else if !inDram a size then .busError else .at (.ctab a)

/-- The fabric window of a core: slot k of core n is FX_CWIN 8n + k, enabled, and open to level T (R577, R578). -/
def State.mapFabric (s : State) (n : Core) (v : Nat) : Mapped :=
  let i := 8 * n.val + (v - 0xA0000000) / 0x4000000
  if s.chip.flag (FX_CWIN_A_EN i) && ((s.core n).isX || s.chip.flag (FX_CWIN_A_TASK i)) then .at (.fabric v) else .denied

/-- Whether a core may access the core-local register that holds byte `o` (R220, R223): at level X all that exist; at level T reads of FCSR, CYCLE_LO,
CYCLE_HI, COREID and STKLIM, and writes of FCSR. -/
def localOpen (x write : Bool) (o : Nat) : Bool :=
  let r := o / 4 * 4
  decide (r < 0x3C) && (x || r == 0x14 || (!write && (r == 0x18 || r == 0x1C || r == 0x20 || r == 0x38)))

/-- A core-local access: every register it touches must be open (ACCESS otherwise, which comes before BUSERR by R213); one that is no word access is a
bus error, as for the registers of an island (R17, R220, R223; log entry 98). -/
def mapLocal (x write : Bool) (o size : Nat) : Mapped :=
  if !(localOpen x write o && localOpen x write (o + size - 1)) then .denied else if size != 4 then .busError else .at (.loc o)

/-- Where an aligned access of a core goes (R144, R145, R163, R223, R230, R231). -/
def State.map (s : State) (n : Core) (k : AccKind) (v size : Nat) : Mapped :=
  let x := (s.core n).isX
  let prog := s.chip.mode == 3
  if v < 0x10000000 then
    match k with
    | .fetch | .read => .ofOpt (s.translate n 0x40 v size)
    | .write => if x && prog then .ofOpt (s.chip.unlocked (s.translate n 0x40 v size) size) else .denied
    | .atomic => .denied
  else if v < 0x50000000 then
    match k with
    | .fetch => .denied
    | .read => .ofOpt (s.translate n 0x50 v size)
    | .write | .atomic => .ofOpt (s.chip.unlocked (s.translate n 0x50 v size) size)
  else if k == .atomic || k == .fetch then .denied
  else if v < 0x60000000 then
    match k with
    | .write =>
      if x && (prog || s.chip.litOpen.contains n.val) then .ofOpt (s.chip.unlocked (s.translate n 0x70 v size) size)
      else .denied
    | _ => .ofOpt (s.translate n 0x70 v size)
  else if v < 0x60040000 then
    if k == .read && s.ownsPage n 0x20 (v - 0x60000000) then .at (.inImg (v - 0x60000000)) else .denied
  else if v < 0x60080000 then
    if s.ownsPage n 0x28 (v - 0x60040000) then .at (.outImg (v - 0x60040000)) else .denied
  else if 0x70000000 ≤ v ∧ v < 0x70040000 then s.mapTable n k (v - 0x70000000) size
  else if 0xA0000000 ≤ v ∧ v < 0xC0000000 then s.mapFabric n v
  else if 0xE0800000 ≤ v ∧ v < 0xE1800000 then
    if !(x || (s.core n).irgrant.getLsbD ((v - 0xE0000000) / 0x100000)) then .denied
    else if size != 4 then .busError
    else .at (.reg (v - 0xE0000000))
  else if 0xF0000000 ≤ v then mapLocal x (k == .write) (v - 0xF0000000) size
  else .denied

/-- Whether a core may fetch a word (R144, R230, R231). -/
def State.fetchable (s : State) (n : Core) (a : Word) : Bool :=
  match s.map n .fetch a.toNat 4 with
  | .at _ => true
  | _ => false

end Sys2Proof.Machine
end

