-- ==== Sys2Proof/Machine/CoreOps.lean ====
section
/-!
DEFINITION. The operations every instruction of a program core is built from: the frame of an instruction, taking an
exception and returning from one, and the store buffer (R152, R198 to R206, R210 to R218, R851).
-/

namespace Sys2Proof.Machine

/-! ## Exceptions (R212 to R218) -/

/-- The exception codes of R212. -/
def excIllegal : Nat := 1
def excPriv : Nat := 2
def excAlign : Nat := 3
def excFetch : Nat := 4
def excAccess : Nat := 5
def excBuserr : Nat := 6
def excPoison : Nat := 7
def excInstance : Nat := 8
def excTimer : Nat := 9
def excImage : Nat := 10
def excFpe : Nat := 11
def excSvc : Nat := 12
def excBrk : Nat := 13
def excCyend : Nat := 14

/-- CSTATUS on entry: PLEVEL and PIE take LEVEL and IE; LEVEL = X, IE = 0, EXL = 1 (R216). -/
def enteredStatus (st : Word) : Word :=
  BitVec.ofNat 32 (1 + b2n (st.getLsbD 0) * 4 + b2n (st.getLsbD 1) * 8 + 16)

/-- CSTATUS after ERET: LEVEL = PLEVEL, IE = PIE, EXL = 0 (R217). -/
def returnedStatus (st : Word) : Word :=
  BitVec.ofNat 32 (b2n (st.getLsbD 2) + b2n (st.getLsbD 3) * 2 + b2n (st.getLsbD 2) * 4 + b2n (st.getLsbD 3) * 8)

/-- Taking an exception or an interrupt (R216): a core already in a handler halts. -/
def CoreSt.enter (c : CoreSt) (code : Nat) (irq imprecise : Bool) (epc eaddr : Word) : CoreSt :=
  if c.exl then { c with run := .dead }
  else { c with
    ovlSeen := false
    epc := epc
    ecause := BitVec.ofNat 32 (b2n irq * 2 ^ 31 + b2n imprecise * 2 ^ 30 + code)
    eaddr := eaddr
    cstatus := enteredStatus c.cstatus
    pc := c.vbase }

/-- The return from an exception (R217); the program counter stays word-aligned (R137, log entry 6). -/
def CoreSt.leave (c : CoreSt) : CoreSt := { c with cstatus := returnedStatus c.cstatus, pc := c.epc &&& 0xFFFFFFFC#32 }

/-- A precise exception of the instruction at the program counter (R210); a POISON exception is evidence for the referee (R671). -/
def State.exc (s : State) (n : Core) (code : Nat) (eaddr : Word) : State :=
  let s := if code = excPoison then { s with chip := s.chip.evidence } else s
  s.setCore n ((s.core n).enter code false false (s.core n).pc eaddr)

/-- The refusal of the two accesses of one instruction, where one is refused: ACCESS comes before BUSERR (R213). -/
def Mapped.worse (p q : Mapped) : Mapped :=
  match p, q with
  | .denied, _ | _, .denied => .denied
  | .at _, r => r
  | r, _ => r

/-- The refusal of an access: ACCESS or BUSERR with the address (R212). -/
def State.accessExc (s : State) (n : Core) (m : Mapped) (a : Word) : State :=
  match m with
  | .busError => s.exc n excBuserr a
  | _ => s.exc n excAccess a

/-! ## The frame of an instruction -/

/-- Runs one instruction of `len` bytes whose first word is `word`: nothing where the core is not running, its clock is
stopped (R100) or it waits for a load, FETCH where it cannot be fetched (R144, R167, R189), ILLEGAL where a field is not allowed (R152), else `body`. -/
def State.instr (s : State) (n : Core) (word : Word) (len : Nat) (legal : Bool) (body : State → State) : State :=
  let c := s.core n
  if c.run != .running || c.wait.isSome || !s.chip.islandOn n.val then s
  else if !s.fetchable n c.pc then s.setCore n (c.enter excFetch false false c.pc c.pc)
  else if len == 8 && !s.fetchable n (c.pc + 4) then s.setCore n (c.enter excFetch false false c.pc (c.pc + 4))
  else if !legal then s.exc n excIllegal word
  else body s

/-- The instruction's effect on its core alone. -/
def State.onCore (s : State) (n : Core) (f : CoreSt → CoreSt) : State := s.setCore n (f (s.core n))

/-! ## The store buffer (R198, R851) -/

/-- The entries a store buffer holds. -/
def sbSize : Nat := 16

/-- The bytes an entry or an access covers, in a space of its own for each kind of place. -/
def Place.span : Place → Nat × Nat
  | .dram a => (0, a)
  | .inImg o => (1, o)
  | .outImg o => (2, o)
  | .ctab a => (0, a)
  | .reg k => (3, k)
  | .fabric v => (4, v)
  | .loc o => (5, o)

/-- Whether a buffered store overlaps a range (R199). -/
def StoreEntry.overlaps (e : StoreEntry) (p : Place) (n : Nat) : Bool :=
  let (k, a) := e.place.span
  let (k', a') := p.span
  k == k' && decide (a < a' + n ∧ a' < a + e.size)

/-- Whether a buffered store contains every byte of a range; a bit entry contains none (R200, R201). -/
def StoreEntry.contains (e : StoreEntry) (p : Place) (n : Nat) : Bool :=
  let (k, a) := e.place.span
  let (k', a') := p.span
  e.bit.isNone && k == k' && decide (a ≤ a' ∧ a' + n ≤ a + e.size)

/-- The bytes of a range within an entry that contains it. -/
def StoreEntry.extract (e : StoreEntry) (p : Place) (n : Nat) : Nat :=
  e.data / 256 ^ (p.span.2 - e.place.span.2) % 256 ^ n

/-- Writes `n` bytes into a byte map, least significant first. -/
def bytesInto (m : List (Nat × Byte)) : Nat → Nat → Nat → List (Nat × Byte)
  | 0, _, _ => m
  | n + 1, a, x => bytesInto (mapSet 0#8 m a (BitVec.ofNat 8 x)) n (a + 1) (x / 256)

/-- Reads `n` bytes of a byte map. -/
def bytesFrom (m : List (Nat × Byte)) : Nat → Nat → Nat
  | 0, _ => 0
  | n + 1, a => (mapGet 0#8 m a).toNat + 256 * bytesFrom m n (a + 1)

/-- The place of an image byte of a core in the image SRAM. -/
def imgAt (n : Core) (o : Nat) : Nat := n.val * 0x40000 + o

/-- One byte with one bit changed (R179). -/
def withBit (b : Byte) (i : Nat) (v : Bool) : Byte :=
  if v then b ||| BitVec.ofNat 8 (2 ^ i) else b &&& ~~~ BitVec.ofNat 8 (2 ^ i)

/-- An image store takes effect (R179). -/
def Chip.putImage (c : Chip) (n : Core) (o : Nat) (e : StoreEntry) : Chip :=
  let m := c.img.outF
  let m' := match e.bit with
    | some i => mapSet 0#8 m (imgAt n o) (withBit (mapGet 0#8 m (imgAt n o)) i (e.data % 2 == 1))
    | none => bytesInto m e.size (imgAt n o) e.data
  { c with img := { c.img with outF := m' } }

/-- The ring that carries a core's fabric-window accesses (R578). -/
def windowRing (n : Core) : Nat := 6 + n.val

/-- Offers a fabric-window access to FX (R578): the address, the data of a store, the width in `value`. -/
def Chip.offerWindow (c : Chip) (n : Core) (v : Nat) (bs : List Byte) (size : Nat) (load : Bool) : Bool × Chip :=
  let r := windowRing n
  if c.pool.canTake r && !(c.pool.held.any fun h => h.ring == r) then
    (true, (c.offer r ⟨bs, false, n.val, some ⟨n.val, v, BitVec.ofNat 32 size, load, false⟩⟩).2)
  else (false, c)

/-- The head entry of a store buffer retires where the path accepts it (R851); false where it has to wait. -/
def State.retireEntry (s : State) (n : Core) (e : StoreEntry) : Bool × State :=
  match e.place with
  | .dram a | .ctab a => (true, { s with mem := memWrite s.mem e.size a e.data })
  | .outImg o => (true, { s with chip := s.chip.putImage n o e })
  | .reg k =>
    let (ok, c) := s.chip.issueWrite n.val k (BitVec.ofNat 32 e.data)
    (ok, { s with chip := c })
  | .fabric v =>
    let (ok, c) := s.chip.offerWindow n v (toBytes e.size e.data) e.size false
    (ok, { s with chip := c })
  | .inImg _ | .loc _ => (true, s)

/-- Retires the head of a core's store buffer; false where the buffer is empty or the head has to wait (R74, R851). -/
def State.retireHead (s : State) (n : Core) : Bool × State :=
  match (s.core n).sb with
  | [] => (false, s)
  | e :: es =>
    let (ok, s') := s.retireEntry n e
    if ok then (true, s'.setCore n { s'.core n with sb := es }) else (false, s)

/-- Retires at most `k` entries, in order. -/
def State.retire (s : State) (n : Core) : Nat → State
  | 0 => s
  | k + 1 =>
    let (ok, s') := s.retireHead n
    if ok then s'.retire n k else s'

/-- Drains a core's store buffer as far as the paths accept it. -/
def State.drain (s : State) (n : Core) : State := s.retire n (s.core n).sb.length

/-- Makes room for `k` entries (R170, R198). -/
def State.makeRoom (s : State) (n : Core) (k : Nat) : State := s.retire n ((s.core n).sb.length + k - sbSize)

/-- Whether a core's store buffer has room for `k` entries. -/
def State.hasRoom (s : State) (n : Core) (k : Nat) : Bool := decide ((s.core n).sb.length + k ≤ sbSize)

/-- A store enters the buffer; a store into code is remembered, for fetch need not show it before an ISYNC (R194, R195). -/
def CoreSt.push (c : CoreSt) (e : StoreEntry) : CoreSt :=
  { c with
    sb := c.sb ++ [e]
    codeWr := if e.vaddr.toNat < 0x10000000 then c.codeWr ++ [(c.pc, e.vaddr.toNat)] else c.codeWr }

/-- A store of a core enters its buffer. -/
def State.pushStore (s : State) (n : Core) (e : StoreEntry) : State := s.onCore n fun c => c.push e

/-- The end of an EDGE once it has its state byte (R171): rd and Z from the kind, and the new state byte stored. -/
def CoreSt.edge (c : CoreSt) (rd : RegN) (kind : Nat) (cur : Bool) (p : Place) (v : Word) (byte : Nat) : CoreSt :=
  let prev := byte % 2 == 1
  let r := match kind with
    | 0 => !prev && cur
    | 1 => prev && !cur
    | _ => prev != cur
  (({ c with flags := { c.flags with z := !r } }).ww rd (BitVec.ofNat 32 (b2n r))).push ⟨p, v, 1, b2n cur, none⟩

/-- The end of a RETFB once it has its frame (R169); the low word is the caller's W28, the high word its W30. -/
def CoreSt.leaveFb (c : CoreSt) (frame : Nat) : CoreSt :=
  { ((c.ww 28 (BitVec.ofNat 32 frame)).ww 30 (BitVec.ofNat 32 (frame / 2 ^ 32))).ww 31 (c.rw 31 + 8#32) with pc := c.rw 30 }

/-- Puts loaded data where the load wants it: sign- or zero-extended in a general register, zero-extended in an F
register (R158, R182). -/
def CoreSt.putLoad (c : CoreSt) (d : LoadTo) (size data : Nat) : CoreSt :=
  match d with
  | .w r true => c.ww r (BitVec.ofInt 32 (signed (8 * size) data))
  | .w r false => c.ww r (BitVec.ofNat 32 data)
  | .f r => c.wf r (BitVec.ofNat 64 data)
  | .frame => c.leaveFb data
  | .edge rd kind cur p v => c.edge rd kind cur p v data

/-! ## Timer slots (R173, R174) -/

/-- A slot nobody has started. -/
def Slot.idle : Slot := ⟨0, false, false, 0⟩

/-- The ticks that a slot has still to count at instant `t`: the multiples of 1 µs from 1 µs after the instant it counts from (R174). -/
def Slot.ticks (x : Slot) (t : Nat) : Nat := t / 1000 - (x.since + 999) / 1000

/-- A slot with every tick up to instant `t` counted (R174): at 0 it sets done and stops. -/
def Slot.upTo (x : Slot) (t : Nat) : Slot :=
  let k := x.ticks t
  if !x.running then x
  else if x.remaining ≤ k then { x with remaining := 0, done := true, running := false }
  else if k = 0 then x
  else { x with remaining := x.remaining - k, since := t / 1000 * 1000 }

/-- Every slot of a core counts the ticks up to an instant. -/
def CoreSt.tick (c : CoreSt) (t : Nat) : CoreSt := { c with timers := c.timers.map fun (i, x) => (i, x.upTo t) }

/-! ## Core-local registers (R220 to R223, R852) -/

/-- Core clocks since the core was released, at 1.6 GHz (R30), or since CYCLE last wrapped (R691); a stopped clock does not count (R100). -/
def State.clocks (s : State) (n : Core) : Nat :=
  let c := s.core n
  match c.run with
  | .held => 0
  | _ => (c.stopped.getD s.chip.now - c.start) * 16 / 10

/-- The 64-bit count CYCLE (R221). -/
def State.cycles (s : State) (n : Core) : Nat := s.clocks n % 2 ^ 64

/-- A read of a core-local register; _LO of a counter latches _HI (R221, R687). -/
def State.readLocal (s : State) (n : Core) (o : Nat) : Word × State :=
  let c := s.core n
  match o with
  | 0x00 => (c.cstatus, s)
  | 0x04 => (c.epc, s)
  | 0x08 => (c.ecause, s)
  | 0x0C => (c.eaddr, s)
  | 0x10 => (c.vbase, s)
  | 0x14 => (c.fcsr, s)
  | 0x18 => (BitVec.ofNat 32 (s.cycles n), s.onCore n fun c => { c with cycHi := BitVec.ofNat 32 (s.cycles n / 2 ^ 32) })
  | 0x1C => (c.cycHi, s)
  | 0x20 => (BitVec.ofNat 32 (0x100 + n.val), s)
  | 0x24 => (c.tmrwin, s)
  | 0x28 => (c.irgrant, s)
  | 0x2C => (BitVec.ofNat 32 c.sb.length, s)
  | 0x30 => (BitVec.ofNat 32 c.ovlwait, s.onCore n fun c => { c with ovlHi := BitVec.ofNat 32 (c.ovlwait / 2 ^ 32) })
  | 0x34 => (c.ovlHi, s)
  | 0x38 => (c.stklim, s)
  | _ => (0#32, s)

/-- TMRWIN as stored: COUNT at most 2,048. -/
def storedTmrwin (v : Word) : Word :=
  let count := bitsOf v.toNat 27 16
  BitVec.ofNat 32 ((if count < 2048 then count else 2048) * 2 ^ 16 + bitsOf v.toNat 10 0)

/-- A write of a core-local register. -/
def CoreSt.writeLocal (c : CoreSt) (o : Nat) (v : Word) : CoreSt :=
  match o with
  | 0x00 => { c with cstatus := (v &&& 0x1E#32) ||| (c.cstatus &&& 1#32) }
  | 0x04 => { c with epc := v }
  | 0x08 => { c with ecause := v &&& 0xC00000FF#32 }
  | 0x0C => { c with eaddr := v }
  | 0x10 => { c with vbase := v &&& 0xFFFFFFFC#32 }
  | 0x14 => { c with fcsr := v &&& 0x1F1F3#32 }
  | 0x24 => { c with tmrwin := storedTmrwin v }
  | 0x28 => { c with irgrant := v &&& 0xFFFF00#32 }
  | 0x30 => { c with ovlwait := v.toNat + c.ovlStage.toNat * 2 ^ 32, ovlStage := 0#32 }
  | 0x34 => { c with ovlStage := v }
  | 0x38 => { c with stklim := v &&& 0xFFFFFFF8#32 }
  | _ => c

/-! ## Errors of stores that have left the buffer (R211) -/

/-- Raises the oldest BUSERR of a core's failed stores, before the instruction at the program counter; none where no store has failed. -/
def State.raiseFailed (s : State) (n : Core) : Option State :=
  match s.chip.impErrs.find? fun e => e.1 == n.val with
  | none => none
  | some e => some ((s.onChip fun c => { c with impErrs := c.impErrs.erase e }).onCore n fun c =>
      c.enter excBuserr false true c.pc e.2)

/-! ## The end of a load -/

/-- What reading a place gives: data, data marked uncorrectable, a bus error, or nothing yet. -/
inductive Got where
  | data (v : Nat)
  | poison
  | busError
  | waits
  deriving DecidableEq, Repr

/-- Ends a load with what it got (R158, R212). -/
def State.endLoad (s : State) (n : Core) (v : Word) (size : Nat) (d : LoadTo) (len : Nat) : Got → State
  | .data x => s.onCore n fun c => (({ c with ovlSeen := false }).putLoad d size x).adv len
  | .poison => s.exc n excPoison v
  | .busError => s.exc n excBuserr v
  | .waits => s

end Sys2Proof.Machine
end

