-- ==== Sys2Proof/Machine/Alu.lean ====
section
/-!
DEFINITION. The ALU group and the immediate instructions (R154 to R157, R188).
-/

namespace Sys2Proof.Machine

/-- One instruction of the ALU group (R154): the operation on ra and rb, flags when S = 1; bits 9:6 of fn are zero
(R151). -/
def State.aluInstr (m : State) (n : Core) (rd ra rb : RegN) (st : Bool) (x : BitVec 4) (fn : Nat) (legal : Bool)
    (op : Flags → Word → Word → AluOut) : State :=
  m.instr n (formA 0x01 rd ra rb st x fn) 4 (x == 0#4 && legal) fun m => m.onCore n fun c =>
    let o := op c.flags (c.rw ra) (c.rw rb)
    (({ c with flags := if st then o.flags else c.flags }).ww rd o.val).adv 4

/-- One instruction of form B that computes in its core (R157): the operation on ra, and whether it sets flags. -/
def State.immInstr (m : State) (n : Core) (op : Nat) (rd ra : RegN) (imm : BitVec 16) (legal setFlags : Bool)
    (f : Flags → Word → AluOut) : State :=
  m.instr n (formB op rd ra imm) 4 legal fun m => m.onCore n fun c =>
    let o := f c.flags (c.rw ra)
    (({ c with flags := if setFlags then o.flags else c.flags }).ww rd o.val).adv 4

/-- One long-form instruction that computes in its core (R188): bits 9:0 are zero. -/
def State.longInstr (m : State) (n : Core) (lop : Nat) (rd ra : RegN) (zero : BitVec 10) (legal setFlags : Bool)
    (f : Flags → Word → AluOut) : State :=
  m.instr n (formL lop rd ra zero) 8 (zero == 0#10 && legal) fun m => m.onCore n fun c =>
    let o := f c.flags (c.rw ra)
    (({ c with flags := if setFlags then o.flags else c.flags }).ww rd o.val).adv 8

/-- ADD: ra + rb, N Z C V (R154). -/
def execAdd (n : Core) (rd ra rb : RegN) (st : Bool) (x : BitVec 4) (m : State) : Out :=
  .next (m.aluInstr n rd ra rb st x 0x00 true fun _ a b => addOut a b false)

/-- SUB: ra - rb, N Z C V (R154, R155). -/
def execSub (n : Core) (rd ra rb : RegN) (st : Bool) (x : BitVec 4) (m : State) : Out :=
  .next (m.aluInstr n rd ra rb st x 0x01 true fun _ a b => subOut a b true)

/-- ADC: ra + rb + C (R154). -/
def execAdc (n : Core) (rd ra rb : RegN) (st : Bool) (x : BitVec 4) (m : State) : Out :=
  .next (m.aluInstr n rd ra rb st x 0x02 true fun f a b => addOut a b f.c)

/-- SBC: ra - rb - (1 - C) (R154, R155). -/
def execSbc (n : Core) (rd ra rb : RegN) (st : Bool) (x : BitVec 4) (m : State) : Out :=
  .next (m.aluInstr n rd ra rb st x 0x03 true fun f a b => subOut a b f.c)

/-- AND (R154). -/
def execAnd (n : Core) (rd ra rb : RegN) (st : Bool) (x : BitVec 4) (m : State) : Out :=
  .next (m.aluInstr n rd ra rb st x 0x04 true fun f a b => nzOut f (a &&& b))

/-- OR (R154). -/
def execOr (n : Core) (rd ra rb : RegN) (st : Bool) (x : BitVec 4) (m : State) : Out :=
  .next (m.aluInstr n rd ra rb st x 0x05 true fun f a b => nzOut f (a ||| b))

/-- XOR (R154). -/
def execXor (n : Core) (rd ra rb : RegN) (st : Bool) (x : BitVec 4) (m : State) : Out :=
  .next (m.aluInstr n rd ra rb st x 0x06 true fun f a b => nzOut f (a ^^^ b))

/-- ANDN: ra AND NOT rb (R154). -/
def execAndn (n : Core) (rd ra rb : RegN) (st : Bool) (x : BitVec 4) (m : State) : Out :=
  .next (m.aluInstr n rd ra rb st x 0x07 true fun f a b => nzOut f (a &&& ~~~b))

/-- SHL by rb[4:0] (R154). -/
def execShl (n : Core) (rd ra rb : RegN) (st : Bool) (x : BitVec 4) (m : State) : Out :=
  .next (m.aluInstr n rd ra rb st x 0x08 true fun f a b => shlOut f a (b.toNat % 32))

/-- SHR by rb[4:0], zero fill (R154). -/
def execShr (n : Core) (rd ra rb : RegN) (st : Bool) (x : BitVec 4) (m : State) : Out :=
  .next (m.aluInstr n rd ra rb st x 0x09 true fun f a b => shrOut f a (b.toNat % 32))

/-- SAR by rb[4:0], sign fill (R154). -/
def execSar (n : Core) (rd ra rb : RegN) (st : Bool) (x : BitVec 4) (m : State) : Out :=
  .next (m.aluInstr n rd ra rb st x 0x0A true fun f a b => sarOut f a (b.toNat % 32))

/-- ROR by rb[4:0] (R154). -/
def execRor (n : Core) (rd ra rb : RegN) (st : Bool) (x : BitVec 4) (m : State) : Out :=
  .next (m.aluInstr n rd ra rb st x 0x0B true fun f a b => rorOut f a (b.toNat % 32))

/-- MUL: the low half of the product (R154). -/
def execMul (n : Core) (rd ra rb : RegN) (st : Bool) (x : BitVec 4) (m : State) : Out :=
  .next (m.aluInstr n rd ra rb st x 0x0C true fun f a b => mulOut f a b)

/-- MULHS: the high half of the signed product (R154). -/
def execMulhs (n : Core) (rd ra rb : RegN) (st : Bool) (x : BitVec 4) (m : State) : Out :=
  .next (m.aluInstr n rd ra rb st x 0x0D true fun f a b => mulhsOut f a b)

/-- MULHU: the high half of the unsigned product (R154). -/
def execMulhu (n : Core) (rd ra rb : RegN) (st : Bool) (x : BitVec 4) (m : State) : Out :=
  .next (m.aluInstr n rd ra rb st x 0x0E true fun f a b => mulhuOut f a b)

/-- DIV (R154, R156). -/
def execDiv (n : Core) (rd ra rb : RegN) (st : Bool) (x : BitVec 4) (m : State) : Out :=
  .next (m.aluInstr n rd ra rb st x 0x10 true fun f a b => divOut f a b)

/-- DIVU (R154, R156). -/
def execDivu (n : Core) (rd ra rb : RegN) (st : Bool) (x : BitVec 4) (m : State) : Out :=
  .next (m.aluInstr n rd ra rb st x 0x11 true fun f a b => divuOut f a b)

/-- REM (R154, R156). -/
def execRem (n : Core) (rd ra rb : RegN) (st : Bool) (x : BitVec 4) (m : State) : Out :=
  .next (m.aluInstr n rd ra rb st x 0x12 true fun f a b => remOut f a b)

/-- REMU (R154, R156). -/
def execRemu (n : Core) (rd ra rb : RegN) (st : Bool) (x : BitVec 4) (m : State) : Out :=
  .next (m.aluInstr n rd ra rb st x 0x13 true fun f a b => remuOut f a b)

/-- MIN: the signed minimum (R154). -/
def execMin (n : Core) (rd ra rb : RegN) (st : Bool) (x : BitVec 4) (m : State) : Out :=
  .next (m.aluInstr n rd ra rb st x 0x14 true fun f a b => nzOut f (if a.slt b then a else b))

/-- MAX: the signed maximum (R154). -/
def execMax (n : Core) (rd ra rb : RegN) (st : Bool) (x : BitVec 4) (m : State) : Out :=
  .next (m.aluInstr n rd ra rb st x 0x15 true fun f a b => nzOut f (if a.slt b then b else a))

/-- MINU: the unsigned minimum (R154). -/
def execMinu (n : Core) (rd ra rb : RegN) (st : Bool) (x : BitVec 4) (m : State) : Out :=
  .next (m.aluInstr n rd ra rb st x 0x16 true fun f a b => nzOut f (if a.ult b then a else b))

/-- MAXU: the unsigned maximum (R154). -/
def execMaxu (n : Core) (rd ra rb : RegN) (st : Bool) (x : BitVec 4) (m : State) : Out :=
  .next (m.aluInstr n rd ra rb st x 0x17 true fun f a b => nzOut f (if a.ult b then b else a))

/-- CLZ: rb must be 0 (R154). -/
def execClz (n : Core) (rd ra rb : RegN) (st : Bool) (x : BitVec 4) (m : State) : Out :=
  .next (m.aluInstr n rd ra rb st x 0x18 (rb == 0) fun f a _ => nzOut f (BitVec.ofNat 32 (clzOf a)))

/-- SEXTB: rb must be 0 (R154). -/
def execSextb (n : Core) (rd ra rb : RegN) (st : Bool) (x : BitVec 4) (m : State) : Out :=
  .next (m.aluInstr n rd ra rb st x 0x19 (rb == 0) fun f a _ => nzOut f ((a.truncate 8).signExtend 32))

/-- SEXTH: rb must be 0 (R154). -/
def execSexth (n : Core) (rd ra rb : RegN) (st : Bool) (x : BitVec 4) (m : State) : Out :=
  .next (m.aluInstr n rd ra rb st x 0x1A (rb == 0) fun f a _ => nzOut f ((a.truncate 16).signExtend 32))

/-- CSEL: ra if the condition in fn[9:6] holds, else rb; S must be 0 and condition 0xF is ILLEGAL (R152, R154, R164). -/
def execCsel (n : Core) (rd ra rb : RegN) (st : Bool) (x : BitVec 4) (m : State) : Out :=
  .next (m.instr n (formA 0x01 rd ra rb st x 0x1B) 4 (!st && x != 0xF#4) fun m => m.onCore n fun c =>
    (c.ww rd (if condHolds c.flags x then c.rw ra else c.rw rb)).adv 4)

/-- MFF: the flags into bits 3:0; ra, rb and S must be 0 (R141, R154). -/
def execMff (n : Core) (rd ra rb : RegN) (st : Bool) (x : BitVec 4) (m : State) : Out :=
  .next (m.aluInstr n rd ra rb st x 0x1C (!st && ra == 0 && rb == 0) fun f _ _ => ⟨f.word, f⟩)

/-- MTF: the flags from ra[3:0]; rd, rb and S must be 0 (R154). -/
def execMtf (n : Core) (rd ra rb : RegN) (st : Bool) (x : BitVec 4) (m : State) : Out :=
  .next (m.instr n (formA 0x01 rd ra rb st x 0x1D) 4 (x == 0#4 && !st && rd == 0 && rb == 0) fun m => m.onCore n fun c =>
    ({ c with flags := Flags.ofWord (c.rw ra) }).adv 4)

/-- The shift SHI selects: SHL, SHR, SAR or ROR (R157). -/
def shiOut (f : Flags) (a : Word) (sel k : Nat) : AluOut :=
  match sel with
  | 0 => shlOut f a k
  | 1 => shrOut f a k
  | 2 => sarOut f a k
  | _ => rorOut f a k

/-- ADDI (R157). -/
def execAddi (n : Core) (rd ra : RegN) (imm : BitVec 16) (m : State) : Out :=
  .next (m.immInstr n 0x02 rd ra imm true false fun _ a => addOut a (imm.signExtend 32) false)

/-- ADDIS: flags as ADD (R157). -/
def execAddis (n : Core) (rd ra : RegN) (imm : BitVec 16) (m : State) : Out :=
  .next (m.immInstr n 0x03 rd ra imm true true fun _ a => addOut a (imm.signExtend 32) false)

/-- CMPI: flags as SUB; rd must be 0 (R157). -/
def execCmpi (n : Core) (rd ra : RegN) (imm : BitVec 16) (m : State) : Out :=
  .next (m.immInstr n 0x04 rd ra imm (rd == 0) true fun _ a => subOut a (imm.signExtend 32) true)

/-- ANDI (R157). -/
def execAndi (n : Core) (rd ra : RegN) (imm : BitVec 16) (m : State) : Out :=
  .next (m.immInstr n 0x05 rd ra imm true false fun f a => nzOut f (a &&& imm.zeroExtend 32))

/-- ORI (R157). -/
def execOri (n : Core) (rd ra : RegN) (imm : BitVec 16) (m : State) : Out :=
  .next (m.immInstr n 0x06 rd ra imm true false fun f a => nzOut f (a ||| imm.zeroExtend 32))

/-- XORI (R157). -/
def execXori (n : Core) (rd ra : RegN) (imm : BitVec 16) (m : State) : Out :=
  .next (m.immInstr n 0x07 rd ra imm true false fun f a => nzOut f (a ^^^ imm.zeroExtend 32))

/-- SHI: imm16[6:5] selects the shift, imm16[4:0] the amount, imm16[15:7] must be 0 (R157). -/
def execShi (n : Core) (rd ra : RegN) (imm : BitVec 16) (m : State) : Out :=
  .next (m.immInstr n 0x08 rd ra imm (imm.toNat < 128) false fun f a => shiOut f a (imm.toNat / 32 % 4) (imm.toNat % 32))

/-- LUI: ra must be 0 (R157). -/
def execLui (n : Core) (rd ra : RegN) (imm : BitVec 16) (m : State) : Out :=
  .next (m.immInstr n 0x09 rd ra imm (ra == 0) false fun f _ => nzOut f (imm.zeroExtend 32 <<< 16))

/-- LI: ra must be 0 (R188). -/
def execLi (n : Core) (rd ra : RegN) (zero : BitVec 10) (imm : Word) (m : State) : Out :=
  .next (m.longInstr n 0x01 rd ra zero (ra == 0) false fun f _ => nzOut f imm)

/-- ADDL (R188). -/
def execAddl (n : Core) (rd ra : RegN) (zero : BitVec 10) (imm : Word) (m : State) : Out :=
  .next (m.longInstr n 0x02 rd ra zero true false fun _ a => addOut a imm false)

/-- ANDL (R188). -/
def execAndl (n : Core) (rd ra : RegN) (zero : BitVec 10) (imm : Word) (m : State) : Out :=
  .next (m.longInstr n 0x03 rd ra zero true false fun f a => nzOut f (a &&& imm))

/-- ORL (R188). -/
def execOrl (n : Core) (rd ra : RegN) (zero : BitVec 10) (imm : Word) (m : State) : Out :=
  .next (m.longInstr n 0x04 rd ra zero true false fun f a => nzOut f (a ||| imm))

/-- XORL (R188). -/
def execXorl (n : Core) (rd ra : RegN) (zero : BitVec 10) (imm : Word) (m : State) : Out :=
  .next (m.longInstr n 0x05 rd ra zero true false fun f a => nzOut f (a ^^^ imm))

/-- CMPL: flags as SUB; rd must be 0 (R188). -/
def execCmpl (n : Core) (rd ra : RegN) (zero : BitVec 10) (imm : Word) (m : State) : Out :=
  .next (m.longInstr n 0x06 rd ra zero (rd == 0) true fun _ a => subOut a imm true)

end Sys2Proof.Machine
end

