-- ==== Sys2Proof/Machine/Entry.lean ====
section
/-!
DEFINITION. A channel-table entry as bytes: its fields, the tables of ranges, rates and filters, its validity and its
charge (R349 to R364, R411 to R423, R454, R490, R501).
-/

namespace Sys2Proof.Machine

/-! ## Fields (R412 to R423) -/

/-- A field of an entry: `n` bytes at offset `o`; an empty list is an entry of zeros (R434). -/
def eF (e : List Byte) (o n : Nat) : Nat := bytesAt e o n

def eMode (e : List Byte) : Nat := eF e 0 1
def eEnable (e : List Byte) : Bool := bitAt (eF e 1 1) 0
def eGen (e : List Byte) : Nat := eF e 2 2
def eSafeVal (e : List Byte) : Word := BitVec.ofNat 32 (eF e 4 4)
def eRange (e : List Byte) : Nat := eF e 0x10 1
def eRate (e : List Byte) : Nat := eF e 0x11 1
def eFlags (e : List Byte) : Nat := eF e 0x12 2
def eLoopPwr (e : List Byte) : Bool := bitAt (eFlags e) 0
def eEuScale (e : List Byte) : Bool := bitAt (eFlags e) 1
def eNoRot (e : List Byte) : Bool := bitAt (eFlags e) 2
def eInvert (e : List Byte) : Bool := bitAt (eFlags e) 0
def eEuLo (e : List Byte) : Int := signed 32 (eF e 0x14 4)
def eEuHi (e : List Byte) : Int := signed 32 (eF e 0x18 4)
def eLeadRes (e : List Byte) : Nat := eF e 0x1C 2
def eCjSrc (e : List Byte) : Nat := eF e 0x1E 2
def eTrimEn (e : List Byte) : Bool := bitAt (eF e 0x30 4) 0
def eC1 (e : List Byte) : Int := signed 32 (eF e 0x20 4)
def eM1 (e : List Byte) : Int := signed 32 (eF e 0x24 4)
def eC2 (e : List Byte) : Int := signed 32 (eF e 0x28 4)
def eM2 (e : List Byte) : Int := signed 32 (eF e 0x2C 4)
def eSource (e : List Byte) : Nat := eF e 0x40 1
def ePolicy (e : List Byte) : Nat := eF e 0x41 1
def eTask (e : List Byte) : Nat := eF e 0x42 1
def eEdge (e : List Byte) : Nat := eF e 0x43 1
def eAdvance (e : List Byte) : Nat := eF e 0x44 2
def eTslot (e : List Byte) : Nat := eF e 0x46 2
def eStage (e : List Byte) : Nat := eF e 0x50 2 % 2048
def eBind (e : List Byte) : Bool := bitAt (eF e 0x50 2) 15
def eCmpEn (e : List Byte) : Bool := bitAt (eF e 0x60 1) 0
def eDiEn (e : List Byte) : Bool := bitAt (eF e 0x60 1) 1
def ePair (e : List Byte) : Nat := eF e 0x62 1
def eCmpLo (e : List Byte) : Nat := eF e 0x64 2
def eCmpHi (e : List Byte) : Nat := eF e 0x66 2
def eCmpHyst (e : List Byte) : Nat := eF e 0x68 2
def eCmpFilt (e : List Byte) : Nat := eF e 0x6A 2
def eHartEn (e : List Byte) : Bool := bitAt (eF e 0x70 1) 0
def eLimEn (e : List Byte) : Bool := bitAt (eF e 0x96 2) 0
def eLimHi (e : List Byte) : Int := signed 32 (eF e 0x98 4)
def eLimLo (e : List Byte) : Int := signed 32 (eF e 0x9C 4)
def eLimHyst (e : List Byte) : Int := signed 32 (eF e 0xA0 4)

/-- DO_PAIRED. -/
def mPaired : Nat := 7

/-- DO_SAFE. -/
def mSafe : Nat := 8

/-! ## Ranges (R349) -/

/-- The range an entry runs in: range 0x00 while it is disabled or in a digital mode (R414). -/
def eActive (e : List Byte) : Nat := if eEnable e && eMode e == 0 then eRange e else 0

/-- A thermocouple range. -/
def isTc (r : Nat) : Bool := decide (0x18 ≤ r ∧ r ≤ 0x1F)

/-- An RTD or resistance range. -/
def isRtd (r : Nat) : Bool := decide (0x10 ≤ r ∧ r ≤ 0x16)

/-- An analogue output range. -/
def isAo (r : Nat) : Bool := r == 0x20 || r == 0x21 || r == 0x22 || r == 0x28 || r == 0x29

/-- A HART range (R399). -/
def isHart (r : Nat) : Bool := r == 0x03 || r == 0x04 || r == 0x22

/-- A digital output mode: DO_HIGH to DO_SAFE. -/
def isDo (m : Nat) : Bool := decide (4 ≤ m ∧ m ≤ 8)

/-- A digital input mode. -/
def isDi (m : Nat) : Bool := m == 1 || m == 2

/-- Nominal range and measurable or commandable range in tenths of the range's unit (R349); of a thermocouple the
measurable range is that of its terminals, in mV. -/
def rangeSpan (r : Nat) : Option (Int × Int × Int × Int) :=
  match r with
  | 0x01 | 0x03 | 0x20 | 0x22 => some (40, 200, 0, 240)
  | 0x02 | 0x21 => some (0, 200, 0, 240)
  | 0x04 => some (0, 240, 0, 240)
  | 0x08 => some (0, 100, -5, 120)
  | 0x09 => some (-100, 100, -120, 120)
  | 0x0A => some (-10, 10, -12, 12)
  | 0x0B => some (-1000, 1000, -1200, 1200)
  | 0x10 => some (0, 4000, 0, 4800)
  | 0x11 => some (0, 40000, 0, 48000)
  | 0x12 | 0x13 | 0x14 | 0x15 | 0x16 => some (-2000, 8500, -2200, 8800)
  | 0x18 => some (-2100, 12000, -1200, 1200)
  | 0x19 => some (-2700, 13720, -1200, 1200)
  | 0x1A => some (-2700, 13000, -1200, 1200)
  | 0x1B => some (-2700, 4000, -1200, 1200)
  | 0x1C => some (-2700, 10000, -1200, 1200)
  | 0x1D | 0x1E => some (-500, 17680, -1200, 1200)
  | 0x1F => some (0, 18200, -1200, 1200)
  | 0x28 => some (0, 100, 0, 110)
  | 0x29 => some (-100, 100, -110, 110)
  | _ => none

/-- The settling of the front end after a range change in ns (R359). -/
def settleNs (r : Nat) : Nat :=
  if 0x01 ≤ r ∧ r ≤ 0x04 then 2000000
  else if 0x08 ≤ r ∧ r ≤ 0x0A then 1000000
  else if r = 0x0B ∨ isTc r then 10000000
  else if isRtd r then 20000000
  else 0

/-- The rate of a rate code in samples per second (R364). -/
def rateHz (code : Nat) : Nat := [10, 50, 60, 100, 250, 1000, 4000, 8000, 16000, 32000].getD code 10

/-- The filter window 3 / f in ns (R364). -/
def windowNs (e : List Byte) : Nat := 3000000000 / rateHz (eRate e)

/-- The filter time of a DFILT code in ns (R454). -/
def dfiltNs (code : Nat) : Nat :=
  [0, 100000, 500000, 1000000, 3000000, 10000000, 20000000, 50000000, 100000000].getD code 0

/-! ## Exact ratios -/

/-- A ratio of integers; the denominator is never zero where it is used. -/
structure Frac where
  num : Int
  den : Int
  deriving DecidableEq, Repr

/-- The same ratio with a positive denominator. -/
def Frac.norm (q : Frac) : Frac := if q.den < 0 then ⟨-q.num, -q.den⟩ else q

def Frac.add (a b : Frac) : Frac := (⟨a.num * b.den + b.num * a.den, a.den * b.den⟩ : Frac).norm
def Frac.mul (a b : Frac) : Frac := (⟨a.num * b.num, a.den * b.den⟩ : Frac).norm
def Frac.ofInt (i : Int) : Frac := ⟨i, 1⟩

/-- a < b. -/
def Frac.lt (a b : Frac) : Bool := decide (a.norm.num * b.norm.den < b.norm.num * a.norm.den)

/-- The ratio rounded to nearest, ties to even. -/
def Frac.round (q : Frac) : Int :=
  let q := q.norm
  let f : Int := q.num / q.den
  let r2 : Int := 2 * (q.num - f * q.den)
  if q.den < r2 ∨ (r2 = q.den ∧ f.emod 2 = 1) then f + 1 else f

/-! ## Value words (R352 to R354) -/

/-- A signed value held in 32 bits (R354). -/
def sat32 (v : Int) : Word := BitVec.ofInt 32 (clampInt (-2147483648) 2147483647 v)

/-- The value word of a measured value given in 2^-32 of the range's unit (R352 to R354). -/
def valueWord (e : List Byte) (x : Int) : Word :=
  match rangeSpan (eRange e) with
  | none => 0#32
  | some (nlo, nhi, _, _) =>
    if eEuScale e then
      sat32 ((Frac.ofInt (eEuLo e)).add ⟨(10 * x - nlo * 2 ^ 32) * (eEuHi e - eEuLo e), (nhi - nlo) * 2 ^ 32⟩).round
    else sat32 (⟨x, 65536⟩ : Frac).round

/-- The value an output word commands, in the range's unit (R353). -/
def commandOf (e : List Byte) (w : Word) : Frac :=
  match rangeSpan (eRange e) with
  | none => ⟨0, 1⟩
  | some (nlo, nhi, _, _) =>
    if eEuScale e then
      (⟨nlo, 10⟩ : Frac).add (⟨(w.toInt - eEuLo e) * (nhi - nlo), (eEuHi e - eEuLo e) * 10⟩ : Frac).norm
    else ⟨w.toInt, 65536⟩

/-- Whether the output trim is ignored (R395). -/
def trimBad (e : List Byte) : Bool :=
  match rangeSpan (eRange e) with
  | none => false
  | some (nlo, nhi, _, _) =>
    let span := (nhi - nlo) * 65536
    let e1 := eC1 e - eM1 e
    let e2 := eC2 e - eM2 e
    eTrimEn e && (decide ((eC2 e - eC1 e) * 40 < span) || decide (span < (e1.natAbs : Int) * 2000) ||
      decide (span < (e2.natAbs : Int) * 2000))

/-- The command with the trim of R394. -/
def trimmed (e : List Byte) (x : Frac) : Frac :=
  if !eTrimEn e || trimBad e then x
  else
    let e1 := eC1 e - eM1 e
    let e2 := eC2 e - eM2 e
    (x.add ⟨e1, 65536⟩).add ((x.add ⟨-eC1 e, 65536⟩).mul ⟨e2 - e1, eC2 e - eC1 e⟩)

/-- What the DAC drives for a word, in 2^-32 of the range's unit rounded down, and whether it was clamped (R387). -/
def driveOf (e : List Byte) (w : Word) : Int × Bool :=
  match rangeSpan (eRange e) with
  | none => (0, false)
  | some (_, _, lo, hi) =>
    let x := trimmed e (commandOf e w)
    if x.lt ⟨lo, 10⟩ then (lo * 2 ^ 32 / 10, true)
    else if (⟨hi, 10⟩ : Frac).lt x then (hi * 2 ^ 32 / 10, true)
    else (x.norm.num * 2 ^ 32 / x.norm.den, false)

/-! ## Sensor curves (R349, R350, R358, R360) -/

/-- Whether an entry supplies loop power (R350, R359). -/
def ePowersLoop (e : List Byte) : Bool := eLoopPwr e && decide (1 ≤ eActive e ∧ eActive e ≤ 4)

/-- The resistance of an RTD range at 0 °C, in mΩ. -/
def rtdR0 (r : Nat) : Int := if r = 0x15 ∨ r = 0x16 then 1000000 else 100000

/-- R(t) / R(0) of IEC 60751:2022 times 10^15 × 2^128, for t in 2^-32 °C (log entry 113). -/
def rtdCurve (t : Int) : Int :=
  let u : Int := 2 ^ 32
  10 ^ 15 * u ^ 4 + 3908300000000 * t * u ^ 3 - 577500000 * t ^ 2 * u ^ 2 - (if t < 0 then 4183 * (t - 100 * u) * t ^ 3 else 0)

/-- Halves an interval of 2^n steps above `lo` down to the last temperature whose resistance is not above `m` (2^-32 mΩ). -/
def rtdSearch (r0 m lo : Int) : Nat → Int
  | 0 => lo
  | n + 1 => if r0 * rtdCurve (lo + 2 ^ n) ≤ m * 10 ^ 15 * 2 ^ 96 then rtdSearch r0 m (lo + 2 ^ n) n else rtdSearch r0 m lo n

/-- The resistance of the sensor in 2^-32 mΩ for the one at the terminals in 2^-32 Ω: a 2-wire range takes its lead resistance off (R350). -/
def sensorOhms (e : List Byte) (signal : Int) : Int :=
  signal * 1000 - (if eRange e = 0x14 ∨ eRange e = 0x16 then (eLeadRes e : Int) * 2 ^ 32 else 0)

/-- Whether an RTD or resistance range reads below 10 % of its nominal low end plus 1 Ω; an RTD's low end is its resistance at -200 °C (R358, log entry
113). -/
def readsShort (e : List Byte) (signal : Int) : Bool :=
  let above := sensorOhms e signal - 1000 * 2 ^ 32
  if eRange e ≤ 0x11 then decide (above < 0)
  else decide (above * 10 * 10 ^ 15 * 2 ^ 96 < rtdR0 (eRange e) * rtdCurve (-200 * 2 ^ 32))

/-- The value an entry's range makes of the signal at the terminals, in 2^-32 of the range's unit: of an RTD the temperature on the curve, of a
thermocouple the temperature whose emf is the terminal voltage with that of the cold junction added (R349, R350). -/
def measured (e : List Byte) (signal cold : Int) : Int :=
  let r := eRange e
  if 0x12 ≤ r ∧ r ≤ 0x16 then rtdSearch (rtdR0 r) (sensorOhms e signal) (-273 * 2 ^ 32) 43
  else if isTc r then Config.tcCelsius r (signal + Config.tcEmf r cold)
  else signal

/-! ## Charges (R490) -/

/-- The charge of an entry in mW. -/
def charge (chan : Nat) (e : List Byte) : Nat :=
  let r := eRange e
  if !eEnable e then 0
  else match eMode e with
    | 0 =>
      if 0x01 ≤ r ∧ r ≤ 0x04 then (if eLoopPwr e then 780 else 30)
      else if r = 0x28 ∨ r = 0x29 then 600
      else if isAo r then 1350
      else if r = 0 then 0
      else 10
    | 1 => 40
    | 2 => 440
    | 4 | 5 => 200
    | 6 => 230
    | 7 => if chan % 2 = 0 then 900 else 0
    | 8 => 250
    | _ => 0

/-! ## Validity (R351, R411 to R423, R454, R456, R501) -/

/-- Whether bytes `o` to `o + n` of an entry are 0. -/
def eZero (e : List Byte) (o n : Nat) : Bool := eF e o n == 0

/-- The header block (R412, R413). -/
def headerOk (e : List Byte) : Bool :=
  let m := eMode e
  (m != 3 && decide (m ≤ 8)) && decide (eF e 1 1 < 2) && eZero e 8 8 &&
    (!(decide (4 ≤ m ∧ m ≤ 7)) || decide (eF e 4 4 < 2))

/-- CJSRC of a thermocouple range: `rtd` says which channels of this module are in ranges 0x10 to 0x16 (R350, R351). -/
def cjOk (e : List Byte) (rtd : Nat → Bool) : Bool :=
  let s := eCjSrc e
  s == 0xFFFF || decide (s < 0x8000) || (decide (s / 1024 % 32 = 0) && rtd (s % 1024))

/-- What R351 asks of an analogue entry: its range-and-filter block, and a trigger source that is not reserved (R350, R368). -/
def analogOk (e : List Byte) (rtd : Nat → Bool) : Bool :=
  let r := eRange e
  (r == 0 || (rangeSpan r).isSome) && decide (eRate e ≤ 9) && decide (eFlags e < 8) &&
    !(eEuScale e && eEuLo e == eEuHi e) && !(isHart r && decide (3 < eRate e)) &&
    !(eLoopPwr e && !(decide (1 ≤ r ∧ r ≤ 4))) && (!isTc r || cjOk e rtd) && decide (eSource e ≤ 4)

/-- The rest of the trigger block of an analogue entry (R368, R371, R416). -/
def triggerOk (e : List Byte) : Bool :=
  decide (ePolicy e ≤ 2) && eZero e 0x48 8 &&
    !(eSource e == 1 && (decide (15 < eTask e) || eAdvance e == 0)) && !(eSource e == 2 && decide (255 < eTslot e)) &&
    !(eSource e == 4 && decide (eEdge e / 64 = 3))

/-- The range-and-filter block of a digital entry (R415, R454, R456). -/
def digitalOk (e : List Byte) : Bool :=
  eRange e == 0 && decide (eF e 0x11 1 ≤ 8) && decide (eFlags e < 2) && eZero e 0x14 12 &&
    (isDi (eMode e) || (eFlags e == 0 && eF e 0x11 1 == 0))

/-- The trim block (R393). -/
def trimOk (e : List Byte) : Bool := decide (eF e 0x30 4 < 2) && eZero e 0x34 12

/-- The reserved fields of the loop-binding block (R417). -/
def loopOk (e : List Byte) : Bool := decide (eF e 0x50 2 / 2048 % 16 = 0) && eZero e 0x52 14

/-- The HART block (R422). -/
def hartOk (e : List Byte) : Bool :=
  let r := if eMode e = 0 then eRange e else 0
  decide (eF e 0x70 1 < 2) && decide (eF e 0x71 1 ≤ 63) && (decide (eF e 0x72 1 ≤ 7) || eF e 0x72 1 == 0xFF) &&
    (eF e 0x73 1 == 0 || decide (5 ≤ eF e 0x73 1 ∧ eF e 0x73 1 ≤ 20)) &&
    (if r = 4 then decide (1 ≤ eF e 0x74 1 ∧ eF e 0x74 1 ≤ 5) else eF e 0x74 1 == 0) && eZero e 0x75 3 && eZero e 0x7D 19 &&
    !(eHartEn e && !isHart r)

/-- The thresholds block (R423); the limits are checked where LIMEN uses them (log entry 25). -/
def thresholdsOk (e : List Byte) : Bool :=
  decide (0 ≤ signed 32 (eF e 0x90 4)) && (eF e 0x94 2 == 0 || decide (10 ≤ eF e 0x94 2 ∧ eF e 0x94 2 ≤ 10000)) &&
    decide (eF e 0x96 2 < 2) && (!eLimEn e || (decide (eLimLo e < eLimHi e) && decide (0 ≤ eLimHyst e))) && eZero e 0xA6 10

/-- A range that may feed the matrix through its comparator (R501). -/
def isCmpRange (r : Nat) : Bool :=
  decide (1 ≤ r ∧ r ≤ 4) || decide (8 ≤ r ∧ r ≤ 0xB) || isRtd r || isTc r

/-- The safety-binding block but for the uniqueness of its PAIR (R420, R501). -/
def safetyOk (e : List Byte) : Bool :=
  let m := eMode e
  decide (eF e 0x60 1 < 4) && eZero e 0x61 1 && eZero e 0x63 1 && eZero e 0x6C 4 && decide (eCmpLo e ≤ eCmpHi e) &&
    !(eCmpEn e && !(m == 0 && isCmpRange (eRange e))) && !(eDiEn e && !isDi m) &&
    (if m = mSafe then decide (ePair e ≤ 127) else ePair e == 0xFF)

/-- Every block of an entry but what depends on other channels (R414, R428). -/
def entryOk (e : List Byte) (rtd : Nat → Bool) : Bool :=
  headerOk e && safetyOk e && (!eEnable e ||
    ((if eMode e = 0 then analogOk e rtd && triggerOk e else digitalOk e && eSource e == 0) && trimOk e && loopOk e && hartOk e && thresholdsOk e))

/-- Whether a load of `e` over the applied entry `a` is safety-relevant (R421). -/
def safetyRelevant (a e : List Byte) : Bool :=
  eF a 0x60 16 != eF e 0x60 16 || (eMode a != eMode e && (eMode a == mSafe || eMode e == mSafe)) ||
    (eRange a != eRange e && (eCmpEn a || eDiEn a || eCmpEn e || eDiEn e))

/-- Whether R417 is broken: BIND on anything but an analogue output range. -/
def bindBad (e : List Byte) : Bool := eEnable e && eBind e && !(eMode e == 0 && isAo (eRange e))

end Sys2Proof.Machine
end

