-- ==== Sys2Proof/Machine/Channel.lean ====
section
/-!
DEFINITION. The channels as the rest of the machine sees them: quality and status, samples, triggers and windows,
output writes, de-energising, and the application of an entry (R127 to R130, R357, R358, R364 to R374, R387 to R392,
R414, R418, R429 to R434, R467, R474, R475).
-/

namespace Sys2Proof.Machine

/-! ## Channels and groups of the machine -/

/-- A channel of this module, 0 to 511. -/
def Chip.chan (c : Chip) (i : Nat) : Chan := mapGet Chan.unused c.chans i

/-- Writes a channel. -/
def Chip.setChan (c : Chip) (i : Nat) (x : Chan) : Chip := { c with chans := mapSet Chan.unused c.chans i x }

/-- Changes a channel. -/
def Chip.onChan (c : Chip) (i : Nat) (f : Chan → Chan) : Chip := c.setChan i (f (c.chan i))

/-- A group, 0 to 7. -/
def Chip.grp (c : Chip) (g : Nat) : Grp := mapGet Grp.unused c.grps g

/-- Writes a group. -/
def Chip.setGrp (c : Chip) (g : Nat) (x : Grp) : Chip := { c with grps := mapSet Grp.unused c.grps g x }

/-- Changes a group. -/
def Chip.onGrp (c : Chip) (g : Nat) (f : Grp → Grp) : Chip := c.setGrp g (f (c.grp g))

/-- The group of a channel. -/
def groupOf (i : Nat) : Nat := i / 64

/-- The channels of a group. -/
def groupChans (g : Nat) : List Nat := (List.range 64).map (64 * g + ·)

/-- The island of a group. -/
def cgIsland (g : Nat) : Nat := 0x0A + g

/-- The global number of this module's channel 0 (R449). -/
def Chip.chanBase (c : Chip) : Nat := if 2 ≤ c.topo ∧ c.fld FX_STATION_POS = 2 then 512 else 0

/-- The channels that a station's window spans (R449). -/
def Chip.stationChans (c : Chip) : Nat := if 2 ≤ c.topo then 1024 else 512

/-- The number on this module of a global channel; none where the module does not carry it (R449). -/
def Chip.localChan (c : Chip) (g : Nat) : Option Nat :=
  if c.chanBase ≤ g ∧ g < c.chanBase + 512 then some (g - c.chanBase) else none

/-- Applies a change to every channel of a list. -/
def Chip.onChans (c : Chip) (f : Nat → Chip → Chip) : List Nat → Chip
  | [] => c
  | i :: is => (f i c).onChans f is

/-- Whether a channel's applied entry makes it an output, analogue or digital. -/
def Chan.isOutput (x : Chan) : Bool := isAo (eActive x.entry) || (eEnable x.entry && isDo (eMode x.entry))

/-! ## Status and quality (R357, R358, R474, R475) -/

/-- Bits of the analogue and digital status words. -/
def stOutsideMeas : Nat := 2
def stOpenLoadA : Nat := 3
def stRbdev : Nat := 4
def stOpenLoadD : Nat := 5
def stOutLim : Nat := 6
def stCfgRej : Nat := 7
def stRangeChg : Nat := 12
def stLateStart : Nat := 13
def stOverload : Nat := 2
def stOvertemp : Nat := 3

/-- The sticky bits of a channel's STATUS word (R358, R474). -/
def stickyBits (e : List Byte) : Nat := if eMode e = 0 then 2 ^ 7 + 2 ^ 13 else 2 ^ 7 + 2 ^ 8 + 2 ^ 9 + 2 ^ 11 + 2 ^ 12

/-- Sets or clears a stored status bit. -/
def Chan.setBit (x : Chan) (b : Nat) (v : Bool) : Chan :=
  { x with status := if v then x.status ||| 2 ^ b else x.status &&& (0xFFFF - 2 ^ b) }

/-- Whether shadow rotation skips a channel (R380). -/
def Chip.skipsRot (c : Chip) (i : Nat) : Bool :=
  let e := (c.chan i).entry
  let g := groupOf i
  !c.flag (CG_CALCTL_ROTEN g) || eNoRot e || (c.flag (CG_CALCTL_NOROT_RTD2 g) && (eRange e == 0x14 || eRange e == 0x16))

/-- The quality of an analogue channel from its status word and newest sample (R357). -/
def analogQuality (x : Chan) (status : Nat) : Nat :=
  match eActive x.entry, x.samples with
  | 0, _ | _, [] => 3
  | r, s :: _ =>
    if status % 64 ≠ 0 then 2
    else match rangeSpan r with
      | some (lo, hi, _, _) => if s.meas * 10 < lo * 2 ^ 32 ∨ hi * 2 ^ 32 < s.meas * 10 then 1 else 0
      | none => 3

/-- Whether the window of an analogue sample began after the channel's last change of range or rate. -/
def Chan.sinceChange (x : Chan) (stamp : Nat) : Bool := eMode x.entry != 0 || decide (x.readyAt + 6000 < stamp)

/-- The channel with the samples it has had since the last start and its last change of range or rate: the others count for no QUALITY (R357). -/
def Chip.sinceStart (c : Chip) (x : Chan) : Chan :=
  { x with samples := x.samples.filter fun s => decide (c.cyc.startAt ≤ s.stamp) && x.sinceChange s.stamp }

/-- Whether the cold-junction source of a thermocouple channel has QUALITY 2 or 3 (R358). -/
def Chip.cjFault (c : Chip) (e : List Byte) : Bool :=
  isTc (eActive e) && eCjSrc e != 0xFFFF && decide (0x8000 ≤ eCjSrc e) &&
    match c.localChan (eCjSrc e % 1024) with
    | some j => decide (2 ≤ analogQuality (c.sinceStart (c.chan j)) (c.chan j).status)
    | none => true

/-- The status word of a channel: the bits it stores and those that follow its entry and its group. -/
def Chip.statusWord (c : Chip) (i : Nat) : Nat :=
  let x := c.chan i
  let g := groupOf i
  let e := x.entry
  if eMode e = 0 then
    x.status ||| (b2n (c.cjFault e) * 2 ^ 5 + b2n (isAo (eActive e) && trimBad e) * 2 ^ 8 +
      b2n (c.flag (CG_CALSTAT_FROZEN g)) * 2 ^ 9 + b2n (c.skipsRot i) * 2 ^ 10 +
      b2n (c.flag (CG_CALSTAT_REFWARN g)) * 2 ^ 11)
  else x.status ||| (b2n (c.flag (CG_FPSTAT_MISSING g)) + b2n (c.flag (CG_FPSTAT_LOW g)) * 2 +
      b2n (c.flag (CG_LINKSTAT_SAFE g)) * 2 ^ 10)

/-- QUALITY of a channel (R357, R475). -/
def Chip.quality (c : Chip) (i : Nat) : Nat :=
  let x := c.sinceStart (c.chan i)
  let s := c.statusWord i
  if eMode x.entry = 0 then analogQuality x s
  else if !eEnable x.entry || x.samples.isEmpty then 3
  else if s &&& 0x41D ≠ 0 then 2
  else if bitAt s 1 then 1
  else 0

/-- The value word of a channel: its newest sample's. -/
def Chan.value (x : Chan) : Word := match x.samples with
  | [] => 0#32
  | s :: _ => s.value

/-- The newest sample stamped before a boundary (R38). -/
def Chan.before (x : Chan) (b : Nat) : Option Sample := x.samples.find? fun s => decide (s.stamp < b)

/-- The newest sample stamped at or before a loop-engine frame start (R306). -/
def Chan.upTo (x : Chan) (t : Nat) : Option Sample := x.samples.find? fun s => decide (s.stamp ≤ t)

/-- A sample becomes available (R365); the two newest are kept. -/
def Chan.push (x : Chan) (s : Sample) : Chan := { x with samples := s :: x.samples.take 1 }

/-! ## Counters of a channel (R372, R447, R691) -/

/-- What a wrap of OVRCNT (kind 1) or IGNCNT (kind 2) leaves. -/
def Chip.chanWrapped (c : Chip) (i kind : Nat) : Chip :=
  (c.onChan i fun x => { x with cntOvf := x.cntOvf ||| kind }).raise 0x1B01 2 (cgIsland (groupOf i))
    (toBytes 1 (cgIsland (groupOf i)) ++ toBytes 1 kind ++ toBytes 2 (c.chanBase + i))

/-- Counts a lost trigger (R372). -/
def Chip.bumpOvr (c : Chip) (i : Nat) : Chip :=
  let v := (c.chan i).ovr + 1
  let c := c.onChan i fun x => { x with ovr := v % 2 ^ 64 }
  if 2 ^ 64 ≤ v then c.chanWrapped i 1 else c

/-- Counts an ignored image write (R42, R418, R467). -/
def Chip.bumpIgn (c : Chip) (i : Nat) : Chip :=
  let v := (c.chan i).ign + 1
  let c := c.onChan i fun x => { x with ign := v % 2 ^ 64 }
  if 2 ^ 64 ≤ v then c.chanWrapped i 2 else c

/-! ## Windows and triggers (R368 to R374) -/

/-- Runs a triggered channel's windows up to an instant: a window that has ended waits for its delivery, and a pending
trigger's window follows it, started late (R371, R372). -/
def Chan.runWindow (x : Chan) (t : Nat) : Nat → Chan
  | 0 => x
  | fuel + 1 =>
    match x.window with
    | none => x
    | some (_, stop) =>
      if t < stop then x
      else
        let x := { x with ended := x.ended ++ [stop + 6000], window := none }
        if x.queued then
          (({ x with window := some (stop, stop + windowNs x.entry), queued := false }).setBit stLateStart true).runWindow t fuel
        else x

/-- A trigger arrives at an instant (R369 to R372, R374). -/
def Chip.trigger (c : Chip) (i a : Nat) : Chip :=
  let x := c.chan i
  if a < x.readyAt then c
  else
    let slot := a / 25
    let x1 := x.runWindow (slot * 25 + 24) 2
    let merged := x1.lastArr == some slot
    let x2 := { x1 with lastArr := some slot }
    let c := c.setChan i x2
    if merged then c.bumpOvr i
    else match x2.window with
      | none => c.onChan i fun x => { x with window := some (a, a + windowNs x.entry) }
      | some _ => match ePolicy x2.entry with
        | 0 => if x2.queued then c.bumpOvr i else c.onChan i fun x => { x with queued := true }
        | 2 => (c.onChan i fun x => { x with window := some (a, a + windowNs x.entry) }).bumpOvr i
        | _ => c.bumpOvr i

/-- Puts the arrival of a trigger on a channel's list (R369). -/
def Chip.schedule (c : Chip) (i a : Nat) : Chip := c.onChan i fun x => { x with arrivals := x.arrivals ++ [a] }

/-- A trigger whose timestamp is given: its arrival, or nothing where that has passed (R368, R373). -/
def Chip.scheduleStamp (c : Chip) (i stamp : Nat) : Chip :=
  let back := 6000 + windowNs (c.chan i).entry
  if back ≤ stamp ∧ c.mono ≤ stamp - back then c.schedule i (stamp - back) else c

/-- The newest sample instant of a continuous channel that is not after `t` (R367). -/
def gridStamp (hz t : Nat) : Nat := (((t + 1) * hz - 1) / 1000000000) * 1000000000 / hz

/-! ## Outputs -/

/-- Takes every output of a list of channels to its de-energised state (R127, R478, R486). -/
def Chip.deenergise (c : Chip) (is : List Nat) : Chip :=
  c.onChans (fun i c => c.onChan i fun x =>
    { x with queue := [], want := none, sent := none, got := none, term := none, drive := 0, ramp := none }) is

/-- A write of an output by the image drain, or by a stage (R42, R418, R419, R467): the word waits for the first link
frame that starts at or after `t`. False where the stage does not drive the channel. -/
def Chip.writeOutput (c : Chip) (i : Nat) (w : Word) (t : Nat) (stage : Option Nat) : Bool × Chip :=
  let x := c.chan i
  let e := x.entry
  let put : Chip := c.onChan i fun x => { x with queue := x.queue ++ [(t, w)] }
  match stage with
  | some n => if isAo (eActive e) && eBind e && eStage e == n then (true, put) else (false, c)
  | none =>
    if !x.isOutput then (false, c)
    else if (eMode e == 0 && eBind e) || (eMode e == mPaired && i % 2 == 1) then (false, c.bumpIgn i)
    else (true, put)

/-- Whether the module is in a mode in which outputs take their safe values (R80, R81). -/
def Chip.safeMode (c : Chip) : Bool := c.mode == 2 || c.mode == 3 || c.mode == 7

/-- The programmed safe value of an output that has been written (R81); a DO_PAIRED pair takes the even channel's
(R467); a DO_SAFE channel's is 0 (R515). -/
def Chip.safeValue (c : Chip) (i : Nat) : Word :=
  let e := (c.chan i).entry
  if eMode e = mSafe then 0#32 else if eMode e = mPaired ∧ i % 2 = 1 then eSafeVal (c.chan (i - 1)).entry else eSafeVal e

/-- Whether an output has been written since it was last de-energised; a write that still waits for its frame is one (R81). -/
def Chan.written (x : Chan) : Bool := x.want.isSome || !x.queue.isEmpty

/-- Every output written since it was last de-energised takes its safe value (R81, R82). The spec names channels that service software forces in SERVICE
(R80) and gives no register or command that forces one: the model has no forced channel (log entry 100). -/
def Chip.outputsSafe (c : Chip) : Chip :=
  c.onChans (fun i c => if (c.chan i).isOutput && (c.chan i).written then
    c.onChan i fun x => { x with want := some (c.safeValue i), queue := [] } else c) (c.chans.map Prod.fst)

/-- What the terminals of an output carry for a received command: the DAC's drive in an analogue range, the switch state
in a digital mode, with the trips of R465 and R466 (R387). -/
def Chan.drives (x : Chan) (cmd : Option Word) : Chan :=
  match cmd with
  | none => { x with term := none, drive := 0 }
  | some w =>
    if eMode x.entry = 0 then
      let (d, lim) := driveOf x.entry w
      ({ x with term := some w, drive := d }).setBit stOutLim lim
    else
      let tripped := bitAt x.status stOverload || bitAt x.status stOvertemp
      let on := !tripped && w.getLsbD 0
      { (x.setBit stOpenLoadD (bitAt x.status stOpenLoadD && w.getLsbD 0)) with term := some (if on then 1#32 else 0#32), drive := 0 }

/-- The ramp of a range change has ended by `t`: the value held during it applies in the new range (R128, R129, R391,
R392). -/
def Chan.endRamp (x : Chan) (t : Nat) : Chan :=
  match x.ramp with
  | none => x
  | some r =>
    if t / 25 ≤ r.stop / 25 then x
    else match r.held with
      | none => { x with ramp := none }
      | some w => (({ x with ramp := none }).drives (some w)).setBit stRangeChg false

/-- What an output drives at an instant: the ramp of a range change falls linearly to 0 over its millisecond (R128). -/
def Chan.driveAt (x : Chan) (t : Nat) : Int := match x.ramp with
  | some r => if t < r.stop then r.base * ((Nat.min (r.stop - t) 1000000 : Nat) : Int) / 1000000 else x.drive
  | none => x.drive

/-- What this unit drives into an output's terminals at an instant: in the 200 µs of a crossfade its share of a current output rises linearly from 0, or falls
to 0 in the old unit (R674). -/
def Chip.driveAt (c : Chip) (i t : Nat) : Int :=
  let x := c.chan i
  let v := x.driveAt t
  match if 0x20 ≤ eActive x.entry ∧ eActive x.entry ≤ 0x22 then c.red.xAt else none with
  | some a =>
    if t < a ∨ a + 200000 ≤ t then v
    else v * ((if c.red.taking then t - a else a + 200000 - t : Nat) : Int) / 200000
  | none => v

/-! ## Raw states of the safety path (R505) -/

/-- Changes TM. -/
def Chip.onTrip (c : Chip) (f : Trip → Trip) : Chip := { c with trip := f c.trip }

/-- Sets or clears a bit of a mask. -/
def setBitN (m i : Nat) (b : Bool) : Nat := if b then m ||| 2 ^ i else if m.testBit i then m - 2 ^ i else m

/-- One raw state takes a new value; a change starts its hold (R505). -/
def Chip.setRaw (c : Chip) (code : Nat) (v : Bool) : Chip :=
  if c.trip.raw.testBit code == v then c
  else c.onTrip fun x => { x with raw := setBitN x.raw code v, rawAt := assocSet x.rawAt code c.mono }

/-! ## Applying an entry (R389, R390, R414, R429 to R434) -/

/-- Whether a change of entry changes the channel's function or its rate. -/
def reconfigures (a e : List Byte) : Bool :=
  eEnable a != eEnable e || eMode a != eMode e || eActive a != eActive e || (eActive e != 0 && eRate a != eRate e)

/-- The channel with a new applied entry; `bit` is the free initial state of a digital filter. -/
def Chan.apply (x : Chan) (e : List Byte) (now : Nat) (bit : Bool) : Chan :=
  let a := x.entry
  let sameTrig := eF a 0x40 16 == eF e 0x40 16
  let kept := if eSource a = eSource e ∧ (sameTrig ∨ 3 ≤ eSource e) then x.arrivals else []
  let x0 := if eSource e = 0 ∧ eSource a ≠ 0 then { (x.runWindow now 2) with queued := false } else x
  let x1 := { x0 with entry := e, prev := a, since := now, gen := eGen e, res := 1, lpwr := ePowersLoop e, arrivals := kept,
                       limHi := x.limHi && eLimEn e, limLo := x.limLo && eLimEn e }
  if !reconfigures a e then x1
  else
    let x2 := x.runWindow now 2
    let leavesAo := isAo (eActive a) && eActive a != eActive e
    let sameFn := eEnable a == eEnable e && eMode a == eMode e && eActive a == eActive e
    let start := if leavesAo then now + 1000000 else now
    let keepBits := if eMode a = 0 ∧ eMode e = 0 then 2 ^ stCfgRej + 2 ^ stLateStart
      else if eMode a ≠ 0 ∧ eMode e ≠ 0 then stickyBits e else 2 ^ stCfgRej
    let x3 := { x1 with
      window := none, queued := false, ended := x2.ended, lastArr := none
      samples := []
      readyAt := start + settleNs (eActive e)
      status := (x2.status &&& keepBits) + (if eActive e ≠ 0 ∧ !sameFn then 2 ^ stRangeChg else 0)
      limHi := false, limLo := false, rearm := false, cooled := false, agree := 0
      filt := if isDi (eMode e) ∧ !isDi (eMode a) then bit else x.filt }
    if sameFn then { x3 with status := x2.status }
    else
      { x3 with
        want := none, sent := none, got := none
        queue := if x3.isOutput then x3.queue else []
        term := none, drive := 0
        ramp := if leavesAo then some ⟨now + 1000000, x.driveAt now, none⟩ else x.ramp }

/-- The arrivals of a TASK-triggered channel for boundaries from `b0` on, every `p`, that fall in [lo, hi) (R368, R373). -/
def arrivalsIn (x : Chan) (b0 p lo hi : Nat) : List Nat :=
  let back := eAdvance x.entry * 1000 + 6000 + windowNs x.entry
  let m0 := (lo + back + p - 1 - b0) / p
  ((List.range ((hi - lo) / p + 2)).map fun j => b0 + (m0 + j) * p - back).filter fun a => decide (lo ≤ a ∧ a < hi)

/-- Schedules the arrivals still to come of a channel whose entry has just been applied, where its trigger block or its function changed: those of its
task up to the boundary that schedules the next, and those of firings already sent (R368, R373, R374, R607). -/
def Chip.reschedule (c : Chip) (i : Nat) : Chip :=
  let x := c.chan i
  let e := x.entry
  if eActive e = 0 then c
  else match eSource e with
    | 1 => match assocGet c.cyc.tasks (eTask e) with
      | none => c
      | some r => c.setChan i { x with arrivals := arrivalsIn x r.next r.every c.mono r.next }
    | 2 => (c.time.fired.filter fun q => q.1 == eTslot e && q.2.1.testBit (groupOf i)).foldl (fun c q => c.scheduleStamp i q.2.2)
        (c.setChan i { x with arrivals := [] })
    | _ => c

/-- Applies an entry to a channel of this module (R433, R136, R81). -/
def Chip.applyEntry (c : Chip) (i : Nat) (e : List Byte) : Chip :=
  let (b, c) := if isDi (eMode e) then c.free 1 else (0, c)
  let a := (c.chan i).entry
  let c := c.onChan i fun x => { (x.apply e c.mono (b == 1)) with pend := none }
  let c := if reconfigures a e || eF a 0x40 16 != eF e 0x40 16 then c.reschedule i else c
  if c.safeMode && (c.chan i).isOutput && (c.chan i).written then
    c.onChan i fun x => { x with want := some (c.safeValue i), queue := [] }
  else c

end Sys2Proof.Machine
end

