-- ==== Sys2Proof/Machine/Table.lean ====
section
/-!
DEFINITION. The channel table: single loads, commit sets, the thermal budget, status write-back and clearing
(R407 to R449, R490 to R494, R842).
-/

namespace Sys2Proof.Machine

/-- A register write whose effect reaches beyond the chip (R66, R71, R74). -/
def State.whenOn (s : State) (src k : Nat) (eff : State → State) : State :=
  if !s.chip.writeClear src (islandOf k) then s
  else if s.chip.islandOn (islandOf k) then eff s else { s with chip := s.chip.answer src .busError }

/-- A write of an island that is no program core into DRAM: discarded and recorded where a region is locked (R767); in RECOVERY nothing reaches DRAM (R844). -/
def State.dmaPut (s : State) (src a : Nat) (bs : List Byte) : State :=
  if s.chip.mode = 1 then s
  else if s.chip.locked a bs.length then s.onChip fun c => c.raise 0x1D09 6 0x17 (toBytes 1 src ++ List.replicate 7 0#8 ++ toBytes 8 a)
  else { s with mem := memPut s.mem a bs }

/-! ## Thermal budget (R442, R490 to R494) -/

/-- T in quarters of a degree. -/
def Chip.tempQ (c : Chip) : Int := signed 11 (c.fld PW_THERM_TEMP)

/-- A group's budget in 1/160 mW: 22.5 W × d(T), and 0 while HOT (R442, PW_GRPCHG). -/
def Chip.budget160 (c : Chip) : Int :=
  if c.flag PW_THERM_HOT then 0 else if c.tempQ ≤ 340 then 3600000 else 3600000 - 14625 * (c.tempQ - 340)

/-- The entries of a channel that are applied or pending: its applied one, those of the sets that hold it, and that of a request that names it in place of
its pending load (R431). -/
def Chip.entriesOf (c : Chip) (req : List (Nat × List Byte)) (i : Nat) : List (List Byte) :=
  (c.chan i).entry :: (c.sets.filterMap fun s => (s.entries.find? fun p => p.1 == i).map Prod.snd) ++
    match req.find? fun p => p.1 == i with
    | some p => [p.2]
    | none => ((c.chan i).pend.map Load.entry).toList

/-- The charge of a channel in mW: the largest of its applied and pending entries', so that a pending load frees no budget before it applies (R78, R442,
R490; log entry 25). -/
def Chip.chanCharge (c : Chip) (req : List (Nat × List Byte)) (i : Nat) : Nat := ((c.entriesOf req i).map (charge i)).foldl Nat.max 0

/-- The charge of a group with a request counted in, in mW (R442, R490). -/
def Chip.groupCharge (c : Chip) (req : List (Nat × List Byte)) (g : Nat) : Nat :=
  ((groupChans g).map fun i => c.chanCharge req i).foldl (· + ·) 0

/-- The first group that refuses a request with THERMAL: one whose charge the request raises beyond its budget (R442,
R492, R493). -/
def Chip.thermalGroup (c : Chip) (req : List (Nat × List Byte)) : Option Nat :=
  (List.range 8).find? fun g =>
    let n := c.groupCharge req g
    decide (c.groupCharge [] g < n) && decide (c.budget160 < (n : Int) * 160)

/-- Updates the charges the manager shows, and its over-budget bits (R493). -/
def Chip.updateCharges (c : Chip) : List Nat → Chip
  | [] => c
  | g :: gs =>
    let n := c.groupCharge [] g
    let exceeded := decide (c.budget160 < (n : Int) * 160)
    let f : Fld := ⟨PW_THERM, 16 + g, 16 + g⟩
    let was := c.flag f
    let c1 := (c.setFld (PW_GRPCHG_CHARGE g) n).setFlag f exceeded
    let c2 := if exceeded && !was then c1.raise 0x1E07 4 0x15 (toBytes 2 g ++ toBytes 2 n) else c1
    c2.updateCharges gs

/-- Updates every group. -/
def Chip.recharge (c : Chip) : Chip := c.updateCharges (List.range 8)

/-- TEMPERATURE_UPDATE (R491 to R493): the higher of the working sensors, in quarters of a degree. -/
def Chip.temperature (c : Chip) (a b : Option (BitVec 11)) : Chip :=
  let t : Option Int := match a, b with
    | some x, some y => some (if x.toInt < y.toInt then y.toInt else x.toInt)
    | some x, none => some x.toInt
    | none, some y => some y.toInt
    | none, none => none
  let c1 := match t with
    | some q => (c.setFld PW_THERM_TEMP (unsigned 11 q)).setFlag PW_THERM_HOT (decide (500 < q))
    | none => c.setFlag PW_THERM_HOT true
  let c2 := c1.setFlag PW_THERM_SENSFAULT (a.isSome != b.isSome)
  let n := c2.budget160
  let up := b2n (decide (n % 160 ≠ 0) && Config.budgetRoundsUp n.toNat)
  let c3 := c2.onChans (fun g c => c.setFld (PW_GRPCHG_BUDGET g) ((n / 160).toNat + up)) (List.range 8)
  c3.recharge

/-! ## Checking a request (R428, R445) -/

/-- Results and reasons of R445. -/
def rAccepted : Nat := 0
def rApplied : Nat := 1
def rRefused : Nat := 2
def rDiscarded : Nat := 3
def rSuperseded : Nat := 4
def rsField : Nat := 1
def rsPartner : Nat := 2
def rsBinding : Nat := 3
def rsSafety : Nat := 4
def rsThermal : Nat := 5
def rsConflict : Nat := 6
def rsFull : Nat := 7
def rsMode : Nat := 8
def rsLate : Nat := 9
def rsReset : Nat := 10

/-- The physical address of byte `o` of the table (R407). -/
def Chip.tableAt (c : Chip) (o : Nat) : Nat := c.fld CT_BASE_ADDR * 0x40000 + o

/-- Whether the entries this module uses lie in DRAM (CT_BASE). -/
def Chip.tableOk (c : Chip) : Bool := inDram (c.tableAt (c.chanBase * 0x100)) 0x20000

/-- The copy of an entry: bytes 0x00 to 0xAF (R427). -/
def Chip.copyEntry (c : Chip) (mem : List Host.Cell) (g : Nat) : List Byte := memBytes mem 0xB0 (c.tableAt (g * 0x100))

/-- Whether the mode of a request's channel in a pair is valid (R413, R428, log entry 26). -/
def Chip.pairedOk (c : Chip) (req : List (Nat × List Byte)) (i : Nat) (e : List Byte) : Bool :=
  if eEnable e && eMode e == mPaired then
    let j := if i % 2 = 0 then i + 1 else i - 1
    match req.find? fun p => p.1 == j with
    | some p => eMode p.2 == mPaired
    | none => eMode (c.chan j).entry == mPaired
  else true

/-- Whether another channel's entry, applied or pending, names the same PAIR (R501, log entry 27). -/
def Chip.pairTaken (c : Chip) (req : List (Nat × List Byte)) (i : Nat) (e : List Byte) : Bool :=
  let names := fun (x : List Byte) => eMode x == mSafe && ePair x == ePair e
  eMode e == mSafe && (c.chans.map Prod.fst ++ req.map Prod.fst).any fun j =>
    j != i && match req.find? fun p => p.1 == j with
      | some p => names p.2
      | none => (c.entriesOf [] j).any names

/-- The channels of this module in ranges 0x10 to 0x16, as the request leaves them (R351). -/
def Chip.isRtdChan (c : Chip) (req : List (Nat × List Byte)) (g : Nat) : Bool :=
  match c.localChan g with
  | none => false
  | some j => match req.find? fun p => p.1 == j with
    | some p => isRtd (eActive p.2)
    | none => isRtd (eActive (c.chan j).entry)

/-- Whether an item of a request is refused with FIELD; `g` is the global number (R428, R449, R351). -/
def Chip.fieldBad (c : Chip) (req : List (Nat × List Byte)) (g : Nat) (e : List Byte) : Bool :=
  !c.tableOk || decide (c.stationChans ≤ g) || !entryOk e (c.isRtdChan req) ||
    match c.localChan g with
    | some i => !c.pairedOk req i e || c.pairTaken req i e
    | none => isAo (eActive e)

/-- The index of the first item that meets a test. -/
def firstIdx {α : Type} (f : α → Bool) : List α → Nat → Option Nat
  | [], _ => none
  | x :: xs, n => if f x then some n else firstIdx f xs (n + 1)

/-- An item of a request: global number and the copy of its entry. -/
abbrev Item := Nat × List Byte

/-- The items of a request that this module carries, by local number. -/
def Chip.localItems (c : Chip) : List Item → List (Nat × List Byte)
  | [] => []
  | (g, e) :: is => match c.localChan g with
    | some i => (i, e) :: c.localItems is
    | none => c.localItems is

/-- The global number occurs earlier in the list. -/
def dupIdx : List Nat → List Nat → Nat → Option Nat
  | _, [], _ => none
  | seen, g :: gs, n => if seen.contains g then some n else dupIdx (g :: seen) gs (n + 1)

/-- The first reason that refuses a request, with the list index to blame, 0x7F for none (R428 in the order of R445);
`timed` is the task and target of a set with IMMED = 0. -/
def Chip.refusal (c : Chip) (items : List Item) (isSet : Bool) (timed : Option (Nat × Nat)) : Option (Nat × Nat) :=
  let req := c.localItems items
  let appl := fun g => match c.localChan g with
    | some i => (c.chan i).entry
    | none => []
  let bad := (firstIdx (fun (p : Item) => c.fieldBad req p.1 p.2) items 0)
  let bad := match bad, dupIdx [] (items.map Prod.fst) 0 with
    | some a, some b => some (Nat.min a b)
    | a, b => a <|> b
  match bad with
  | some n => some (rsField, n)
  | none => match firstIdx (fun (p : Item) => (c.localChan p.1).isNone) items 0 with
    | some n => some (rsPartner, n)
    | none => match firstIdx (fun (p : Item) => bindBad p.2) items 0 with
      | some n => some (rsBinding, n)
      | none => match firstIdx (fun (p : Item) => safetyRelevant (appl p.1) p.2 && !c.flag TP_SWBANK_SW1) items 0 with
        | some n => some (rsSafety, n)
        | none =>
          if (c.thermalGroup req).isSome then some (rsThermal, 0x7F)
          else match firstIdx (fun (p : Nat × List Byte) => c.sets.any fun s => s.entries.any fun q => q.1 == p.1) req 0 with
            | some n => some (rsConflict, n)
            | none =>
              if isSet && decide (4 ≤ c.sets.length) then some (rsFull, 0x7F)
              else if c.mode = 1 ∨ c.mode = 5 then some (rsMode, 0x7F)
              else match timed with
                | none => none
                | some (k, tgt) =>
                  if (c.mode ≠ 4 ∧ c.mode ≠ 6) ∨ !c.flag (MG_TASKDESC_ENABLE k) then some (rsMode, 0x7F)
                  else if tgt ≠ 0 ∧ tgt < c.counter (MG_TASKCYC_LO k) then some (rsLate, 0x7F)
                  else none

/-- Whether an enabled entry is invalid under R351, which sets CFGREJ (R351, R358). -/
def Chip.rangeBad (c : Chip) (req : List (Nat × List Byte)) (e : List Byte) : Bool :=
  eEnable e && !(if eMode e = 0 then analogOk e (c.isRtdChan req) else digitalOk e)

/-- Sets CFGREJ of the channels of a refused request whose range-and-filter block is invalid. -/
def Chip.markCfgRej (c : Chip) (req : List (Nat × List Byte)) : Chip :=
  c.onChans (fun i c => c.onChan i fun x => x.setBit stCfgRej true) ((req.filter fun p => c.rangeBad req p.2).map Prod.fst)

/-- What the thermal manager shows of a refusal (R494). -/
def Chip.noteRefusal (c : Chip) (req : List (Nat × List Byte)) (reason : Nat) : Chip :=
  if reason = rsThermal then
    (c.setFlag PW_THERM_LASTTHERM true).setFld PW_THERM_LASTGRP ((c.thermalGroup req).getD 0)
  else c.setFlag PW_THERM_LASTTHERM false

/-- Reports in CT_INVSTAT. -/
def Chip.invReport (c : Chip) (g tag result reason : Nat) : Chip :=
  c.setFlds [(CT_INVSTAT_VALID, 1), (CT_INVSTAT_CHAN, g), (CT_INVSTAT_TAG, tag), (CT_INVSTAT_REASON, reason),
    (CT_INVSTAT_RESULT, result)]

/-- Reports in CT_SETSTAT; PENDING follows the sets held. -/
def Chip.setReport (c : Chip) (tag idx result reason : Nat) : Chip :=
  c.setFlds [(CT_SETSTAT_VALID, 1), (CT_SETSTAT_PENDING, c.sets.length), (CT_SETSTAT_TAG, tag), (CT_SETSTAT_BADIDX, idx),
    (CT_SETSTAT_REASON, reason), (CT_SETSTAT_RESULT, result)]

/-- Writes APPLYRES. -/
def Chip.applyRes (c : Chip) (i result reason : Nat) : Chip := c.onChan i fun x => { x with res := reason * 16 + result }

/-- The pending single load of a channel is replaced (R431). -/
def Chip.supersede (c : Chip) (i : Nat) : Chip :=
  match (c.chan i).pend with
  | none => c
  | some l => (c.onChan i fun x => { x with pend := none }).invReport (c.chanBase + i) l.tag rSuperseded 0

/-- A single load of a global channel (R427 to R432). -/
def Chip.load (c : Chip) (mem : List Host.Cell) (g tag : Nat) : Chip :=
  let e := c.copyEntry mem g
  let req := c.localItems [(g, e)]
  match c.refusal [(g, e)] false none with
  | some (reason, _) =>
    let c1 := ((c.noteRefusal req reason).markCfgRej req).invReport g tag rRefused reason
    match c.localChan g with
    | some i => c1.applyRes i rRefused reason
    | none => c1
  | none => match c.localChan g with
    | none => c
    | some i =>
      let rel := safetyRelevant (c.chan i).entry e
      let c1 := (c.supersede i).onChan i fun x => { x with pend := some ⟨e, tag, rel, c.mono, (x.runWindow c.mono 2).window.isSome⟩ }
      (c1.invReport g tag rAccepted 0).recharge

/-- CT_INVAL (R427); the thermal manager's query and reply pass through rings 1 and 4 (R73). -/
def State.ctInval (s : State) (v : Word) : State :=
  s.onChip fun c => c.through [1, 4] fun c => c.load s.mem (bitsOf v.toNat 9 0) (bitsOf v.toNat 23 16)

/-- The instant of the conversion boundary of a load accepted at `t`, where it is the end of a filter window (R429); none where it is a link frame. `busy`: a
triggered window was running then; one that has ended since was the boundary. -/
def Chan.windowEndAfter (x : Chan) (t : Nat) (busy : Bool) : Option Nat :=
  if eActive x.entry = 0 ∨ isAo (eActive x.entry) then none
  else if eSource x.entry ≠ 0 ∨ busy then
    (if busy then match x.window with
      | some (start, stop) => some (if start ≤ t ∨ ePolicy x.entry = 2 then stop else t)
      | none => some t
    else none)
  else
    let hz := rateHz (eRate x.entry)
    let stop := ((gridStamp hz (t + 6000) * hz / 1000000000 + 1) * 1000000000 + hz - 1) / hz - 6000
    if x.readyAt + windowNs x.entry ≤ stop then some stop else none

/-- Whether the conversion boundary of a pending load has come (R429). -/
def Chip.boundaryPassed (c : Chip) (i : Nat) (l : Load) : Bool :=
  match (c.chan i).windowEndAfter l.since l.busy with
  | some t => decide (t ≤ c.mono)
  | none => decide ((l.since / 5000 + 1) * 5000 ≤ c.mono)

/-- What an applied safety binding starts: the configuration hash (R525). -/
def Chip.startHash (c : Chip) : Chip := c.setFlag TP_STAT_HASHBUSY true

/-- ENTRY_APPLY (R421, R429, R433, R658): a CG island whose clock is stopped applies nothing (R100). -/
def Chip.entryApply (c : Chip) (i : Nat) : Chip :=
  match (c.chan i).pend with
  | none => c
  | some l =>
    if !c.boundaryPassed i l || !c.islandOn (cgIsland (groupOf i)) then c
    else if l.relevant && !c.flag TP_SWBANK_SW1 then
      (((c.onChan i fun x => { x with pend := none }).applyRes i rDiscarded rsSafety).invReport (c.chanBase + i) l.tag
        rDiscarded rsSafety).recharge
    else
      let c1 := (c.applyEntry i l.entry).recharge.forwardOut 1 l.tag c.cycleNow (toBytes 2 i ++ l.entry)
      if l.relevant then c1.startHash else c1

/-! ## Commit sets (R435 to R441) -/

/-- The 16-bit channel numbers of a list. -/
def chanList (mem : List Host.Cell) (a : Nat) : Nat → List Nat
  | 0 => []
  | n + 1 => memRead mem 2 a :: chanList mem (a + 2) n

/-- A commit set is submitted (R435 to R437, R443). -/
def Chip.commit (c : Chip) (mem : List Host.Cell) (v : Word) : Chip :=
  let w := v.toNat
  let immed := bitAt w 31
  let k := bitsOf w 27 24
  let tag := bitsOf w 23 16
  let n := bitsOf w 6 0
  let tgt := (c.reg CT_SETTGT_LO).toNat + (c.reg CT_SETTGT_HI).toNat * 2 ^ 32
  let a := (c.reg CT_SETADDR).toNat * 8
  let listOk := decide (1 ≤ n ∧ n ≤ 64) && inDram a (2 * n)
  let items : List Item := if listOk then (chanList mem a n).map fun g => (g, c.copyEntry mem g) else []
  let req := c.localItems items
  let why := if listOk then c.refusal items true (if immed then none else some (k, tgt)) else some (rsField, 0x7F)
  match why with
  | some (reason, idx) =>
    let shown := if reason = rsThermal ∧ 460 < c.tempQ then 0 else reason
    ((c.noteRefusal req reason).markCfgRej req).setReport tag idx rRefused shown
  | none =>
    let rel := req.any fun p => safetyRelevant (c.chan p.1).entry p.2
    let c1 := c.onChans (fun i c => c.supersede i) (req.map Prod.fst)
    let due := if immed then some (c.mono + 1) else none
    let new : LoadSet := ⟨tag, immed, k, tgt, due, rel, req⟩
    let c2 := { c1 with sets := c1.sets ++ [new] }
    (c2.setReport tag 0x7F rAccepted 0).recharge

/-- CT_COMMIT; the thermal manager's query and reply pass through rings 1 and 4 (R73). -/
def State.ctCommit (s : State) (v : Word) : State := s.onChip fun c => c.through [1, 4] fun c => c.commit s.mem v

/-- Sets whose boundary this is become due (R437, R438). -/
def Chip.setsDueAt (c : Chip) (k cycle b : Nat) : Chip :=
  { c with sets := c.sets.map fun s =>
      if s.due.isNone && s.task == k && (s.target == 0 || decide (s.target ≤ cycle)) then { s with due := some (b + 2000) } else s }

/-- Takes a set out of the list and reports it discarded, in CT_SETSTAT and in the APPLYRES of its entries (R440). -/
def Chip.discardSet (c : Chip) (s : LoadSet) (reason : Nat) : Chip :=
  let c1 := { c with sets := c.sets.erase s }
  (c1.onChans (fun i c => c.applyRes i rDiscarded reason) (s.entries.map Prod.fst)).setReport s.tag 0x7F rDiscarded reason

/-- Discards several sets. -/
def Chip.discardSets (c : Chip) (reason : Nat) : List LoadSet → Chip
  | [] => c.recharge
  | s :: ss => (c.discardSet s reason).discardSets reason ss

/-- A change of mode discards sets with IMMED = 0 that are not yet due (R440). -/
def Chip.setsOnMode (c : Chip) (old new : Nat) : Chip :=
  if new = 5 ∨ ((old = 4 ∨ old = 6) ∧ new ≠ 4 ∧ new ≠ 6) then
    match c.sets.filter fun s => !s.immed && s.due.isNone with
    | [] => c
    | l => c.discardSets rsMode l
  else c

/-- Any reset discards every pending set (R440). -/
def Chip.setsOnReset (c : Chip) : Chip := c.discardSets rsReset c.sets

/-- Applies one due set (R438, R440, R441, R658). -/
def Chip.applySet (c : Chip) (s : LoadSet) : Chip :=
  if s.relevant && !c.flag TP_SWBANK_SW1 then c.discardSet s rsSafety
  else
    let c1 := { c with sets := c.sets.erase s }
    let c2 := (s.entries.foldl (fun c p => c.applyEntry p.1 p.2) c1).forwardOut 2 s.tag (c.counter (MG_TASKCYC_LO s.task) - 1)
      (s.entries.map fun p => toBytes 2 p.1 ++ p.2).flatten
    let c3 := c2.setFld CT_SETSTAT_PENDING c2.sets.length
    if s.relevant then c3.startHash else c3

/-- Applies the sets that are due in the frame starting at `t`, in the order of their requests (R438, R439). -/
def Chip.applySets (c : Chip) (t : Nat) : Chip :=
  match c.sets.filter fun s => match s.due with
    | some d => decide (d ≤ t)
    | none => false with
  | [] => c
  | l => (l.foldl (fun c s => c.applySet s) c).recharge

/-- What a block reset of a group discards (R434): its pending loads, and every set that holds a channel of it. -/
def Chip.discardGroup (c : Chip) (g : Nat) : Chip :=
  let c1 := c.onChans (fun i c => match (c.chan i).pend with
    | none => c
    | some l => ((c.onChan i fun x => { x with pend := none }).applyRes i rDiscarded rsReset).invReport (c.chanBase + i) l.tag
        rDiscarded rsReset) (groupChans g)
  c1.discardSets rsReset (c1.sets.filter fun s => s.entries.any fun p => groupOf p.1 == g)

/-! ## Status write-back and clearing (R425, R444 to R448) -/

/-- The 64 bytes of a channel's status block, with its next WBSEQ (R425). -/
def Chip.statusBlock (c : Chip) (i : Nat) : List Byte :=
  let x := c.chan i
  let stamp := match x.samples with
    | [] => 0
    | s :: _ => s.stamp
  let qlim := c.quality i + b2n x.limHi * 16 + b2n x.limLo * 32 + b2n x.limHiS * 64 + b2n x.limLoS * 128
  toBytes 4 (x.wbseq + 1) ++ toBytes 4 (c.statusWord i) ++ toBytes 2 x.gen ++ toBytes 1 x.res ++ toBytes 1 qlim ++
    toBytes 4 x.value.toNat ++ toBytes 8 stamp ++ toBytes 8 x.ovr ++ toBytes 8 x.ign ++ toBytes 1 x.cntOvf ++
    toBytes 1 x.hartRsp ++ toBytes 1 x.hartDev ++ toBytes 21 0

/-- STATUS_WRITEBACK (R444): one 64-byte write, which a write lock of the memory controller discards (R229, R767); WBSEQ goes up by 1. -/
def State.writeBack (s : State) (i : Nat) : State :=
  let a := s.chip.tableAt ((s.chip.chanBase + i) * 0x100 + 0xB0)
  if inDram a 64 then
    (s.dmaPut (cgIsland (groupOf i)) a (s.chip.statusBlock i)).onChip fun c => c.onChan i fun x => { x with wbseq := (x.wbseq + 1) % 2 ^ 32 }
  else s

/-- Writes back several channels. -/
def State.writeBacks (s : State) : List Nat → State
  | [] => s
  | i :: is => (s.writeBack i).writeBacks is

/-- A write of CT_BASE (R448). -/
def State.ctBase (s : State) (src : Nat) (v : Word) (lockOpen : Bool) : State :=
  if lockOpen then (s.onChip fun c => c.setFld CT_BASE_ADDR (bitsOf v.toNat 17 0)).writeBacks (List.range 512)
  else s.onChip fun c => c.raise 0x1D01 3 0x15 (toBytes 1 0x0A ++ toBytes 1 src ++ toBytes 2 (offsetOf CT_BASE))

/-- CT_STATCLR (R447). -/
def Chip.statClr (c : Chip) (v : Word) : Chip :=
  let w := v.toNat
  match c.localChan (bitsOf w 9 0) with
  | none => c
  | some i => c.onChan i fun x =>
    let x1 := { x with status := x.status &&& (0xFFFF - (bitsOf w 25 10 &&& stickyBits x.entry))
                       limHiS := x.limHiS && !bitAt w 28, limLoS := x.limLoS && !bitAt w 29 }
    let x2 := if bitAt w 30 then { x1 with ovr := 0, cntOvf := x1.cntOvf &&& 2 } else x1
    if bitAt w 31 then { x2 with ign := 0, cntOvf := x2.cntOvf &&& 1 } else x2

/-! ## Commands -/

/-- CT_INVAL (R427). -/
def execCtInval (src : Island) (value : Word) (m : State) : Out :=
  .next (m.whenOn src.val CT_INVAL fun m => m.ctInval value)

/-- ENTRY_APPLY (R429). -/
def execEntryApply (chan : Chan512) (m : State) : Out := .next (m.onChip fun c => c.entryApply chan.val)

/-- CT_COMMIT (R435). -/
def execCtCommit (src : Island) (value : Word) (m : State) : Out :=
  .next (m.whenOn src.val CT_COMMIT fun m => m.ctCommit value)

/-- STATUS_WRITEBACK (R444). -/
def execStatusWriteback (chan : Chan512) (m : State) : Out := .next (m.writeBack chan.val)

/-- CT_STATCLR (R447). -/
def execCtStatclr (src : Island) (value : Word) (m : State) : Out :=
  .next (m.onChip fun c => c.whenOn src.val CT_STATCLR fun c => c.statClr value)

/-- CT_BASE_WRITE (R448); ADDR is RWL (R23). -/
def execCtBaseWrite (src : Island) (value : Word) (m : State) : Out :=
  .next (m.whenOn src.val CT_BASE fun m => m.ctBase src.val value (m.chip.mode == 3 || m.chip.mode == 7))

/-- TEMPERATURE_UPDATE (R491): the readings of the two sensors, none of one that has failed. -/
def execTemperatureUpdate (a b : Option (BitVec 11)) (m : State) : Out := .next (m.onChip fun c => c.temperature a b)

end Sys2Proof.Machine
end

