-- ==== Sys2Proof/Machine/Analog.lean ====
section
/-!
DEFINITION. What analogue channels do: samples, triggers, the shadow rotation, the reference check, service calibration,
outputs with their faults and limits, and HART (R349 to R406, R424).
-/

namespace Sys2Proof.Machine

/-! ## Samples (R356, R358, R360, R365 to R367, R488) -/

/-- The window of an end instant was converted under the entry that stood then (R430). -/
def Chan.entryAt (x : Chan) (stop : Nat) : List Byte := if stop ≤ x.since then x.prev else x.entry

/-- The stamp of the sample that is due by `t`, and the channel with it taken from its windows (R365, R367). -/
def Chan.dueSample (x : Chan) (t : Nat) : Option Nat × Chan :=
  let fresh : Nat → Bool := fun s => match x.samples with
    | [] => true
    | p :: _ => decide (p.stamp < s)
  let x := x.runWindow t 2
  match x.ended with
  | s :: rest => if s ≤ t then (some s, { x with ended := rest }) else (none, x)
  | [] =>
    let s := gridStamp (rateHz (eRate x.entry)) t
    if eSource x.entry = 0 ∧ eActive x.entry ≠ 0 ∧ x.readyAt + windowNs x.entry + 6000 ≤ s ∧ fresh s then (some s, x)
    else (none, x)

/-- Whether a service calibration keeps a sample from being delivered (R382). -/
def Chan.inService (x : Chan) (stamp : Nat) : Bool := match x.svcEnd with
  | some t => decide (stamp ≤ t)
  | none => false

/-- A measured value held within a thermocouple's nominal range (R356). -/
def clampTc (r : Nat) (meas : Int) : Int :=
  match rangeSpan r with
  | some (lo, hi, _, _) => if isTc r then clampInt (lo * 2 ^ 32 / 10) (hi * 2 ^ 32 / 10) meas else meas
  | none => meas

/-- Whether a signal is outside the measurable range: of a thermocouple the voltage at the terminals (R349, R358). -/
def outsideMeas (r : Nat) (meas signal : Int) : Bool :=
  match rangeSpan r with
  | some (_, _, lo, hi) =>
    let x := if isTc r then signal else meas
    decide (x * 10 < lo * 2 ^ 32 ∨ hi * 2 ^ 32 < x * 10)
  | none => false

/-- Whether a reading shows an open circuit: an RTD or resistance above its measurable range, a thermocouple beyond ±120 mV (R360). -/
def readsOpen (r : Nat) (meas signal : Int) : Bool :=
  match rangeSpan r with
  | some (_, _, _, hi) => if isTc r then outsideMeas r meas signal else decide (hi * 2 ^ 32 < meas * 10)
  | none => false

/-- What a delivered sample leaves (R352 to R360, R392); one of a window under the range or rate before the last change leaves no status. -/
def Chan.deliver (x : Chan) (e : List Byte) (meas signal : Int) (stamp : Nat) : Chan :=
  let r := eRange e
  let x1 := x.push ⟨valueWord e (clampTc r meas), meas, stamp⟩
  if isAo r || !x1.sinceChange stamp then x1
  else
    let x2 := (x1.setBit stOutsideMeas (outsideMeas r meas signal)).setBit stRangeChg false
    if isRtd r then (x2.setBit 0 (readsOpen r meas signal)).setBit 1 (readsShort e signal)
    else if isTc r then x2.setBit 0 (readsOpen r meas signal)
    else x2

/-- The cold-junction temperature of a thermocouple entry in 2^-32 °C, where the module's own sensor reads `sensor` (R350, R361): a source channel gives its
newest measured value. -/
def Chip.coldJunction (c : Chip) (e : List Byte) (sensor : Int) : Int :=
  let s := eCjSrc e
  if s = 0xFFFF then sensor
  else if s < 0x8000 then ((s : Int) - 10000) * 2 ^ 32 / 100
  else match c.localChan (s % 1024) with
    | none => Config.coldUnknown c.mono
    | some j => match (c.chan j).samples with
      | [] => Config.coldUnknown c.mono
      | v :: _ => if eRange (c.chan j).entry ≤ 0x11 then Config.coldOhms (eRange (c.chan j).entry) v.meas else v.meas

/-- A module of a Double Reed station forwards the newest sample or state of a channel with its quality and status word over PL0, from the CG island to FX by
rings 36 to 43 (R642, R651, log entry 117). -/
def Chip.toPartner (c : Chip) (i : Nat) : Chip :=
  match if 2 ≤ c.topo then (c.chan i).samples else [] with
  | [] => c
  | s :: _ => c.through [36 + groupOf i] fun c => c.send 6 (toBytes 1 3 ++ toBytes 2 (c.chanBase + i) ++ toBytes 8 s.stamp ++
      toBytes 4 s.value.toNat ++ toBytes 1 (c.quality i) ++ toBytes 4 (c.statusWord i))

/-- SAMPLE_DELIVERY (R365, R430, R488): none where the CG island's clock is stopped (R100). -/
def Chip.sampleDelivery (c : Chip) (i : Nat) (signal sensor : Int) : Chip :=
  if !c.islandOn (cgIsland (groupOf i)) then c
  else
    let (due, x) := (c.chan i).dueSample c.mono
    match due with
    | none => c.setChan i x
    | some s =>
      let e := x.entryAt (s - 6000)
      if eActive e = 0 ∨ x.inService s ∨ !c.flag (CG_LINKSTAT_UP (groupOf i)) then c.setChan i x
      else (c.setChan i (x.deliver e (measured e signal (c.coldJunction e sensor)) signal s)).toPartner i

/-- The first arrival that has come by `t`, and the list without it. -/
def firstDue (t : Nat) : List Nat → Option Nat × List Nat
  | [] => (none, [])
  | a :: as => if a ≤ t then (some a, as) else let (r, l) := firstDue t as; (r, a :: l)

/-- Whether the mode runs tasks and the loop engine. -/
def Chip.running (c : Chip) : Bool := c.mode == 4 || c.mode == 5 || c.mode == 6

/-- TRIGGER_ARRIVAL (R368 to R373): the first scheduled arrival that has come. -/
def Chip.triggerArrival (c : Chip) (i : Nat) : Chip :=
  let x := c.chan i
  match firstDue c.mono x.arrivals with
  | (none, _) => c
  | (some a, rest) =>
    let c1 := c.onChan i fun x => { x with arrivals := rest }
    let src := eSource x.entry
    if eActive x.entry = 0 ∨ src = 0 ∨ (src = 1 ∧ !c.running) then c1 else c1.trigger i a

/-- CG_SWTRIG: 2 µs after the start of the first link frame that begins after the write (R368). -/
def Chip.swTrig (c : Chip) (g : Nat) (high : Bool) (v : Word) : Chip :=
  let a := (c.mono / 5000 + 1) * 5000 + 2000
  let first := 64 * g + (if high then 32 else 0)
  c.onChans (fun n c =>
    let e := (c.chan (first + n)).entry
    if v.getLsbD n && eActive e != 0 && eSource e == 3 then c.schedule (first + n) a else c) (List.range 32)

/-! ## Shadow rotation (R375 to R380) -/

/-- The channels of a group that a round calibrates. -/
def Chip.rotList (c : Chip) (g : Nat) : List Nat :=
  (groupChans g).filter fun i => eActive (c.chan i).entry != 0 && !c.skipsRot i

/-- The channels of a chip that a shadow is busy with. -/
def Chip.onShadows (c : Chip) (chip : Nat) (f : Rot → Bool) : Nat :=
  (((List.range 32).map (32 * chip + ·)).filter fun i => f (c.chan i).rot).length

/-- A channel enters a phase of its slot now. -/
def Chip.enterPhase (c : Chip) (i : Nat) (r : Rot) : Chip := c.onChan i fun x => { x with rot := r, rotAt := c.mono }

/-- Whether a channel still to come in a round drops out of it: rotation now skips it (R380), or every shadow of its chip stays on a channel whose
hand-back failed, and it is retried in the next round (R377, log entry 114). -/
def Chip.rotDrops (c : Chip) (i : Nat) : Bool :=
  (c.chan i).rot == .idle &&
    (c.skipsRot i || eActive (c.chan i).entry == 0 || decide (4 ≤ c.onShadows (i / 32) (· == .onShadow)))

/-- Takes out of a round the channels that drop out of it. -/
def Chip.prune (c : Chip) (g : Nat) : Chip := c.onGrp g fun x => { x with todo := x.todo.filter fun i => !c.rotDrops i }

/-- Gives a free shadow of each chip to the next channel of the round; a channel left on a shadow by an earlier round goes on with its reattach phase
(R375, R377). -/
def Chip.attachMore (c : Chip) : List Nat → Chip
  | [] => c
  | i :: is =>
    let c1 := if (c.chan i).rot == .onShadow then c.enterPhase i .reattach
      else if (c.chan i).rot == .idle && decide (c.onShadows (i / 32) (· != .idle) < 4) then c.enterPhase i .attach
      else c
    c1.attachMore is

/-- Starts a round of a group (R379). -/
def Chip.startRound (c : Chip) (g : Nat) : Chip :=
  let l := c.rotList g
  let c1 := c.onGrp g fun x => { x with round := some c.mono, lastStart := some c.mono, todo := l, nextLate := false }
  (c1.attachMore l).prune g

/-- The period of a group's rounds in ns. -/
def Chip.rotPeriod (c : Chip) (g : Nat) : Nat := c.fld (CG_CALCTL_ROTPERIOD g) * 1000000000

/-- Ends a round whose channels are all done (R379); one that took longer than ROTPERIOD shows in ROUND_LATE. -/
def Chip.closeRound (c : Chip) (g : Nat) : Chip :=
  let x := c.grp g
  match x.round, x.todo with
  | some t, [] =>
    let c1 := ((c.onGrp g fun x => { x with round := none }).bump (CG_ROUNDS_LO g) 1).setFld (CG_CALSTAT_LASTROUND g)
      (Nat.min ((c.mono - t) / 1000000) 65535)
    if x.nextLate || decide (t + c.rotPeriod g < c.mono) then
      (c1.setFlag (CG_CALSTAT_ROUND_LATE g) true).onGrp g fun x => { x with nextLate := true }
    else c1
  | _, _ => c

/-- Ends a round whose channels are all done, and starts the next at once where it was late (R379). -/
def Chip.endRound (c : Chip) (g : Nat) : Chip :=
  let c1 := c.closeRound g
  if (c1.grp g).round.isNone && (c1.grp g).nextLate then (c1.startRound g).closeRound g else c1

/-- A channel is done with its slot in the present round. -/
def Chip.slotDone (c : Chip) (i : Nat) (r : Rot) : Chip :=
  let g := groupOf i
  let c1 := (c.enterPhase i r).onGrp g fun x => { x with todo := x.todo.erase i }
  let c2 := c1.prune g
  (c2.attachMore (c2.grp g).todo).endRound g

/-- ROUND_START (R379). -/
def Chip.roundStart (c : Chip) (g : Nat) : Chip :=
  let x := c.grp g
  let due := match x.lastStart with
    | none => true
    | some t => decide (t + c.rotPeriod g ≤ c.mono)
  if !due then c
  else match x.round with
    | some t => if t + c.rotPeriod g < c.mono then
        (c.setFlag (CG_CALSTAT_ROUND_LATE g) true).onGrp g fun x => { x with nextLate := true } else c
    | none => (c.startRound g).endRound g

/-- Whether an instant is the end of a filter window of a channel, or no window of a triggered channel runs: where its samples may pass from one converter
to the other (R375, R376). -/
def Chan.betweenWindows (x : Chan) (t : Nat) : Bool :=
  if eSource x.entry = 0 then gridStamp (rateHz (eRate x.entry)) (t + 6000) == t + 6000
  else match (x.runWindow t 2).window with
    | none => true
    | some (start, _) => start == t

/-- Whether a channel is in a phase whose duration has passed (R375). -/
def Chip.phaseOver (c : Chip) (i : Nat) (r : Rot) (ns : Nat) : Bool :=
  (c.chan i).rot == r && decide ((c.chan i).rotAt + ns ≤ c.mono)

/-- HANDOVER (R375 to R377). -/
def Chip.handover (c : Chip) (i : Nat) (agree : Bool) : Chip :=
  if !c.phaseOver i .attach 10000000 || !(c.chan i).betweenWindows c.mono then c
  else if agree then c.enterPhase i .calibrate
  else (c.slotDone i .idle).bump (CG_HOABORT_LO (groupOf i)) 1

/-- HAND_BACK (R375 to R377). -/
def Chip.handBack (c : Chip) (i : Nat) (agree : Bool) : Chip :=
  if !c.phaseOver i .reattach 10000000 || !(c.chan i).betweenWindows c.mono then c
  else if agree then c.enterPhase i .shadowCal
  else (c.slotDone i .onShadow).bump (CG_HOABORT_LO (groupOf i)) 1

/-- SHADOW_CALIBRATION_END (R375). -/
def Chip.shadowCalEnd (c : Chip) (i : Nat) : Chip :=
  if c.phaseOver i .shadowCal 20000000 then c.slotDone i .idle else c

/-! ## Calibration and the reference check (R383 to R386, R398) -/

/-- The reference check of a calibrate phase (R383 to R385); `dev` in 0.01 ppm. -/
def Chip.refCheck (c : Chip) (g : Nat) (dev : BitVec 16) : Chip :=
  let a := dev.toInt.natAbs
  let c1 := (c.setFld (CG_REFDEV_DEV g) dev.toNat).setFlag (CG_CALSTAT_REFWARN g) (decide (2000 < a))
  if 6000 < a ∧ !c.flag (CG_CALSTAT_REFFAULT g) then
    let c2 := c1.setFlds [(CG_CALSTAT_REFFAULT g, 1), (CG_CALSTAT_FROZEN g, 1)]
    (c2.onChans (fun i c => c.onChan i fun x => { x with calAt := x.calGood }) (groupChans g)).raise 0x1C0F 6 (cgIsland g)
      (toBytes 2 g ++ toBytes 2 dev.toNat)
  else c1

/-- New coefficients of a primary, unless updates are frozen (R375, R385). -/
def Chip.newCoeffs (c : Chip) (i : Nat) (dev : BitVec 16) : Chip :=
  if c.flag (CG_CALSTAT_FROZEN (groupOf i)) then c
  else c.onChan i fun x => { x with calAt := c.mono, calGood := if dev.toInt.natAbs ≤ 2000 then c.mono else x.calGood }

/-- The DAC correction of an output channel moves toward the readback by at most 2 ppm, within ±0.05 % (R398); `gap` in
0.01 ppm of span. -/
def Chip.correctDac (c : Chip) (i : Nat) (gap : Int) : Chip :=
  let x := c.chan i
  if !isAo (eActive x.entry) then c
  else
    let n := x.dacCor + clampInt (-200) 200 gap
    if 50000 < n.natAbs then c.onChan i fun x => x.setBit stRbdev true else c.onChan i fun x => { x with dacCor := n }

/-- CALIBRATE_PHASE_END (R375, R383, R398). -/
def Chip.calibrateEnd (c : Chip) (i : Nat) (dev : BitVec 16) (gap : Int) : Chip :=
  if c.phaseOver i .calibrate 80000000 then (((c.refCheck (groupOf i) dev).newCoeffs i dev).correctDac i gap).enterPhase i .reattach
  else c

/-- A write of CG_CALCTL, RESUME among its fields (R379, R385). -/
def Chip.writeCalctl (c : Chip) (g : Nat) (v : Word) : Chip :=
  let w := v.toNat
  let p := bitsOf w 11 0
  let c1 := c.setFlds [(CG_CALCTL_ROTEN g, bitsOf w 31 31), (CG_CALCTL_NOROT_RTD2 g, bitsOf w 30 30),
    (CG_CALCTL_ROTPERIOD g, if p = 0 then 1 else if 3600 < p then 3600 else p)]
  if bitAt w 29 && decide ((signed 16 (c.fld (CG_REFDEV_DEV g))).natAbs ≤ 2000) then
    c1.setFlds [(CG_CALSTAT_REFFAULT g, 0), (CG_CALSTAT_FROZEN g, 0)]
  else c1

/-- A write of CG_SVCCAL (R382). -/
def Chip.svcCal (c : Chip) (g : Nat) (v : Word) : Chip :=
  let n := bitsOf v.toNat 5 0
  let i := 64 * g + n
  if !bitAt v.toNat 31 then c
  else
    let refuse := fun r => c.setFlds [(CG_SVCSTAT_CHAN g, n), (CG_SVCSTAT_RESULT g, r)]
    if c.mode ≠ 7 then refuse 2
    else if c.flag (CG_SVCSTAT_BUSY g) then refuse 3
    else if eActive (c.chan i).entry = 0 then refuse 4
    else (c.setFlds [(CG_SVCSTAT_BUSY g, 1), (CG_SVCSTAT_CHAN g, n), (CG_SVCSTAT_RESULT g, 0)]).onChan i fun x =>
      { x with svcEnd := some (c.mono + 80000000) }

/-- SERVICE_CALIBRATION_DONE (R382): there is no shadow whose readback could move the DAC's correction (R398). -/
def Chip.svcDone (c : Chip) (i : Nat) (dev : BitVec 16) : Chip :=
  let g := groupOf i
  match (c.chan i).svcEnd with
  | none => c
  | some t =>
    if c.mono < t then c
    else ((c.refCheck g dev).newCoeffs i dev).onChan i (fun x => { x with svcEnd := none })
      |>.setFlds [(CG_SVCSTAT_BUSY g, 0), (CG_SVCSTAT_RESULT g, 1)]

/-! ## Faults, limits and outputs (R358, R360, R387, R388, R397, R424) -/

/-- Sets or clears a live bit of an enabled analogue channel whose range meets a test. -/
def Chip.liveBit (c : Chip) (i : Nat) (ok : Nat → Bool) (b : Nat) (v : Bool) : Chip :=
  if ok (eActive (c.chan i).entry) then c.onChan i fun x => x.setBit b v else c

/-- Ranges whose wire break is a current that stays low (R360); on RTD, resistance and thermocouple ranges the samples show it. -/
def hasWireBreak (r : Nat) : Bool := r == 1 || r == 3 || r == 4

/-- Ranges whose SHORT is a current that stays high (R358); on RTD and resistance ranges the samples show it. -/
def hasShort (r : Nat) : Bool := decide (1 ≤ r ∧ r ≤ 4) || r == 0x20 || r == 0x21 || r == 0x22

/-- LIMIT_DELAY (R424). -/
def Chip.limitDelay (c : Chip) (i : Nat) (upper : Bool) : Chip :=
  let x := c.chan i
  let e := x.entry
  match x.samples with
  | [] => c
  | s :: _ =>
    let v := s.value.toInt
    if eActive e = 0 ∨ !eLimEn e then c
    else if upper then
      if eLimHi e < v then c.onChan i fun x => { x with limHi := true, limHiS := x.limHiS || !x.limHi }
      else if v < eLimHi e - eLimHyst e then c.onChan i fun x => { x with limHi := false } else c
    else
      if v < eLimLo e then c.onChan i fun x => { x with limLo := true, limLoS := x.limLoS || !x.limLo }
      else if eLimLo e + eLimHyst e < v then c.onChan i fun x => { x with limLo := false } else c

/-- The command an output follows: of a pair, the even channel's (R467). -/
def Chip.commandFor (c : Chip) (i : Nat) : Option Word :=
  let x := c.chan i
  if eMode x.entry = mPaired ∧ i % 2 = 1 then (c.chan (i - 1)).got else x.got

/-- Whether the trip matrix permits both switches of a channel; an output of another mode needs no permit. -/
def Chip.permitted (c : Chip) (e : List Byte) : Bool :=
  eMode e != mSafe || (c.permA.testBit (ePair e) && c.permB.testBit (ePair e))

/-- The channels that a trip of one channel concerns: both of a pair (R467). -/
def Chip.pairOf (c : Chip) (i : Nat) : List Nat :=
  if eMode (c.chan i).entry = mPaired then [i / 2 * 2, i / 2 * 2 + 1] else [i]

/-- Whether every junction that a trip of a channel concerns has cooled, a channel's own as given (R466, R467). -/
def Chip.allCooled (c : Chip) (i : Nat) (own : Bool) : Bool :=
  (c.pairOf i).all fun j => if j = i then own else !bitAt (c.chan j).status stOvertemp || (c.chan j).cooled

/-- A command 0 re-arms tripped switches: OVERLOAD at once, OVERTEMP once the junctions have cooled (R465, R466). -/
def Chan.rearmed (x : Chan) (cmd : Option Word) (cool : Bool) : Chan :=
  if eMode x.entry = 0 ∨ (cmd.getD 0#32).getLsbD 0 then x
  else
    let x1 := x.setBit stOverload false
    if bitAt x1.status stOvertemp then
      (if cool then { (x1.setBit stOvertemp false) with rearm := false, cooled := false } else { x1 with rearm := true })
    else x1

/-- What an output's own readback shows as its value word in a digital mode (R472). -/
def Chip.readback (c : Chip) (i : Nat) : Word :=
  let x := c.chan i
  let on := x.term == some 1#32 && c.permitted x.entry
  if on != bitAt x.status 4 then 1#32 else 0#32

/-- Takes the readback of a digital output as its newest sample. -/
def Chip.pushReadback (c : Chip) (i : Nat) : Chip :=
  if eMode (c.chan i).entry = 0 then c
  else
    let w := c.readback i
    (c.onChan i fun x => x.push ⟨w, 0, c.mono⟩).toPartner i

/-- OUTPUT_APPLY (R388, R464, R129, R392, R478, R483, R775, R828). -/
def Chip.outputApply (c : Chip) (i : Nat) : Chip :=
  let g := groupOf i
  if !(c.chan i).isOutput || c.flag (CG_LINKSTAT_SAFE g) then c
  else if c.flag (CG_FPSTAT_MISSING g) || (c.grp g).filling || c.sec.package.isEmpty then c.onChan i fun x => { x with term := none, drive := 0 }
  else
    let cmd := c.commandFor i
    let c1 := c.onChan i fun x => x.endRamp c.mono
    match (c1.chan i).ramp with
    | some r => c1.onChan i fun x => { x with ramp := some { r with held := cmd <|> r.held } }
    | none =>
      let c2 := c1.onChan i fun x => (x.rearmed cmd (c.allCooled i x.cooled)).drives cmd
      let c3 := if cmd.isSome && eMode (c2.chan i).entry == 0 then c2.onChan i fun x => x.setBit stRangeChg false else c2
      c3.pushReadback i

/-! ## HART (R399 to R406) -/

/-- A response message (R403). -/
def hartMsg (chan cmd tag result rsp dev : Nat) (data : List Byte) : List Byte :=
  toBytes 2 chan ++ toBytes 2 cmd ++ toBytes 2 tag ++ toBytes 1 data.length ++ toBytes 1 result ++ toBytes 1 rsp ++
    toBytes 1 dev ++ toBytes 6 0 ++ data

/-- Whether a channel takes HART requests. -/
def Chan.hartOn (x : Chan) : Bool := isHart (eActive x.entry) && eHartEn x.entry

/-- Publishes a response on a group's response ring. -/
def Chip.hartRespond (c : Chip) (g : Nat) (bs : List Byte) : Chip := c.publishWait (c.fld (CG_HARTCFG_RSPRING g)) (cgIsland g) bs

/-- HART_REQUEST (R402, R404): the oldest message of the request ring. -/
def Chip.hartRequest (c : Chip) (g : Nat) : Chip :=
  let ring := c.fld (CG_HARTCFG_REQRING g)
  match c.inbox ring (cgIsland g) with
  | none => c
  | some m =>
    if !c.flag (CG_HARTCFG_ENABLE g) || !c.islandOn (cgIsland g) then c
    else
      let b := m.bytes
      let chan := bytesAt b 0 2
      let cmd := bytesAt b 2 2
      let tag := bytesAt b 4 2
      let data := (b.drop 16).take (bytesAt b 6 1)
      let c1 := c.consume ring
      let refuse := fun r => c1.hartRespond g (hartMsg chan cmd tag r 0 0 [])
      match c.localChan chan with
      | none => refuse 3
      | some i =>
        let x := c.chan i
        if groupOf i ≠ g ∨ !x.hartOn then refuse 3
        else if 4 ≤ x.hart.length then refuse 5
        else c1.onChan i fun x => { x with hart := x.hart ++ [⟨cmd, tag, bitAt (bytesAt b 7 1) 0, data⟩] }

/-- Whether the loop current is below 3.5 mA at an instant (R405). -/
def Chan.loopLow (x : Chan) (t : Nat) : Bool :=
  decide ((match x.samples with
    | s :: _ => s.meas
    | [] => x.driveAt t) * 2 < 7 * 2 ^ 32)

/-- HART_RESPONSE (R403 to R405): the oldest request of the channel ends; requests wait in STANDBY and in a crossfade (R647, R675), and while the island's
clock is stopped (R100). -/
def Chip.hartResponse (c : Chip) (i : Nat) (r : HartEnd) : Chip :=
  let x := c.chan i
  let g := groupOf i
  match if c.mode = 6 ∨ c.red.xAt.isSome ∨ !c.islandOn (cgIsland g) then [] else x.hart with
  | [] => c
  | q :: qs =>
    let c1 := c.onChan i fun x => { x with hart := qs }
    let say := fun (c : Chip) res rsp dev data => c.hartRespond g (hartMsg (c.chanBase + i) q.cmd q.tag res rsp dev data)
    if x.loopLow c.mono then say c1 4 0 0 []
    else match r with
      | .silent => say (c1.onChan i fun x => x.setBit 14 true) 1 0 0 []
      | .garbled => say (c1.onChan i fun x => x.setBit 14 true) 2 0 0 []
      | .reply rsp dev data =>
        say (c1.onChan i fun x => { ((x.setBit 14 false).setBit 15 (dev.getLsbD 7)) with
          hartRsp := rsp.toNat, hartDev := dev.toNat }) 0 rsp.toNat dev.toNat data

/-- BURST_FRAME (R403). -/
def Chip.burst (c : Chip) (i cmd rsp dev : Nat) (data : List Byte) : Chip :=
  if (c.chan i).hartOn && c.islandOn (cgIsland (groupOf i)) then c.hartRespond (groupOf i) (hartMsg (c.chanBase + i) cmd 0xFFFF 6 rsp dev data) else c

/-! ## Commands -/

/-- SAMPLE_DELIVERY (R365): the signal at the terminals in 2^-32 of mA, V or mV, or Ω for an RTD or resistance, and the temperature at the module's
cold-junction sensor nearest the channel in 2^-32 °C. -/
def execSampleDelivery (chan : Chan512) (signal sensor : Int) (m : State) : Out :=
  .next (m.onChip fun c => c.sampleDelivery chan.val signal sensor)

/-- TRIGGER_ARRIVAL (R371). -/
def execTriggerArrival (chan : Chan512) (m : State) : Out := .next (m.onChip fun c => c.triggerArrival chan.val)

/-- CG_SWTRIG (R368). -/
def execCgSwtrig (src : Island) (group : Group) (high : Bool) (value : Word) (m : State) : Out :=
  .next (m.onChip fun c => c.whenOn src.val (CG_SWTRIG0 group.val) fun c => c.swTrig group.val high value)

/-- ROUND_START (R379). -/
def execRoundStart (group : Group) (m : State) : Out := .next (m.onChip fun c => c.roundStart group.val)

/-- HANDOVER (R377). -/
def execHandover (chan : Chan512) (agree : Bool) (m : State) : Out := .next (m.onChip fun c => c.handover chan.val agree)

/-- CALIBRATE_PHASE_END (R383). -/
def execCalibratePhaseEnd (chan : Chan512) (dev : BitVec 16) (gap : Int) (m : State) : Out :=
  .next (m.onChip fun c => c.calibrateEnd chan.val dev gap)

/-- HAND_BACK (R377). -/
def execHandBack (chan : Chan512) (agree : Bool) (m : State) : Out := .next (m.onChip fun c => c.handBack chan.val agree)

/-- SHADOW_CALIBRATION_END (R375). -/
def execShadowCalibrationEnd (chan : Chan512) (m : State) : Out := .next (m.onChip fun c => c.shadowCalEnd chan.val)

/-- RESUME (R385): a write of CG_CALCTL. -/
def execResume (src : Island) (group : Group) (value : Word) (m : State) : Out :=
  .next (m.onChip fun c => c.whenOn src.val (CG_CALCTL group.val) fun c => c.writeCalctl group.val value)

/-- SERVICE_CALIBRATION (R382): a write of CG_SVCCAL. -/
def execServiceCalibration (src : Island) (group : Group) (value : Word) (m : State) : Out :=
  .next (m.onChip fun c => c.whenOn src.val (CG_SVCCAL group.val) fun c => c.svcCal group.val value)

/-- SERVICE_CALIBRATION_DONE (R382): without a shadow the gap moves no correction (R398). -/
def execServiceCalibrationDone (chan : Chan512) (dev : BitVec 16) (_gap : Int) (m : State) : Out :=
  .next (m.onChip fun c => c.svcDone chan.val dev)

/-- OUTPUT_APPLY (R388). -/
def execOutputApply (chan : Chan512) (m : State) : Out := .next (m.onChip fun c => c.outputApply chan.val)

/-- RBDEV (R397): the deviation has held, or has been absent, for RBTIME. -/
def execRbdev (chan : Chan512) (present : Bool) (m : State) : Out :=
  .next (m.onChip fun c => c.liveBit chan.val isAo stRbdev present)

/-- WIREBREAK (R360). -/
def execWirebreak (chan : Chan512) (present : Bool) (m : State) : Out :=
  .next (m.onChip fun c => c.liveBit chan.val hasWireBreak 0 present)

/-- SHORT (R358). -/
def execShort (chan : Chan512) (present : Bool) (m : State) : Out :=
  .next (m.onChip fun c => c.liveBit chan.val hasShort 1 present)

/-- LIMIT_DELAY (R424): the value has been beyond the limit, or back within it, for LIMDELAY. -/
def execLimitDelay (chan : Chan512) (upper : Bool) (m : State) : Out := .next (m.onChip fun c => c.limitDelay chan.val upper)

/-- HART_REQUEST (R402). -/
def execHartRequest (group : Group) (m : State) : Out := .next (m.onChip fun c => c.hartRequest group.val)

/-- HART_RESPONSE (R403). -/
def execHartResponse (chan : Chan512) (result : HartEnd) (m : State) : Out :=
  .next (m.onChip fun c => c.hartResponse chan.val result)

/-- BURST_FRAME (R403). -/
def execBurstFrame (chan : Chan512) (cmd : BitVec 16) (rsp dev : Byte) (data : List Byte) (m : State) : Out :=
  .next (m.onChip fun c => c.burst chan.val cmd.toNat rsp.toNat dev.toNat data)

end Sys2Proof.Machine
end

