-- ==== Sys2Proof/Machine/Branch.lean ====
section
/-!
DEFINITION. Branches, jumps, calls and function-block calls, the timer slots (R164 to R170, R173 to R176, R188).
-/

namespace Sys2Proof.Machine

/-- A displacement in words from the program counter. -/
def relTarget (pc : Word) (d : Word) : Word := pc + (d <<< 2)

/-- BCC: branches when its condition holds; condition 0xF is ILLEGAL (R164). -/
def execBcc (n : Core) (cond : BitVec 4) (disp : BitVec 22) (m : State) : Out :=
  .next (m.instr n (formC 0x20 cond disp) 4 (cond != 0xF#4) fun m => m.onCore n fun c =>
    if condHolds c.flags cond then { c with pc := relTarget c.pc (disp.signExtend 32) } else c.adv 4)

/-- JMP (R165). -/
def execJmp (n : Core) (disp : BitVec 26) (m : State) : Out :=
  .next (m.instr n (formJ 0x21 disp) 4 true fun m => m.onCore n fun c =>
    { c with pc := relTarget c.pc (disp.signExtend 32) })

/-- CALL: W30 takes the return address, then the jump (R165). -/
def execCall (n : Core) (disp : BitVec 26) (m : State) : Out :=
  .next (m.instr n (formJ 0x22 disp) 4 true fun m => m.onCore n fun c =>
    { c.ww 30 (c.pc + 4#32) with pc := relTarget c.pc (disp.signExtend 32) })

/-- A jump to an absolute target with a link: ALIGN where bits 1:0 of the target are not 0 (R166). -/
def State.jumpLink (m : State) (n : Core) (rd : RegN) (target : Word) (len : Nat) : State :=
  if target &&& 3#32 ≠ 0#32 then m.exc n excAlign target
  else m.onCore n fun c => { c.ww rd (c.pc + BitVec.ofNat 32 len) with pc := target }

/-- JALR: reads ra before it writes rd (R166). -/
def execJalr (n : Core) (rd ra : RegN) (imm : BitVec 16) (m : State) : Out :=
  .next (m.instr n (formB 0x23 rd ra imm) 4 true fun m =>
    m.jumpLink n rd ((m.core n).rw ra + imm.signExtend 32) 4)

/-- JL: ra must be 0; the return address is PC + 8 (R188). -/
def execJl (n : Core) (rd ra : RegN) (zero : BitVec 10) (imm : Word) (m : State) : Out :=
  .next (m.instr n (formL 0x09 rd ra zero) 8 (zero == 0#10 && ra == 0) fun m => m.jumpLink n rd imm 8)

/-- Whether a word address is writable instance data for a core (R168). -/
def State.frameAt (m : State) (n : Core) (a : Word) : Option Nat :=
  if a.toNat < 0x10000000 ∨ 0x50000000 ≤ a.toNat then none
  else match m.map n .write a.toNat 4 with
    | .at (.dram p) => some p
    | _ => none

/-- A function-block call (R168, R170): the checks in their order, all or nothing; it waits where two entries of the
store buffer cannot be freed. -/
def State.callFb (m : State) (n : Core) (ri : RegN) (target : Word) (len : Nat) : State :=
  let c := m.core n
  let wi := c.rw ri
  let sp := c.rw 31 - 8#32
  if target &&& 3#32 ≠ 0#32 then m.exc n excAlign target
  else if (c.rw 31).toNat % 8 ≠ 0 then m.exc n excAlign (c.rw 31)
  else if wi.toNat % 16 ≠ 0 || wi.toNat < 0x10000000 || 0x4FFFFFF0 < wi.toNat then m.exc n excInstance wi
  else if !c.isX && sp.toNat < c.stklim.toNat then m.exc n excAccess sp
  else match m.frameAt n sp, m.frameAt n (sp + 4#32) with
    | none, _ => m.exc n excAccess sp
    | _, none => m.exc n excAccess (sp + 4#32)
    | some p, some q =>
      let m := m.makeRoom n 2
      if !m.hasRoom n 2 then m
      else
        let m := m.pushStore n ⟨.dram p, sp, 4, (c.rw 28).toNat, none⟩
        let m := m.pushStore n ⟨.dram q, sp + 4#32, 4, (c.rw 30).toNat, none⟩
        m.onCore n fun c' => { ((c'.ww 31 sp).ww 28 wi).ww 30 (c.pc + BitVec.ofNat 32 len) with pc := target }

/-- CALLFB: the target is PC + 4 × disp21 (R168). -/
def execCallfb (n : Core) (ri : RegN) (disp : BitVec 21) (m : State) : Out :=
  .next (m.instr n (formF 0x24 ri disp) 4 true fun m =>
    m.callFb n ri (relTarget (m.core n).pc (disp.signExtend 32)) 4)

/-- CALLFBL: an absolute target; ra must be 0; a misaligned target raises ALIGN (R188). -/
def execCallfbl (n : Core) (rd ra : RegN) (zero : BitVec 10) (imm : Word) (m : State) : Out :=
  .next (m.instr n (formL 0x0A rd ra zero) 8 (zero == 0#10 && ra == 0) fun m => m.callFb n rd imm 8)

/-! ## Timer slots -/

/-- The physical slot of a TMR operand (R173, R222); none where TIMER is raised. -/
def CoreSt.slotOf (c : CoreSt) (a : Word) : Option Nat :=
  if c.isX then (if a.toNat < 2048 then some a.toNat else none)
  else
    let base := bitsOf c.tmrwin.toNat 10 0
    let count := bitsOf c.tmrwin.toNat 27 16
    if a.toNat < count ∧ base + a.toNat < 2048 then some (base + a.toNat) else none

/-- One TMR instruction (R173): its effect on the slot and on the core, after every tick up to its own instant (R175). -/
def State.tmrInstr (m : State) (n : Core) (rd ra rb : RegN) (st : Bool) (x : BitVec 4) (fn : Nat)
    (slot : Nat → CoreSt → Slot → Slot) (dest : CoreSt → Slot → CoreSt) : State :=
  m.instr n (formA 0x26 rd ra rb st x fn) 4 (x == 0#4 && !st) fun m =>
    let c := m.core n
    match c.slotOf (c.rw ra) with
    | none => m.exc n excTimer (c.rw ra)
    | some i => m.onCore n fun c =>
      let t := (mapGet Slot.idle c.timers i).upTo m.chip.mono
      (dest { c with timers := mapSet Slot.idle c.timers i (slot m.chip.mono c t) } t).adv 4

/-- TSTART: remaining takes rb, done where it is 0, running where it is not; rd takes 0 (R173). -/
def execTstart (n : Core) (rd ra rb : RegN) (st : Bool) (x : BitVec 4) (m : State) : Out :=
  .next (m.tmrInstr n rd ra rb st x 0x00
    (fun now c _ => ⟨(c.rw rb).toNat, c.rw rb == 0#32, c.rw rb != 0#32, now⟩) (fun c _ => c.ww rd 0#32))

/-- TSTOP: the slot stops; rd takes its remaining count (R173). -/
def execTstop (n : Core) (rd ra rb : RegN) (st : Bool) (x : BitVec 4) (m : State) : Out :=
  .next (m.tmrInstr n rd ra rb st x 0x01
    (fun _ _ t => { t with running := false }) (fun c t => c.ww rd (BitVec.ofNat 32 t.remaining)))

/-- TREAD: rd takes the remaining count (R173). -/
def execTread (n : Core) (rd ra rb : RegN) (st : Bool) (x : BitVec 4) (m : State) : Out :=
  .next (m.tmrInstr n rd ra rb st x 0x02 (fun _ _ t => t) (fun c t => c.ww rd (BitVec.ofNat 32 t.remaining)))

/-- TDONE: rd takes the done flag, Z = (rd = 0) (R173). -/
def execTdone (n : Core) (rd ra rb : RegN) (st : Bool) (x : BitVec 4) (m : State) : Out :=
  .next (m.tmrInstr n rd ra rb st x 0x03 (fun _ _ t => t) (fun c t =>
    ({ c with flags := { c.flags with z := !t.done } }).ww rd (BitVec.ofNat 32 (b2n t.done))))

/-- TIMER_TICK: the slots of every core count the ticks that have come (R174); the slots of a core whose clock is stopped keep their
counts (R100). -/
def execTimerTick (m : State) : Out :=
  .next { m with cores := Vector.ofFn fun n =>
    if (m.core n).stopped.isSome then m.core n else (m.core n).tick m.chip.mono }

/-- TIMER_SLOT_DONE: a running slot whose count reaches 0 sets done and stops (R174). -/
def execTimerSlotDone (n : Core) (i : Fin 2048) (m : State) : Out :=
  .next (m.onCore n fun c =>
    let t := mapGet Slot.idle c.timers i.val
    if t.running && decide (t.remaining ≤ t.ticks m.chip.mono) && c.stopped.isNone then
      { c with timers := mapSet Slot.idle c.timers i.val (t.upTo m.chip.mono) }
    else c)

end Sys2Proof.Machine
end

