-- ==== Sys2Proof/Machine/Float.lean ====
section
/-!
DEFINITION. IEEE 754-2019 arithmetic in binary32 and binary64 as the FPU group computes it (R181 to R187): an operand
is read as an exact number, the result is computed exactly and rounded once.
-/

namespace Sys2Proof.Machine

/-- A binary format: exponent bits and fraction bits. -/
structure Fmt where
  eb : Nat
  mb : Nat
  deriving DecidableEq, Repr

/-- binary32 (S = 0). -/
def binary32 : Fmt := ⟨8, 23⟩

/-- binary64 (S = 1). -/
def binary64 : Fmt := ⟨11, 52⟩

/-- The format that S selects (R181). -/
def fmtOf (s : Bool) : Fmt := if s then binary64 else binary32

/-- The exponent bias. -/
def Fmt.bias (t : Fmt) : Nat := 2 ^ (t.eb - 1) - 1

/-- The exponent of the last fraction bit of the smallest numbers. -/
def Fmt.low (t : Fmt) : Int := 1 - (t.bias : Int) - t.mb

/-- The width of the format. -/
def Fmt.width (t : Fmt) : Nat := 1 + t.eb + t.mb

/-- A number read from its bits: a NaN (signalling or not), an infinity, or (-1)^neg × m × 2^e. -/
inductive FVal where
  | nan (signalling : Bool)
  | inf (neg : Bool)
  | fin (neg : Bool) (m : Nat) (e : Int)
  deriving DecidableEq, Repr

/-- Reads a number. -/
def Fmt.read (t : Fmt) (x : Nat) : FVal :=
  let m := x % 2 ^ t.mb
  let e := x / 2 ^ t.mb % 2 ^ t.eb
  let neg := x / 2 ^ (t.mb + t.eb) % 2 == 1
  if e = 2 ^ t.eb - 1 then (if m = 0 then .inf neg else .nan (decide (m < 2 ^ (t.mb - 1))))
  else if e = 0 then .fin neg m t.low
  else .fin neg (m + 2 ^ t.mb) (t.low + e - 1)

/-- The canonical quiet NaN (R183). -/
def Fmt.qnan (t : Fmt) : Nat := (2 ^ t.eb - 1) * 2 ^ t.mb + 2 ^ (t.mb - 1)

/-- The sign bit in place. -/
def Fmt.sign (t : Fmt) (neg : Bool) : Nat := if neg then 2 ^ (t.mb + t.eb) else 0

/-- An infinity. -/
def Fmt.infinity (t : Fmt) (neg : Bool) : Nat := t.sign neg + (2 ^ t.eb - 1) * 2 ^ t.mb

/-- The largest finite number. -/
def Fmt.largest (t : Fmt) (neg : Bool) : Nat := t.sign neg + (2 ^ t.eb - 1) * 2 ^ t.mb - 1

/-- The IEEE exceptions in the order of FCSR.FLAGS: NV, DZ, OF, UF, NX from bit 4 down to bit 0. -/
def exNV : Nat := 16
def exDZ : Nat := 8
def exOF : Nat := 4
def exUF : Nat := 2
def exNX : Nat := 1

/-- A result in its format's bits, and the exceptions it signals. -/
structure FOut where
  bits : Nat
  ex   : Nat
  deriving DecidableEq, Repr

/-- FCSR.RM: 0 to nearest even, 1 toward zero, 2 toward minus infinity, 3 toward plus infinity. -/
def roundsUp (rm : Nat) (neg : Bool) (odd : Bool) (rem half : Nat) (sticky : Bool) : Bool :=
  let inexact := rem != 0 || sticky
  match rm with
  | 0 => decide (half < rem) || (rem == half && half != 0 && (sticky || odd))
  | 1 => false
  | 2 => neg && inexact
  | _ => !neg && inexact

/-- The number of bits of a number; 0 for 0. -/
def bitLen (m : Nat) : Nat := if m = 0 then 0 else m.log2 + 1

/-- A mantissa cut at 2^q: the kept part, rounded, and whether anything was lost. -/
def cutAt (rm : Nat) (neg : Bool) (m : Nat) (e q : Int) (sticky : Bool) : Nat × Bool :=
  if q ≤ e then (m * 2 ^ (e - q).toNat, sticky)
  else
    let sh := (q - e).toNat
    let kept := m / 2 ^ sh
    let rem := m % 2 ^ sh
    (if roundsUp rm neg (kept % 2 == 1) rem (2 ^ (sh - 1)) sticky then kept + 1 else kept, rem != 0 || sticky)

/-- Rounds (-1)^neg × m × 2^e once; `sticky` says that the exact magnitude is a little larger, and is given only
where m has at least two bits more than the format. -/
def Fmt.round (t : Fmt) (rm : Nat) (neg : Bool) (m : Nat) (e : Int) (sticky : Bool) : FOut :=
  if m = 0 then ⟨t.sign neg, 0⟩
  else
    let top := e + bitLen m - 1 - t.mb
    let q := if top < t.low then t.low else top
    let (k, lost) := cutAt rm neg m e q sticky
    let (free, _) := cutAt rm neg m e top sticky
    let tinyBefore := decide (top < t.low)
    let tinyAfter := decide (top + (if free = 2 ^ (t.mb + 1) then 1 else 0) < t.low)
    let tiny := if Config.tinyAfterRounding then tinyAfter else tinyBefore
    let biased : Int := q - t.low + 1
    let (k, biased) := if k = 2 ^ (t.mb + 1) then (2 ^ t.mb, biased + 1) else (k, biased)
    if k < 2 ^ t.mb then ⟨t.sign neg + k, if lost then exNX + exUF else 0⟩
    else if (2 : Int) ^ t.eb - 1 ≤ biased then
      let toInf := match rm with
        | 0 => true
        | 1 => false
        | 2 => neg
        | _ => !neg
      ⟨if toInf then t.infinity neg else t.largest neg, exOF + exNX⟩
    else ⟨t.sign neg + biased.toNat * 2 ^ t.mb + (k - 2 ^ t.mb), if lost then exNX + (if tiny then exUF else 0) else 0⟩

/-- The canonical NaN for a NaN operand: invalid where one of them signals. -/
def Fmt.propagate (t : Fmt) (vs : List FVal) : FOut := ⟨t.qnan, if vs.contains (.nan true) then exNV else 0⟩

/-- The canonical NaN of an invalid operation. -/
def Fmt.invalid (t : Fmt) : FOut := ⟨t.qnan, exNV⟩

/-- Whether one of the operands is a NaN. -/
def anyNaN (vs : List FVal) : Bool := vs.contains (.nan true) || vs.contains (.nan false)

/-- The exact sum of two finite numbers, rounded; an exact zero is -0 only toward minus infinity or from two -0. -/
def Fmt.addFin (t : Fmt) (rm : Nat) (n1 : Bool) (m1 : Nat) (e1 : Int) (n2 : Bool) (m2 : Nat) (e2 : Int) : FOut :=
  let e := if e1 < e2 then e1 else e2
  let a : Int := (if n1 then -1 else 1) * (m1 * 2 ^ (e1 - e).toNat : Nat)
  let b : Int := (if n2 then -1 else 1) * (m2 * 2 ^ (e2 - e).toNat : Nat)
  let r := a + b
  if r = 0 then ⟨t.sign (if n1 == n2 then n1 else rm == 2), 0⟩ else t.round rm (decide (r < 0)) r.natAbs e false

/-- Addition (R181, R183). -/
def Fmt.add (t : Fmt) (rm : Nat) (x y : FVal) : FOut :=
  match x, y with
  | .fin n1 m1 e1, .fin n2 m2 e2 => t.addFin rm n1 m1 e1 n2 m2 e2
  | .inf n1, .inf n2 => if n1 == n2 then ⟨t.infinity n1, 0⟩ else t.invalid
  | .inf n1, .fin _ _ _ => ⟨t.infinity n1, 0⟩
  | .fin _ _ _, .inf n2 => ⟨t.infinity n2, 0⟩
  | x, y => t.propagate [x, y]

/-- The number with the other sign. -/
def FVal.neg : FVal → FVal
  | .nan s => .nan s
  | .inf n => .inf (!n)
  | .fin n m e => .fin (!n) m e

/-- Multiplication (R181, R183). -/
def Fmt.mul (t : Fmt) (rm : Nat) (x y : FVal) : FOut :=
  match x, y with
  | .fin n1 m1 e1, .fin n2 m2 e2 => t.round rm (n1 != n2) (m1 * m2) (e1 + e2) false
  | .inf n1, .inf n2 => ⟨t.infinity (n1 != n2), 0⟩
  | .inf n1, .fin n2 m _ => if m = 0 then t.invalid else ⟨t.infinity (n1 != n2), 0⟩
  | .fin n1 m _, .inf n2 => if m = 0 then t.invalid else ⟨t.infinity (n1 != n2), 0⟩
  | x, y => t.propagate [x, y]

/-- Division (R181, R183): a finite number by zero signals DZ. -/
def Fmt.div (t : Fmt) (rm : Nat) (x y : FVal) : FOut :=
  match x, y with
  | .fin n1 m1 e1, .fin n2 m2 e2 =>
    if m2 = 0 then (if m1 = 0 then t.invalid else ⟨t.infinity (n1 != n2), exDZ⟩)
    else
      let sh := t.mb + 3 + bitLen m2 - bitLen m1
      let n := m1 * 2 ^ sh
      t.round rm (n1 != n2) (n / m2) (e1 - e2 - sh) (n % m2 != 0)
  | .inf _, .inf _ => t.invalid
  | .inf n1, .fin n2 _ _ => ⟨t.infinity (n1 != n2), 0⟩
  | .fin n1 _ _, .inf n2 => ⟨t.sign (n1 != n2), 0⟩
  | x, y => t.propagate [x, y]

/-- The integer square root, bit by bit from bit `i` down. -/
def isqrtFrom (n : Nat) : Nat → Nat → Nat
  | 0, r => r
  | i + 1, r => if (r + 2 ^ i) * (r + 2 ^ i) ≤ n then isqrtFrom n i (r + 2 ^ i) else isqrtFrom n i r

/-- The integer square root. -/
def isqrt (n : Nat) : Nat := isqrtFrom n (bitLen n / 2 + 1) 0

/-- Square root (R181, R183). -/
def Fmt.sqrt (t : Fmt) (rm : Nat) (x : FVal) : FOut :=
  match x with
  | .fin n m e =>
    if m = 0 then ⟨t.sign n, 0⟩
    else if n then t.invalid
    else
      let sh := 2 * (t.mb + 3) + (e % 2).toNat
      let v := m * 2 ^ sh
      let r := isqrt v
      t.round rm false r ((e - sh) / 2) (r * r != v)
  | .inf n => if n then t.invalid else ⟨t.infinity false, 0⟩
  | x => t.propagate [x]

/-- Fused multiply-add: x + y × z with one rounding (R181). -/
def Fmt.fma (t : Fmt) (rm : Nat) (x y z : FVal) : FOut :=
  let zeroTimesInf := match y, z with
    | .inf _, .fin _ m _ => m == 0
    | .fin _ m _, .inf _ => m == 0
    | _, _ => false
  if zeroTimesInf then
    match x with
    | .nan false => ⟨t.qnan, if Config.fmaInvalidWithNaN then exNV else 0⟩
    | _ => t.invalid
  else if anyNaN [x, y, z] then t.propagate [x, y, z]
  else match y, z with
    | .fin n2 m2 e2, .fin n3 m3 e3 => t.add rm x (.fin (n2 != n3) (m2 * m3) (e2 + e3))
    | .inf n2, .inf n3 => t.add rm x (.inf (n2 != n3))
    | .inf n2, .fin n3 _ _ => t.add rm x (.inf (n2 != n3))
    | .fin n2 _ _, .inf n3 => t.add rm x (.inf (n2 != n3))
    | _, _ => t.propagate [x, y, z]

/-- The number as an integer multiple of 2^`q`, signed. -/
def scaled (n : Bool) (m : Nat) (e q : Int) : Int := (if n then -1 else 1) * (m * 2 ^ (e - q).toNat : Nat)

/-- Less than, on two numbers that are not NaN; -0 is not less than +0 here. -/
def FVal.lt (x y : FVal) : Bool :=
  match x, y with
  | .inf n1, .inf n2 => n1 && !n2
  | .inf n1, _ => n1
  | _, .inf n2 => !n2
  | .fin n1 m1 e1, .fin n2 m2 e2 =>
    let q := if e1 < e2 then e1 else e2
    decide (scaled n1 m1 e1 q < scaled n2 m2 e2 q)
  | _, _ => false

/-- The sign of a number. -/
def FVal.isNeg : FVal → Bool
  | .inf n => n
  | .fin n _ _ => n
  | .nan _ => false

/-- Before in the order that takes -0 as less than +0 (R184). -/
def FVal.before (x y : FVal) : Bool := x.lt y || (!y.lt x && x.isNeg && !y.isNeg)

/-- minimumNumber and maximumNumber on the operands' bits (R184). -/
def Fmt.minMax (t : Fmt) (wantMax : Bool) (a b : Nat) : FOut :=
  let x := t.read a
  let y := t.read b
  let ex := if x = .nan true || y = .nan true then exNV else 0
  if anyNaN [x] && anyNaN [y] then ⟨t.qnan, ex⟩
  else if anyNaN [x] then ⟨b, ex⟩
  else if anyNaN [y] then ⟨a, ex⟩
  else if wantMax then ⟨if x.before y then b else a, ex⟩
  else ⟨if y.before x then b else a, ex⟩

/-- FABS and FNEG on the operand's bits: a NaN gives the canonical one (R183). -/
def Fmt.setSign (t : Fmt) (x : Nat) (neg : Bool) : FOut :=
  if anyNaN [t.read x] then ⟨t.qnan, 0⟩ else ⟨x % 2 ^ (t.mb + t.eb) + t.sign neg, 0⟩

/-- Conversion of a number into a format (R181, R183). -/
def Fmt.ofVal (t : Fmt) (rm : Nat) (x : FVal) : FOut :=
  match x with
  | .fin n m e => t.round rm n m e false
  | .inf n => ⟨t.infinity n, 0⟩
  | x => t.propagate [x]

/-- Conversion of an integer into a format (R181). -/
def Fmt.ofInt (t : Fmt) (rm : Nat) (i : Int) : FOut := t.round rm (decide (i < 0)) i.natAbs 0 false

/-- Conversion to an integer in [lo, hi], and the exceptions it signals (R185). -/
def FVal.toInteger (rm : Nat) (lo hi : Int) (x : FVal) : Int × Nat :=
  match x with
  | .nan _ => (0, exNV)
  | .inf n => (if n then lo else hi, exNV)
  | .fin n m e =>
    let (k, lost) := cutAt rm n m e 0 false
    let r : Int := if n then -(k : Int) else k
    if r < lo then (lo, exNV) else if hi < r then (hi, exNV) else (r, if lost then exNX else 0)

end Sys2Proof.Machine
end

