-- ==== Sys2Proof/Machine/RegAccess.lean ====
section
/-!
DEFINITION. Reading and writing a register of an island: access codes (R20 to R24), counters (R686 to R691), live
registers, and the registers whose write starts an action.
-/

namespace Sys2Proof.Machine

/-! ## The register map -/

/-- Whether a row of the map covers a place. -/
def RegDesc.covers (d : RegDesc) (k : Nat) : Bool :=
  if k < d.base then false
  else
    let x := k - d.base
    let i := if d.s1 = 0 then 0 else x / d.s1
    let r := if d.s1 = 0 then x else x % d.s1
    let j := if d.s2 = 0 then 0 else r / d.s2
    let r2 := if d.s2 = 0 then r else r % d.s2
    decide (i < d.n1) && decide (j < d.n2) && r2 == 0

/-- The row of the map for a place. -/
def regDesc (k : Nat) : Option RegDesc := regTable.find? fun d => d.covers k

/-- The counter a place is the low or the high word of: its _LO place, and whether the place is the high word. -/
def counterAt (k : Nat) : Option (Nat × Bool) :=
  (counterTable.find? fun (b, n, s) =>
      b ≤ k && (if s = 0 then k - b < 8 else (k - b) / s < n && (k - b) % s < 8) && (k - b) % 4 == 0).map fun (b, _, s) =>
    let o := if s = 0 then k - b else (k - b) % s
    (k - o, o == 4)

/-! ## Locks -/

/-- The default lock of an RWL field: open in PROGRAM and SERVICE (R23). -/
def Chip.modeLockOpen (c : Chip) : Bool := c.mode == 3 || c.mode == 7

/-- The lock of the RWL fields of a register (R23 and the register's own condition). -/
def Chip.lockOpen (c : Chip) (_k : Nat) : Bool := c.modeLockOpen

/-- What a write that finds the lock closed leaves: the field unchanged, an event in stream 29 (R24). -/
def Chip.rwlIgnored (c : Chip) (src k : Nat) : Chip :=
  c.raise 0x1D01 3 0x15 (toBytes 1 (islandOf k) ++ toBytes 1 src ++ toBytes 2 (offsetOf k % 65536))

/-! ## Generic access -/

/-- The value a write leaves in one field (R20). -/
def writeField (isOpen : Bool) (old v : Word) (d : FieldDesc) : Nat :=
  let f : Fld := ⟨0, d.hi, d.lo⟩
  match d.acc with
  | .rw => getF f v
  | .rwl => if isOpen then getF f v else getF f old
  | .w1c => getF f (old &&& ~~~v)
  | .ro | .rc | .wo => getF f old

/-- A register after a write under its access codes. -/
def writeWord (isOpen : Bool) (old v : Word) : List FieldDesc → Word → Word
  | [], w => w
  | d :: ds, w => writeWord isOpen old v ds (putF ⟨0, d.hi, d.lo⟩ w (writeField isOpen old v d))

/-- A register after a read: its RC fields cleared. -/
def readCleared : List FieldDesc → Word → Word
  | [], w => w
  | d :: ds, w => readCleared ds (match d.acc with | .rc => putF ⟨0, d.hi, d.lo⟩ w 0 | _ => w)

/-- What a read returns: WO fields read 0 (R20). -/
def readShown : List FieldDesc → Word → Word
  | [], w => w
  | d :: ds, w => readShown ds (match d.acc with | .wo => putF ⟨0, d.hi, d.lo⟩ w 0 | _ => w)

/-- Whether a row has an RWL field. -/
def RegDesc.hasLock (d : RegDesc) : Bool := d.fields.any fun f => f.acc == .rwl

/-- A write of a register that has no row of its own (R20, R24). -/
def Chip.writePlain (c : Chip) (src k : Nat) (v : Word) : Chip :=
  match regDesc k with
  | none => c
  | some d =>
    let isOpen := c.lockOpen k
    let c' := c.setReg k (writeWord isOpen (c.reg k) v d.fields (c.reg k))
    if d.hasLock && !isOpen then c'.rwlIgnored src k else c'

/-- A read of a counter word (R687): the low word latches the high word for the reading island. -/
def Chip.readCounter (c : Chip) (src k : Nat) (hi : Bool) : Word × Chip :=
  if hi then (c.reg (latchKey k src), c)
  else (c.reg k, c.setReg (latchKey k src) (c.reg (k + 4)))

/-- COUNTER_WRITE_HI (R689). -/
def Chip.stageHigh (c : Chip) (src k : Nat) (v : Word) : Chip := c.setReg (stagedKey k src) v

/-- COUNTER_WRITE_LO (R689): the staged high word and the written low word together. -/
def Chip.loadStaged (c : Chip) (src k : Nat) (v : Word) : Chip :=
  ((c.setReg (k + 4) (c.reg (stagedKey k src))).setReg k v).setReg (stagedKey k src) 0#32

end Sys2Proof.Machine
end

