-- ==== Sys2Proof/Machine/Discrete.lean ====
section
/-!
DEFINITION. Digital inputs and outputs, field supplies and the isolation link (R451 to R488).
-/

namespace Sys2Proof.Machine

/-! ## Digital inputs (R451 to R457) -/

/-- Whether a channel is an enabled digital input of a mode. -/
def Chan.isInput (x : Chan) (m : Nat) : Bool := eEnable x.entry && eMode x.entry == m

/-- The filtered state after INVERT (R456, R457). -/
def Chan.diState (x : Chan) : Bool := x.filt != eInvert x.entry

/-- Whether a change to `new` is an edge of a kind: 0 rising, 1 falling, 2 both (R416). -/
def edgeKind (kind : Nat) (new : Bool) : Bool := kind == 2 || (if new then kind == 0 else kind == 1)

/-- A filtered edge triggers the EDGE channels of its group that name it, each within 7 µs (R368). -/
def Chip.edgeTriggers (c : Chip) (i : Nat) : Chip :=
  let new := (c.chan i).diState
  c.onChans (fun j c =>
    let e := (c.chan j).entry
    if eActive e != 0 && eSource e == 4 && eEdge e % 64 == i % 64 && edgeKind (eEdge e / 64) new then
      let (d, c) := c.free 13
      c.schedule j (c.mono + d % 7001)
    else c) (groupChans (groupOf i))

/-- The filter accepts a state (R455). -/
def Chip.accept (c : Chip) (i : Nat) (level : Bool) : Chip :=
  (c.onChan i fun x => { x with filt := level, agree := 0 }).edgeTriggers i

/-- The consecutive samples a pulsed input's filter asks for (R455). -/
def pulsedCount (e : List Byte) : Nat := 1 + (dfiltNs (eF e 0x11 1) + 249999) / 250000

/-- Delivers the state of a digital input as a sample, unless the link cannot carry it (R457, R488). -/
def Chip.pushState (c : Chip) (i stamp : Nat) : Chip :=
  if !c.flag (CG_LINKSTAT_UP (groupOf i)) || !c.islandOn (cgIsland (groupOf i)) then c
  else (c.onChan i fun x => x.push ⟨BitVec.ofNat 32 (b2n x.diState), 0, stamp⟩).toPartner i

/-- The instant k × `step` − 1 µs that is newest by `t`; none before the first. -/
def digitalStamp (step t : Nat) : Option Nat := if t + 1000 < step then none else some ((t + 1000) / step * step - 1000)

/-- Whether a digital input takes the sample stamped `s`, whose taking lasts `ns` up to it: the input was configured by then, and it has taken none so late
(R452, R453, R475). -/
def Chan.takes (x : Chan) (s ns : Nat) : Bool := decide (x.readyAt + ns ≤ s) && match x.lastArr with
  | none => true
  | some t => decide (t < s)

/-- DI_PULSED_SAMPLE (R452, R455, R505): the comparator state at the end of the window. -/
def Chip.pulsedSample (c : Chip) (i : Nat) (level : Bool) : Chip :=
  let x := c.chan i
  match digitalStamp 250000 c.mono with
  | none => c
  | some s =>
    if !x.isInput 1 || !x.takes s 26000 then c
    else
      let c := c.onChan i fun x => { x with lastArr := some s }
      let c := if eDiEn x.entry then c.setRaw (2 * i) level else c
      let n := if level == x.filt then 0 else x.agree + 1
      let c1 := if pulsedCount x.entry ≤ n then c.accept i level else c.onChan i fun x => { x with agree := n }
      c1.pushState i s

/-- DI_CONT_SAMPLE (R453). -/
def Chip.contSample (c : Chip) (i : Nat) : Chip :=
  let x := c.chan i
  match digitalStamp 31250 c.mono with
  | none => c
  | some s => if !x.isInput 2 || !x.takes s 0 then c else (c.onChan i fun x => { x with lastArr := some s }).pushState i s

/-! ## Sequence of events (R458 to R462) -/

/-- A record of a filtered change (R458, R459). -/
def Chip.soeRecord (c : Chip) (i edge seq : Nat) : List Byte :=
  let t := edge / 10 * 10
  let ft := c.fabricFracAt t
  toBytes 2 (c.chanBase + i) ++ toBytes 1 (b2n (c.chan i).diState) ++ toBytes 1 c.tqNow ++ toBytes 2 seq ++ toBytes 2 0 ++
    toBytes 8 t ++ toBytes 8 (ft / 65536) ++ toBytes 2 (ft % 65536) ++ toBytes 6 0

/-- Produces a record, or drops it where the field side holds 64 (R460, R461). -/
def Chip.soeProduce (c : Chip) (i edge : Nat) : Chip :=
  let g := groupOf i
  if !c.flag (CG_SOECFG_ENABLE g) then c
  else
    let x := c.grp g
    let seq := (x.soeSeq + 1) % 65536
    if x.soe.length < 64 then c.setGrp g { x with soe := x.soe ++ [c.soeRecord i edge x.soeSeq], soeSeq := seq }
    else ((c.setGrp g { x with soeSeq := seq, soeLost := true }).bump (CG_SOEDROP_LO g) 1).onChan i fun x => x.setBit 12 true

/-- FILTERED_CHANGE (R455, R458): a continuous input's comparator has held the new state since `edge`. -/
def Chip.filteredChange (c : Chip) (i : Nat) (level : Bool) (edge : Nat) : Chip :=
  let x := c.chan i
  if !x.isInput 2 || level == x.filt || decide (c.mono < edge + dfiltNs (eF x.entry 0x11 1)) then c
  else (c.accept i level).soeProduce i edge

/-- SOE_DELIVERY (R461): the oldest held record, with LOST where records were dropped since the last one delivered. -/
def Chip.soeDeliver (c : Chip) (g : Nat) : Chip :=
  let x := c.grp g
  let ring := c.fld (CG_SOECFG_RING g)
  match x.soe with
  | [] => c
  | r :: rs =>
    if !c.flag (CG_LINKSTAT_UP g) || !c.islandOn (cgIsland g) || decide (ring < 64) || !c.pool.canTake ring || (c.pool.held.any fun h => h.ring == ring) then c
    else
      let r' := if x.soeLost then r.set 2 ((r.getD 2 0#8) ||| 2#8) else r
      (c.setGrp g { x with soe := rs, soeLost := false }).publish ring (cgIsland g) r'

/-! ## Digital outputs (R465 to R473) -/

/-- Whether a channel is an enabled digital output. -/
def Chan.isSwitch (x : Chan) : Bool := eEnable x.entry && isDo (eMode x.entry)

/-- A channel opened by a trip, with the trip's bit and its sticky twin (R465, R466). -/
def Chan.tripped (x : Chan) (bit : Nat) : Chan :=
  { ((x.setBit bit true).setBit (bit + 6) true) with term := x.term.map fun _ => 0#32 }

/-- OVERLOAD (R465): the switch opens, of a pair both (R467). -/
def Chip.overload (c : Chip) (i : Nat) : Chip :=
  if !(c.chan i).isSwitch then c
  else c.onChans (fun j c => (c.onChan j fun x => x.tripped stOverload).pushReadback j) (c.pairOf i)

/-- OVERTEMP (R466): the switch opens, of a pair both, which re-arm only once the junction that tripped has cooled (R467). -/
def Chip.overtemp (c : Chip) (i : Nat) : Chip :=
  if !(c.chan i).isSwitch then c
  else c.onChans (fun j c => (c.onChan j fun x =>
    { x.tripped stOvertemp with rearm := false, cooled := j != i && (!bitAt x.status stOvertemp || x.cooled) }).pushReadback j) (c.pairOf i)

/-- JUNCTION_COOLED (R466): a switch whose command has been 0 since the trip re-arms, of a pair both once both junctions have cooled (R467). -/
def Chip.junctionCooled (c : Chip) (i : Nat) : Chip :=
  let x := c.chan i
  if !x.isSwitch || !bitAt x.status stOvertemp then c
  else if x.rearm && c.allCooled i true then
    c.onChans (fun j c => c.onChan j fun x => { (x.setBit stOvertemp false) with rearm := false, cooled := false }) (c.pairOf i)
  else c.onChan i fun x => { x with cooled := true }

/-- RBMISMATCH (R471): suppressed while OVERLOAD or OVERTEMP is set. -/
def Chip.rbMismatch (c : Chip) (i : Nat) (present : Bool) : Chip :=
  let x := c.chan i
  if !x.isSwitch || (present && (bitAt x.status stOverload || bitAt x.status stOvertemp)) then c
  else (c.onChan i fun x => x.setBit 4 present).pushReadback i

/-- IMBALANCE (R468): both channels of the pair. -/
def Chip.imbalance (c : Chip) (i : Nat) (present : Bool) : Chip :=
  let x := c.chan i
  if x.isSwitch && eMode x.entry == mPaired then c.onChans (fun j c => c.onChan j fun x => x.setBit 6 present) (c.pairOf i)
  else c

/-- OPENLOAD of a switch (R473), or of a current output (R358). -/
def Chip.openLoad (c : Chip) (i : Nat) (present : Bool) : Chip :=
  let x := c.chan i
  if x.isSwitch then c.onChan i fun x => x.setBit stOpenLoadD (present && ((c.commandFor i).getD 0#32).getLsbD 0)
  else c.liveBit i (fun r => decide (0x20 ≤ r ∧ r ≤ 0x22)) stOpenLoadA present

/-! ## Field supplies (R476 to R479) -/

/-- FIELD_SUPPLY_LOW (R477, R479). -/
def Chip.supplyLow (c : Chip) (g mv : Nat) : Chip :=
  if 18000 ≤ mv then c
  else if c.flag (CG_FPSTAT_LOW g) then c.setFld (CG_FPSTAT_MV g) mv
  else (c.setFlds [(CG_FPSTAT_LOW g, 1), (CG_FPSTAT_DIPPED g, 1), (CG_FPSTAT_MV g, mv)]).raise 0x1E05 4 (cgIsland g) (toBytes 1 g)

/-- FIELD_SUPPLY_MISSING (R477, R478): every output of the group is de-energised and counts as not written since. -/
def Chip.supplyMissing (c : Chip) (g mv : Nat) : Chip :=
  if 10000 ≤ mv then c
  else if c.flag (CG_FPSTAT_MISSING g) then c.setFld (CG_FPSTAT_MV g) mv
  else
    let c1 := c.setFlds [(CG_FPSTAT_MISSING g, 1), (CG_FPSTAT_LOST g, 1), (CG_FPSTAT_MV g, mv)]
    let c2 := c1.onChans (fun i c => if eMode (c.chan i).entry != 0 then c.onChan i fun x => x.setBit 11 true else c)
      (groupChans g)
    (c2.deenergise (groupChans g)).raise 0x1E06 5 (cgIsland g) (toBytes 1 g)

/-- FIELD_SUPPLY_RESTORED (R477); a supply that was missing has its buffer to charge first (R828). -/
def Chip.supplyRestored (c : Chip) (g mv : Nat) : Chip :=
  if mv ≤ 19000 then c
  else
    let c := if c.flag (CG_FPSTAT_MISSING g) then c.onGrp g fun x => { x with filling := true } else c
    c.setFlds [(CG_FPSTAT_LOW g, 0), (CG_FPSTAT_MISSING g, 0), (CG_FPSTAT_MV g, mv)]

/-! ## The isolation link (R481 to R487) -/

/-- A channel at the start of the frame at `t`: the newest value written for it is its command; while its supply is
missing nothing is written (R478). A unit in STANDBY drives no output (R80). -/
def Chan.frameStart (x : Chan) (t : Nat) (missing standby : Bool) : Chan :=
  let due := x.queue.filter fun p => decide (p.1 ≤ t)
  let want := if missing then none else (due.getLast?.map Prod.snd) <|> x.want
  let x1 := { x with queue := if missing then [] else x.queue.filter fun p => decide (t < p.1), want := want, sent := if standby then none else want }
  x1.endRamp t

/-- Whether an output is off the terminals in a frame at `t`: in STANDBY (R80), and in a crossfade before the new unit or after the
old one drives it (R674). -/
def Chip.outputOff (c : Chip) (t : Nat) (x : Chan) : Bool :=
  let volt := eActive x.entry == 0x28 || eActive x.entry == 0x29
  match c.red.xAt with
  | some a => if c.red.taking then decide (t < a + if volt then 102000 else 0) else decide (a + (if volt then 100000 else 200000) ≤ t)
  | none => c.mode == 6

/-- A group's frame at `t` (R481, R485, R486). -/
def Chip.groupFrame (c : Chip) (t g : Nat) : Chip :=
  if !(c.islandOn (cgIsland g) || (c.power.reset.isSome && decide (0 < (c.grp g).deenLeft))) || (c.grp g).frame == some t then c
  else
    let missing := c.flag (CG_FPSTAT_MISSING g)
    let mine := (c.chans.map Prod.fst).filter fun i => groupOf i == g
    let c1 := c.onChans (fun i c => c.onChan i fun x => x.frameStart t missing (c.outputOff t x)) mine
    c1.onGrp g fun x => { x with
      frame := some t, tmo := c.fld (CG_LINKCFG_TIMEOUT g), resume := false, resumed := x.resume
      deen := decide (0 < x.deenLeft), deenLeft := x.deenLeft - 1 }

/-- LINK_FRAME (R438, R481): the frame that starts at the latest multiple of 5 µs, in all groups together. -/
def Chip.linkFrame (c : Chip) : Chip :=
  let t := c.mono / 5000 * 5000
  if (List.range 8).all fun g => (c.grp g).frame == some t then c
  else (List.range 8).foldl (fun c g => c.groupFrame t g) (c.applySets t)

/-- Notes the gap between two good frame starts in LONGGAP, in µs. -/
def Chip.noteGap (c : Chip) (g : Nat) (last : Option Nat) (t : Nat) : Chip :=
  match last with
  | none => c
  | some l =>
    let us := Nat.min ((t - l) / 1000) 65535
    if c.fld (CG_LINKSTAT_LONGGAP g) < us then c.setFld (CG_LINKSTAT_LONGGAP g) us else c

/-- The field side takes the commands of a good frame (R482). -/
def Chip.takeCommands (c : Chip) (g : Nat) : Chip :=
  c.onChans (fun i c => c.onChan i fun x => { x with got := x.sent }) ((c.chans.map Prod.fst).filter fun i => groupOf i == g)

/-- The held state of one output after a link timeout (R81, R483). -/
def Chip.holdSafe (c : Chip) (i : Nat) : Chip :=
  let x := c.chan i
  if !x.isOutput then c
  else if eMode x.entry = mSafe then c.onChan i fun x => x.drives (some 0#32)
  else if (c.commandFor i).isSome then c.onChan i fun x => { x.drives (some (c.safeValue i)) with ramp := none }
  else c.onChan i fun x => { x with term := none, drive := 0, ramp := none }

/-- LINK_TIMEOUT_FIELD (R483). -/
def Chip.timeoutField (c : Chip) (g : Nat) : Chip :=
  let x := c.grp g
  match x.goodDown with
  | none => c
  | some t =>
    if c.mono < t + x.tmo * 1000 ∨ c.flag (CG_LINKSTAT_SAFE g) then c
    else
      let c1 := c.setFlds [(CG_LINKSTAT_SAFE g, 1), (CG_LINKSTAT_TMO g, 1)]
      (c1.onChans (fun i c => c.holdSafe i) ((c.chans.map Prod.fst).filter fun i => groupOf i == g)).bump (CG_LINKTMO_LO g) 1

/-- A good frame that starts in the instant of the timeout's expiry or later does not prevent it (R483). -/
def Chip.expireBefore (c : Chip) (g t : Nat) : Chip := match (c.grp g).goodDown with
  | some l => if l + (c.grp g).tmo * 1000 ≤ t then c.timeoutField g else c
  | none => c

/-- LINK_FRAME_RECEIVE (R482, R485, R486); a CG island whose clock is stopped receives nothing (R100). -/
def Chip.frameReceive (c : Chip) (g : Nat) (down good : Bool) : Chip :=
  let x := c.grp g
  match x.frame with
  | none => c
  | some t =>
    if !down && !c.islandOn (cgIsland g) then c
    else if !good then c.bump (CG_LINKCRC_LO g) 1
    else if down then
      let c := c.expireBefore g t
      let c1 := (c.noteGap g x.goodDown t).setGrp g { x with goodDown := some t }
      if x.deen then c1.deenergise (groupChans g)
      else if !c1.flag (CG_LINKSTAT_SAFE g) then c1.takeCommands g
      else if x.resumed then (c1.setFlag (CG_LINKSTAT_SAFE g) false).takeCommands g
      else c1
    else ((c.noteGap g x.goodUp t).setGrp g { x with goodUp := some t }).setFlag (CG_LINKSTAT_UP g) true

/-- LINK_TIMEOUT (R484). -/
def Chip.timeoutUp (c : Chip) (g : Nat) : Chip :=
  let x := c.grp g
  match x.goodUp with
  | none => c
  | some t =>
    if c.mono < t + x.tmo * 1000 ∨ !c.flag (CG_LINKSTAT_UP g) ∨ !c.islandOn (cgIsland g) then c
    else
      let c1 := c.setFlds [(CG_LINKSTAT_UP g, 0), (CG_LINKSTAT_TMO g, 1)]
      (c1.bump (CG_LINKTMO_LO g) 1).raise 0x1C05 6 (cgIsland g) (toBytes 1 g)

/-- A write of CG_LINKCFG (R485, R487). -/
def Chip.writeLinkcfg (c : Chip) (g : Nat) (v : Word) : Chip :=
  let n := bitsOf v.toNat 19 0
  let c1 := c.setFld (CG_LINKCFG_TIMEOUT g) (if n < 10 then 10 else if 100000 < n then 100000 else n)
  if bitAt v.toNat 31 && c.flag (CG_LINKSTAT_UP g) then c1.onGrp g fun x => { x with resume := true } else c1

/-- The link is initialised (R486): every output de-energised, LINKSAFE clear. -/
def Chip.initLink (c : Chip) (g : Nat) : Chip :=
  ((c.deenergise (groupChans g)).setFlds [(CG_LINKSTAT_SAFE g, 0), (CG_LINKSTAT_UP g, 0)]).onGrp g fun x =>
    { x with frame := none, goodDown := none, goodUp := none, resume := false, resumed := false, deenLeft := 0, deen := false }

/-! ## Commands -/

/-- DI_PULSED_SAMPLE (R452). -/
def execDiPulsedSample (chan : Chan512) (level : Bool) (m : State) : Out :=
  .next (m.onChip fun c => c.pulsedSample chan.val level)

/-- DI_CONT_SAMPLE (R453). -/
def execDiContSample (chan : Chan512) (m : State) : Out := .next (m.onChip fun c => c.contSample chan.val)

/-- FILTERED_CHANGE (R455). -/
def execFilteredChange (chan : Chan512) (level : Bool) (edge : Nat) (m : State) : Out :=
  .next (m.onChip fun c => c.filteredChange chan.val level edge)

/-- SOE_DELIVERY (R461). -/
def execSoeDelivery (group : Group) (m : State) : Out := .next (m.onChip fun c => c.soeDeliver group.val)

/-- OVERLOAD (R465). -/
def execOverload (chan : Chan512) (m : State) : Out := .next (m.onChip fun c => c.overload chan.val)

/-- OVERTEMP (R466). -/
def execOvertemp (chan : Chan512) (m : State) : Out := .next (m.onChip fun c => c.overtemp chan.val)

/-- JUNCTION_COOLED (R466). -/
def execJunctionCooled (chan : Chan512) (m : State) : Out := .next (m.onChip fun c => c.junctionCooled chan.val)

/-- IMBALANCE (R468). -/
def execImbalance (chan : Chan512) (present : Bool) (m : State) : Out :=
  .next (m.onChip fun c => c.imbalance chan.val present)

/-- RBMISMATCH (R471). -/
def execRbmismatch (chan : Chan512) (present : Bool) (m : State) : Out :=
  .next (m.onChip fun c => c.rbMismatch chan.val present)

/-- OPENLOAD (R473). -/
def execOpenload (chan : Chan512) (present : Bool) (m : State) : Out := .next (m.onChip fun c => c.openLoad chan.val present)

/-- FIELD_SUPPLY_LOW (R477). -/
def execFieldSupplyLow (group : Group) (mv : BitVec 16) (m : State) : Out :=
  .next (m.onChip fun c => c.supplyLow group.val mv.toNat)

/-- FIELD_SUPPLY_MISSING (R478). -/
def execFieldSupplyMissing (group : Group) (mv : BitVec 16) (m : State) : Out :=
  .next (m.onChip fun c => c.supplyMissing group.val mv.toNat)

/-- FIELD_SUPPLY_RESTORED (R477). -/
def execFieldSupplyRestored (group : Group) (mv : BitVec 16) (m : State) : Out :=
  .next (m.onChip fun c => c.supplyRestored group.val mv.toNat)

/-- LINK_FRAME (R481). -/
def execLinkFrame (m : State) : Out := .next (m.onChip fun c => c.linkFrame)

/-- LINK_FRAME_RECEIVE (R482): at the field side, or at the CG island. -/
def execLinkFrameReceive (group : Group) (down good : Bool) (m : State) : Out :=
  .next (m.onChip fun c => c.frameReceive group.val down good)

/-- LINK_TIMEOUT_FIELD (R483). -/
def execLinkTimeoutField (group : Group) (m : State) : Out := .next (m.onChip fun c => c.timeoutField group.val)

/-- LINK_TIMEOUT (R484). -/
def execLinkTimeout (group : Group) (m : State) : Out := .next (m.onChip fun c => c.timeoutUp group.val)

/-- LINK_RESUME (R485): a write of CG_LINKCFG. -/
def execLinkResume (src : Island) (group : Group) (value : Word) (m : State) : Out :=
  .next (m.onChip fun c => c.whenOn src.val (CG_LINKCFG group.val) fun c => c.writeLinkcfg group.val value)

end Sys2Proof.Machine
end

