-- ==== Sys2Proof/Machine/LeLaws.lean ====
section
/-!
DEFINITION. The numbers and the laws of the loop engine: one stage record, its inputs, and what one evaluation makes of
them (R281 to R303, R317, R319, R341 to R344). The record is its 32 words; the engine around it is in Loop.lean.
-/

namespace Sys2Proof.Machine

/-! ## Numbers (R287 to R297) -/

/-- Holds an integer in `n` bits, two's complement; whether it had to. -/
def satBits (n : Nat) (v : Int) : Int × Bool :=
  let hi : Int := 2 ^ (n - 1) - 1
  let lo : Int := -2 ^ (n - 1)
  if v < lo then (lo, true) else if hi < v then (hi, true) else (v, false)

/-- v / 2^k rounded to nearest, ties to even (R292). -/
def roundShift (v : Int) (k : Nat) : Int :=
  if k = 0 then v
  else
    let d : Int := (2 ^ k : Nat)
    let q : Int := v / d
    let r : Int := v % d
    let half : Int := (2 ^ (k - 1) : Nat)
    if half < r ∨ (r = half ∧ q.emod 2 = 1) then q + 1 else q

/-- v × 2^e rounded to nearest, ties to even. -/
def scaleRound (v : Int) (e : Int) : Int := if 0 ≤ e then v * 2 ^ e.toNat else roundShift v (-e).toNat

/-- The 72-bit accumulator (R290): its value in units of 2^(ES - 55), and whether it has saturated (R291). -/
structure Accum where
  v   : Int
  sat : Bool
  deriving DecidableEq, Repr

/-- An empty accumulator. -/
def Accum.zero : Accum := ⟨0, false⟩

/-- Adds to the accumulator (R291). -/
def Accum.add (a : Accum) (t : Int) : Accum :=
  let (v, s) := satBits 72 (a.v + t)
  ⟨v, a.sat || s⟩

/-- A signal mantissa in accumulator units (R290). -/
def sigUnits (m : Int) : Int := m * 2 ^ 24

/-- A product of a signal and a coefficient with its shift, in accumulator units, cut toward minus infinity (R289, R290). -/
def prodUnits (m c : Int) (sh : Nat) : Int := if sh ≤ 24 then m * c * 2 ^ (24 - sh) else m * c / 2 ^ (sh - 24)

/-- Renormalises an accumulator to a mantissa (R292). -/
def Accum.mant (a : Accum) : Int × Bool :=
  let (m, s) := satBits 32 (roundShift a.v 24)
  (m, a.sat || s)

/-- A mantissa moved from one shared exponent to another (R294). -/
def convert (m : Int) (fromE toE : Int) : Int × Bool := satBits 32 (scaleRound m (fromE - toE))

/-- A channel's value word as a mantissa (R295). -/
def convertChannel (v : Int) (inexp es : Int) : Int × Bool := satBits 32 (scaleRound v (inexp - es + 31))

/-- An output word for a channel (R296). -/
def outputWord (m es outexp : Int) : Word := BitVec.ofInt 32 (satBits 32 (scaleRound m (es - 31 - outexp))).1

/-- An image set-point, IEEE 754 binary32, as a mantissa; none for a NaN (R297). -/
def convertFloat (w : Word) (es : Int) : Option (Int × Bool) :=
  let x := w.toNat
  let e : Nat := x / 2 ^ 23 % 256
  let f : Nat := x % 2 ^ 23
  let neg := x / 2 ^ 31 == 1
  if e = 255 then (if f = 0 then some (if neg then (-2 ^ 31, true) else (2 ^ 31 - 1, true)) else none)
  else
    let m : Int := if e = 0 then f else f + 2 ^ 23
    let k : Int := if e = 0 then -149 else (e : Int) - 150
    some (satBits 32 (scaleRound (if neg then -m else m) (k - es + 31)))

/-! ## The record (R281, R282) -/

/-- A word of a record. -/
def recW (r : List Word) (i : Nat) : Word := r.getD i 0#32

/-- A word of a record as a signal mantissa. -/
def recS (r : List Word) (i : Nat) : Int := (recW r i).toInt

/-- Writes a word of a record. -/
def recPut (r : List Word) (i : Nat) (v : Int) : List Word := r.set i (BitVec.ofInt 32 v)

/-- Bits of a word of a record. -/
def recF (r : List Word) (i hi lo : Nat) : Nat := bitsOf (recW r i).toNat hi lo

def recType (r : List Word) : Nat := recF r 0 3 0
def recEnable (r : List Word) : Bool := recF r 0 4 4 == 1
def recMode (r : List Word) : Nat := recF r 0 6 5
def recEs (r : List Word) : Int := signed 8 (recF r 0 15 8)
def recRampEn (r : List Word) : Bool := recF r 0 16 16 == 1
def recOutDst (r : List Word) : Nat := recF r 0 19 18
def recRemoteSp (r : List Word) : Bool := recF r 0 20 20 == 1
def recRtmoLocal (r : List Word) : Bool := recF r 0 21 21 == 1
def recModelAct (r : List Word) : Bool := recF r 0 22 22 == 1
def recFrames (r : List Word) : Nat := recF r 1 18 0
def recPhase (r : List Word) : Nat := recF r 2 18 0
def recRatio (r : List Word) : Nat := recF r 2 31 24 + 1
def recParent (r : List Word) : Option Nat := if recF r 3 15 15 = 1 then some (recF r 3 10 0) else none
def recRtmo (r : List Word) : Nat := recF r 3 31 16
/-- The source of input i: IN01 and IN23 hold two each (R283). -/
def recSource (r : List Word) (i : Nat) : Nat := recF r (4 + i / 2) (16 * (i % 2) + 15) (16 * (i % 2))
def recInExp (r : List Word) (i : Nat) : Int := signed 8 (recF r 6 (8 * i + 7) (8 * i))
def recOutCh (r : List Word) : Nat := recF r 7 9 0
def recOutExp (r : List Word) : Int := signed 8 (recF r 7 23 16)
/-- Coefficient j and its shift (R288). -/
def recC (r : List Word) (j : Nat) : Int := recS r (8 + j)
def recSh (r : List Word) (j : Nat) : Nat := if j < 5 then recF r 14 (6 * j + 5) (6 * j) else recF r 15 5 0
def recHi (r : List Word) : Int := recS r 16
def recLo (r : List Word) : Int := recS r 17
def recSpLocal (r : List Word) : Int := recS r 18
def recManVal (r : List Word) : Int := recS r 19
def recRamp (r : List Word) : Int := recS r 20
/-- State word k: S0 to S4. -/
def recState (r : List Word) (k : Nat) : Int := recS r (23 + k)
def recOutV (r : List Word) : Int := recS r 28
def recFlags (r : List Word) : Word := recW r 29

/-- The bits of a software word that are not reserved, ENABLE of CTRL aside, which no direct write reaches (R281, R282, R323). -/
def recMask (i : Nat) : Word :=
  match i with
  | 0 => 0x007DFF6F#32
  | 1 => 0x0007FFFF#32
  | 2 => 0xFF07FFFF#32
  | 3 => 0xFFFF87FF#32
  | 7 => 0x00FF03FF#32
  | 14 => 0x3FFFFFFF#32
  | 15 => 0x0000003F#32
  | 21 => 0x007FFFFF#32
  | 22 => 0x000FFFFF#32
  | _ => 0xFFFFFFFF#32

/-- The stage types (R282). -/
def tPid : Nat := 1
def tLeadLag : Nat := 2
def tFilter2 : Nat := 3
def tRateLim : Nat := 4
def tModel1 : Nat := 5
def tSum : Nat := 6
def tSelect : Nat := 7

/-- The inputs that a type uses, from IN0 on (R286). -/
def typeInputs (ty : Nat) : Nat := if ty = tPid then 3 else if ty = tModel1 then 2 else if ty = tSum ∨ ty = tSelect then 4 else 1

/-- The state words that a type has, from S0 on (R286). -/
def typeStates (ty : Nat) : Nat :=
  if ty = tPid then 5 else if ty = tLeadLag then 2 else if ty = tFilter2 ∨ ty = tModel1 then 4 else if ty = tRateLim then 1 else 0

/-- The parent of a stage: only a PID2DOF has one, the other types ignore the cascade fields (R301, R313). -/
def recCascade (r : List Word) : Option Nat := if recType r = tPid then recParent r else none

/-! ## One evaluation -/

/-- What an evaluation reads besides its record: inputs, cascade value, tracked value and whether it is a child's (R285), whether it is the first one
after a start or an enable, the delayed model input, and whether the stage has declared a model fault since its CNT was last 0 (R343). -/
structure EvalIn where
  ins     : List InVal
  cascade : Int
  track   : Option Int
  child   : Bool
  first   : Bool
  delayed : Int
  told    : Bool
  deriving DecidableEq, Repr

/-- What an evaluation makes: the record, sticky and live flags, a model fault's residual, the delay word written, and
the nodes a tap may record (R344). -/
structure EvalOut where
  words  : List Word
  sticky : Nat
  live   : Nat
  fault  : Option Int
  delayW : Option (Nat × Int)
  nodes  : List Int
  deriving DecidableEq, Repr

/-- An unused input (R283). -/
def InVal.unused : InVal := ⟨false, 0, false, false, false, false⟩

/-- Input i of an evaluation. -/
def EvalIn.inp (e : EvalIn) (i : Nat) : InVal := e.ins.getD i InVal.unused

/-- Its mantissa. -/
def EvalIn.x (e : EvalIn) (i : Nat) : Int := (e.inp i).x

/-- A product of a signal with coefficient j of the record (R289). -/
def recProd (r : List Word) (m : Int) (j : Nat) : Int := prodUnits m (recC r j) (recSh r j)

/-- The 56-bit integrator of PID2DOF in accumulator units (R293). -/
def integUnits (r : List Word) : Int := recState r 0 * 2 ^ 24 + (recF r 24 23 0 : Int)

/-- Stores an integrator held in 56 bits (R293). -/
def putInteg (r : List Word) (v : Int) : List Word × Bool :=
  let (i, s) := satBits 56 v
  (recPut (recPut r 23 (i / 2 ^ 24)) 24 (i % 2 ^ 24), s)

/-- The terms of the PID law before its integrator: REFF, p, D and DPREV, and a saturation. -/
structure PidTerms where
  reff  : Int
  p     : Int
  d     : Int
  dprev : Int
  sat   : Bool
  deriving DecidableEq, Repr

/-- The effective set-point after this evaluation (R300, R317). -/
def pidReff (r : List Word) (e : EvalIn) (sp : Int) : Int × Bool :=
  if recRampEn r && (recMode r == 0 || e.first) then (e.x 0, false)
  else if recRampEn r then
    let reff := recState r 4
    ((Accum.zero.add (sigUnits reff)).add (sigUnits (clampInt (-recRamp r) (recRamp r) (sp - reff)))).mant
  else (sp, false)

/-- The proportional and derivative terms of R300; a sum that is multiplied is renormalised first (R289). -/
def pidTerms (r : List Word) (e : EvalIn) (sp : Int) : PidTerms :=
  let y := e.x 0
  let (reff, s0) := pidReff r e sp
  let (bm, s1) := ((Accum.zero.add (recProd r reff 1)).add (-sigUnits y)).mant
  let p := recProd r bm 0
  let dv := (Accum.zero.add (recProd r reff 2)).add (-sigUnits y)
  let (dm, s2) := (dv.add (-sigUnits (recState r 3))).mant
  let (d, s3) := ((Accum.zero.add (recProd r (recState r 2) 5)).add (recProd r dm 4)).mant
  let (dprev, s4) := dv.mant
  ⟨reff, p, d, dprev, s0 || s1 || s2 || s3 || s4⟩

/-- p + i + d + feed-forward, in the order in which R300 writes the terms (R291, log entry 108). -/
def pidSum (t : PidTerms) (e : EvalIn) (i : Int) : Accum :=
  (((Accum.zero.add t.p).add i).add (sigUnits t.d)).add (sigUnits (e.x 1))

/-- target - p - d - feed-forward, in the order in which R300 writes the terms. -/
def pidPreset (t : PidTerms) (e : EvalIn) (target : Int) : Accum :=
  (((Accum.zero.add (sigUnits target)).add (-t.p)).add (-sigUnits t.d)).add (-sigUnits (e.x 1))

/-- Bits of SFLAGS (R285). -/
def sfSatIn : Nat := 1
def sfSatAcc : Nat := 2
def sfSatOut : Nat := 4
def sfInBad : Nat := 8
def sfNoFresh : Nat := 16
def sfSpBad : Nat := 32
def sfSpLate : Nat := 64
def sfSpStale : Nat := 128
def sfSpQuar : Nat := 256
def sfModelFault : Nat := 512
def sfNoBind : Nat := 1024
def sfTracking : Nat := 2 ^ 18
def sfRamping : Nat := 2 ^ 19
def sfStale : Nat := 2 ^ 20

/-- Limits a result and stores OUTV; sets SAT_OUT, SAT_ACC (R299). -/
def putOut (r : List Word) (u : Int) : List Word × Nat :=
  let lim := clampInt (sigUnits (recLo r)) (sigUnits (recHi r)) u
  let (m, s) := (⟨lim, false⟩ : Accum).mant
  (recPut r 28 m, (if lim ≠ u then sfSatOut else 0) + (if s then sfSatAcc else 0))

/-- The PID2DOF law (R300, R303). -/
def evalPid (r : List Word) (e : EvalIn) : EvalOut :=
  let mode := recMode r
  let sp := if mode = 2 then e.cascade else recSpLocal r
  let t := pidTerms r e sp
  let lo := sigUnits (recLo r)
  let hi := sigUnits (recHi r)
  let i0 := integUnits r
  let target := if mode = 0 then some (recManVal r) else e.track
  let (i, u, s1) : Int × Int × Bool := match target with
    | some g =>
      let a := pidPreset t e g
      (clampInt lo hi a.v, sigUnits g, a.sat)
    | none =>
      let (em, s) := ((Accum.zero.add (sigUnits t.reff)).add (-sigUnits (e.x 0))).mant
      let ti := (⟨i0, s⟩ : Accum).add (recProd r em 3)
      let u0 := pidSum t e ti.v
      let i := if (hi < u0.v ∧ i0 < ti.v) ∨ (u0.v < lo ∧ ti.v < i0) then i0 else clampInt lo hi ti.v
      let u := pidSum t e i
      (i, u.v, ti.sat || u0.sat || u.sat)
  let (ri, s2) := if (e.inp 0).bad then (r, false) else putInteg r i
  let r' := recPut (recPut (recPut ri 25 t.d) 26 t.dprev) 27 t.reff
  let (r'', f) := if (e.inp 0).bad then (r', 0) else putOut r' u
  let r3 := if mode ≠ 0 then recPut r'' 19 (recOutV r'') else r''
  let r4 := if mode = 2 then recPut r3 18 sp else r3
  { words := r4
    sticky := f ||| (if t.sat || s1 || s2 then sfSatAcc else 0)
    live := (if mode ≠ 0 && e.track.isSome && e.child then sfTracking else 0) + (if t.reff ≠ sp then sfRamping else 0)
    fault := none
    delayW := none
    nodes := [t.reff, ((Accum.zero.add (sigUnits t.reff)).add (-sigUnits (e.x 0))).mant.1, (⟨t.p, false⟩ : Accum).mant.1, recState r4 0, t.d, (⟨u, false⟩ : Accum).mant.1] }

/-- Nodes of a type that has no PID terms: only u is recorded (R344). -/
def plainNodes (u : Int) : List Int := [0, 0, 0, 0, 0, (⟨u, false⟩ : Accum).mant.1]

/-- The value a simple type outputs: MANVAL in MANUAL, the tracked value while tracking (R314), else the law's. -/
def chooseU (r : List Word) (e : EvalIn) (law : Accum) : Int × Bool × Nat :=
  if recMode r = 0 then (sigUnits (recManVal r), false, 0)
  else match e.track with
    | some g => (sigUnits g, false, sfTracking)
    | none => (law.v, law.sat, 0)

/-- The rest of a simple type's evaluation, its states written by `st` from the limited output. -/
def finishSimple (r : List Word) (u : Int) (sat : Bool) (live : Nat) (st : List Word → Int → List Word) : EvalOut :=
  let (r', f) := putOut r u
  { words := st r' (recOutV r'), sticky := f ||| (if sat then sfSatAcc else 0), live := live, fault := none
    delayW := none, nodes := plainNodes u }

/-- LEADLAG (R300). -/
def evalLeadLag (r : List Word) (e : EvalIn) : EvalOut :=
  let law := ((Accum.zero.add (recProd r (e.x 0) 0)).add (recProd r (recState r 0) 1)).add (recProd r (recState r 1) 2)
  let (u, s, l) := chooseU r e law
  finishSimple r u s l fun r out => recPut (recPut r 23 (e.x 0)) 24 out

/-- FILTER2 (R300); a tracking parent's Y1 and Y2 both take the tracked value (R314). -/
def evalFilter2 (r : List Word) (e : EvalIn) : EvalOut :=
  let a := ((Accum.zero.add (recProd r (e.x 0) 0)).add (recProd r (recState r 0) 1)).add (recProd r (recState r 1) 2)
  let law := (a.add (-recProd r (recState r 2) 3)).add (-recProd r (recState r 3) 4)
  let (u, s, l) := chooseU r e law
  finishSimple r u s l fun r' out =>
    recPut (recPut (recPut (recPut r' 23 (e.x 0)) 24 (recState r 0)) 25 out) 26 (if l ≠ 0 then out else recState r 2)

/-- RATELIM (R300). -/
def evalRateLim (r : List Word) (e : EvalIn) : EvalOut :=
  let y := recState r 0
  let law := (Accum.zero.add (sigUnits y)).add (sigUnits (clampInt (-recC r 1) (recC r 0) (e.x 0 - y)))
  let (u, s, l) := chooseU r e law
  finishSimple r u s l fun r out => recPut r 23 out

/-- SUM (R300); the sum is formed in every mode, so its saturation shows in every mode (R291). -/
def evalSum (r : List Word) (e : EvalIn) : EvalOut :=
  let law := (((Accum.zero.add (recProd r (e.x 0) 0)).add (recProd r (e.x 1) 1)).add (recProd r (e.x 2) 2)).add
    (recProd r (e.x 3) 3)
  let (u, _, l) := chooseU r e law
  finishSimple r u law.sat l fun r _ => r

/-- The lowest index of the least of some used inputs under an order. -/
def pickBy (better : Int → Int → Bool) (e : EvalIn) : List Nat → Option Nat
  | [] => none
  | i :: is =>
    match pickBy better e is with
    | none => if (e.inp i).used then some i else none
    | some j => if (e.inp i).used && !better (e.x j) (e.x i) then some i else some j

/-- The median of three; of equal values the lowest index (R300). -/
def pickMedian (e : EvalIn) : Nat :=
  let a := e.x 0
  let b := e.x 1
  let c := e.x 2
  let med := if (b ≤ a ∧ a ≤ c) ∨ (c ≤ a ∧ a ≤ b) then a else if (a ≤ b ∧ b ≤ c) ∨ (c ≤ b ∧ b ≤ a) then b else c
  if a = med then 0 else if b = med then 1 else 2

/-- The input SELECT picks (R300); none where it holds its output. -/
def selectIndex (r : List Word) (e : EvalIn) : Option Nat :=
  match (recW r 8).toNat with
  | 0 => pickBy (fun p q => decide (p < q)) e [0, 1, 2, 3]
  | 1 => pickBy (fun p q => decide (q < p)) e [0, 1, 2, 3]
  | 2 => some (pickMedian e)
  | 3 => [0, 1, 2, 3].find? fun i => (e.inp i).used && (e.inp i).good
  | _ => none

/-- SELECT (R300): SELIDX 7 in MANUAL and where no input is picked. -/
def evalSelect (r : List Word) (e : EvalIn) : EvalOut :=
  let idx := if recMode r = 0 then none else selectIndex r e
  let law : Accum := match idx with
    | some i => ⟨sigUnits (e.x i), false⟩
    | none => ⟨sigUnits (recOutV r), false⟩
  let (u, s, l) := chooseU r e law
  finishSimple r u s (l + (idx.getD 7) * 2 ^ 21) fun r _ => r

/-- MODEL1 (R300, R303, R341, R343): everything held while an input is bad. -/
def evalModel1 (r : List Word) (e : EvalIn) : EvalOut :=
  if (e.inp 0).bad || (e.inp 1).bad then ⟨r, 0, 0, none, none, plainNodes 0⟩
  else
    let dbase := recF r 13 15 0
    let dlen := recF r 13 27 16
    let didx := (recW r 26).toNat
    let u := e.x 0
    let y := e.x 1
    let ud := if dlen = 0 then u else e.delayed
    let (ym, s0) := ((Accum.zero.add (recProd r (recState r 0) 0)).add (recProd r ud 1)).mant
    let (em, s1) := (((Accum.zero.add (sigUnits y)).add (-sigUnits ym)).add (-sigUnits (recState r 1))).mant
    let (bias, s2) := ((Accum.zero.add (sigUnits (recState r 1))).add (recProd r em 2)).mant
    let res := ((Accum.zero.add (sigUnits y)).add (-sigUnits ym)).add (-sigUnits bias)
    let cnt0 := (recW r 25).toNat
    let cnt := if sigUnits (recC r 3) < (res.v.natAbs : Int) then Nat.min (cnt0 + 1) 65535 else 0
    let isFault := decide (cnt = recF r 12 15 0) && !e.told
    let r' := recPut (recPut (recPut r 23 ym) 24 bias) 25 cnt
    let r'' := if dlen = 0 then r' else recPut r' 26 ((didx + 1) % dlen : Nat)
    let (r3, f) := putOut r'' res.v
    { words := r3
      sticky := f ||| (if s0 || s1 || s2 || res.sat then sfSatAcc else 0) ||| (if isFault then sfModelFault else 0)
      live := 0
      fault := if isFault then some res.mant.1 else none
      delayW := if dlen = 0 then none else some (dbase + didx, u)
      nodes := plainNodes res.v }

/-- The states a first evaluation is preset to (R319), `held` being the value the output holds. -/
def presetLaw (r : List Word) (e : EvalIn) (held : Int) : List Word :=
  if recType r = tPid then
    let sp := if recMode r = 2 then e.cascade else recSpLocal r
    let r0 := recPut (recPut r 25 0) 26 0
    let t := pidTerms r0 e sp
    let dv := ((Accum.zero.add (recProd r0 t.reff 2)).add (-sigUnits (e.x 0))).mant.1
    let a := pidPreset { t with d := 0 } e held
    let (r1, _) := putInteg r0 (clampInt (sigUnits (recLo r)) (sigUnits (recHi r)) a.v)
    recPut (recPut r1 26 dv) 27 t.reff
  else if recType r = tLeadLag then recPut (recPut r 23 (e.x 0)) 24 held
  else if recType r = tRateLim then recPut r 23 held
  else if recType r = tFilter2 then recPut (recPut (recPut (recPut r 23 (e.x 0)) 24 (e.x 0)) 25 held) 26 held
  else if recType r = tModel1 then recPut (recPut (recPut (recPut r 23 (e.x 1)) 24 0) 25 0) 26 0
  else r

/-- The presets of a first evaluation, and OUTV: a law that leaves the output as it was leaves it at the value held (R303, R319, log entry 39). -/
def presetStates (r : List Word) (e : EvalIn) (held : Int) : List Word := recPut (presetLaw r e held) 28 held

/-- The law of the record's type; a reserved type does nothing. -/
def evalLaw (r : List Word) (e : EvalIn) : EvalOut :=
  if recType r = tPid then evalPid r e
  else if recType r = tLeadLag then evalLeadLag r e
  else if recType r = tFilter2 then evalFilter2 r e
  else if recType r = tRateLim then evalRateLim r e
  else if recType r = tModel1 then evalModel1 r e
  else if recType r = tSum then evalSum r e
  else if recType r = tSelect then evalSelect r e
  else ⟨r, 0, 0, none, none, plainNodes 0⟩

/-- The flags that inputs set (R285). -/
def inputFlags (ins : List InVal) : Nat :=
  (if ins.any (·.sat) then sfSatIn else 0) + (if ins.any (·.bad) then sfInBad else 0) +
    (if ins.any (·.stale) then sfNoFresh else 0)

/-- The live bits the law itself sets; STALE is the remote set-point's. -/
def lawLive : Word := 0x00EF0000#32

/-- One evaluation of a record: law, limit, OUTV, SFLAGS and LASTFRAME (R299). -/
def evalStage (r : List Word) (e : EvalIn) (frame : Nat) : EvalOut :=
  let o := evalLaw r e
  let lim := (if recOutV o.words = recHi o.words then 2 ^ 16 else 0) + (if recOutV o.words = recLo o.words then 2 ^ 17 else 0)
  let fl := (recFlags o.words &&& ~~~lawLive) ||| BitVec.ofNat 32 (o.sticky ||| inputFlags e.ins) |||
    BitVec.ofNat 32 (o.live + lim)
  { o with words := (o.words.set 29 fl).set 30 (BitVec.ofNat 32 frame)
           nodes := [e.x 0, e.x 1, e.x 2, e.x 3] ++ o.nodes ++ [recOutV o.words] ++
             (List.range 5).map fun k => if k < typeStates (recType r) then recState o.words k else 0 }

end Sys2Proof.Machine
end

