-- ==== Sys2Proof/Machine/LoopCheck.lean ====
section
/-!
DEFINITION. What the loop engine accepts as a configuration: record fields, references, cascades, delay ranges and the
schedule bound (R281 to R286, R301, R307, R309, R313, R325).
-/

namespace Sys2Proof.Machine

/-! ## Stage memory (R279, R281) -/

/-- The record of a stage. -/
def Chip.stageRec (c : Chip) (s : Nat) : List Word := (List.range 32).map fun i => c.reg (LE_STAGE (32 * s + i))

/-- Writes words of stage memory from word `w` on. -/
def Chip.putWords (c : Chip) (w : Nat) : List Word → Chip
  | [] => c
  | x :: xs => (c.setReg (LE_STAGE w) x).putWords (w + 1) xs

/-- Writes the record of a stage. -/
def Chip.setRec (c : Chip) (s : Nat) (r : List Word) : Chip := c.putWords (32 * s) r

/-- One word of a record. -/
def Chip.recWord (c : Chip) (s i : Nat) : Word := c.reg (LE_STAGE (32 * s + i))

/-- Sets sticky flags of a stage (R285). -/
def Chip.stageFlags (c : Chip) (s : Nat) (bits : Nat) : Chip :=
  c.setReg (LE_STAGE (32 * s + 29)) (c.recWord s 29 ||| BitVec.ofNat 32 bits)

/-- The enabled stages, ascending: the CTRL words of stage memory that have ENABLE set. -/
def Chip.enabledStages (c : Chip) : List Nat :=
  c.regs.filterMap fun (k, w) =>
    if LE_STAGE 0 ≤ k ∧ k < LE_STAGE 65536 ∧ (k - LE_STAGE 0) % 128 = 0 ∧ w.getLsbD 4 then some ((k - LE_STAGE 0) / 128) else none

/-- The taps whose ENABLE is set. -/
def Chip.enabledTaps (c : Chip) : List Nat := (List.range 64).filter fun t => c.flag (LE_TAPSEL_ENABLE t)

/-! ## One record (R281, R282, R286, R288) -/

/-- A source that names a stage (R283). -/
def srcStage (x : Nat) : Option Nat := if x < 0x8000 then some (x % 2048) else none

/-- A source that names a channel (R283). -/
def srcChan (x : Nat) : Option Nat := if 0x8000 ≤ x ∧ x ≠ 0xFFFF then some (x % 2048) else none

/-- Ranges and reserved fields by type (R286). -/
def typeFieldsOk (r : List Word) : Bool :=
  if recType r = tRateLim then recSh r 0 == 0 && recSh r 1 == 0
  else if recType r = tModel1 then
    recSh r 3 == 0 && decide (1 ≤ (recW r 12).toNat ∧ (recW r 12).toNat ≤ 65535) && recF r 13 31 28 == 0
  else if recType r = tSelect then decide ((recW r 8).toNat ≤ 3)
  else true

/-- Ranges and reserved fields of a record (R281, R282): FIELD where they are broken. -/
def recFieldsOk (r : List Word) : Bool :=
  decide (1 ≤ recType r ∧ recType r ≤ 7) && recMode r != 3 && recF r 0 7 7 == 0 && recF r 0 17 17 == 0 &&
    recOutDst r != 3 && recF r 0 31 23 == 0 && decide (1 ≤ recFrames r ∧ recFrames r ≤ 320000) && recF r 1 31 19 == 0 &&
    decide (recPhase r < recFrames r) && recF r 2 23 19 == 0 && recF r 3 14 11 == 0 && recF r 7 15 10 == 0 &&
    recF r 7 31 24 == 0 && recF r 14 31 30 == 0 && recF r 15 31 6 == 0 && decide (0 ≤ recRamp r) &&
    recF r 21 31 23 == 0 && recF r 22 31 20 == 0 &&
    (recOutDst r != 2 || decide (1 ≤ recF r 22 19 0 ∧ recF r 22 19 0 ≤ 1000000)) && typeFieldsOk r

/-- The four sources of a record. -/
def recSources (r : List Word) : List Nat := [recSource r 0, recSource r 1, recSource r 2, recSource r 3]

/-- Whether a mode suits a type (R301). -/
def modeOk (r : List Word) : Bool :=
  !(recMode r == 2 && recType r != tPid) && !(recType r == tModel1 && recMode r != 1)

/-! ## A configuration (R283, R284, R301, R307, R309, R313, R325) -/

/-- A configuration: the enabled stages with their records, ascending. -/
abbrev Config' := List (Nat × List Word)

/-- The record of a stage in a configuration. -/
def cfgRec (cfg : Config') (s : Nat) : Option (List Word) := (cfg.find? fun p => p.1 == s).map Prod.snd

/-- Whether a channel number is one of this module's (R284). -/
def Chip.chanOk (c : Chip) (g : Nat) : Bool := (c.localChan g).isSome

/-- References of a record: REFERENCE where one is invalid (R283, R284, R302, R307); `typ` gives the type of a stage. -/
def Chip.refsOk (c : Chip) (typ : Nat → Nat) (s : Nat) (r : List Word) : Bool :=
  ((recSources r).all fun x =>
    x == 0xFFFF || (decide (x / 2048 % 16 = 0) && match srcStage x with
      | some q => q != s
      | none => c.chanOk (x % 2048))) &&
    (recOutDst r != 1 || c.chanOk (recOutCh r)) &&
    !(recType r == tPid && recSource r 2 != 0xFFFF && match srcStage (recSource r 2) with
      | some q => typ q != tSelect
      | none => true)

/-- The cascade conditions of a record (R301, R313); `get` gives the record of a stage. -/
def cascadeOk (get : Nat → List Word) (s : Nat) (r : List Word) : Bool :=
  modeOk r && (recType r != tPid || match recParent r with
    | none => true
    | some p =>
      let q := get p
      decide (p < s) && decide (1 ≤ recType q ∧ recType q ≤ 7) && recType q != tModel1 &&
        recFrames q == recRatio r * recFrames r && recPhase q % recFrames r == recPhase r && !recRemoteSp r)

/-- The delay range of an enabled MODEL1. -/
def delayRange (r : List Word) : Option (Nat × Nat) :=
  if recType r = tModel1 ∧ recF r 13 27 16 ≠ 0 then some (recF r 13 15 0, recF r 13 27 16) else none

/-- The delay ranges lie in delay memory and do not overlap (R325). -/
def delaysOk : List (Nat × Nat) → Bool
  | [] => true
  | (b, n) :: l => decide (b + n ≤ 65536) && (l.all fun (b', n') => decide (b + n ≤ b' ∨ b' + n' ≤ b)) && delaysOk l

/-- The stages of lower number that a stage reads or names as PARENT (R309). -/
def chainSources (s : Nat) (r : List Word) : List Nat :=
  (((recSources r).take (typeInputs (recType r))).filterMap srcStage ++ (recCascade r).toList).filter fun q => decide (q < s)

/-- Whether a stage reads another or names it as PARENT (R329). -/
def readsStage (r : List Word) (q : Nat) : Bool :=
  (((recSources r).take (typeInputs (recType r))).any fun x => srcStage x == some q) || recCascade r == some q

/-- The longest chain that ends in each stage of a configuration (R309). -/
def chainLens : Config' → List (Nat × Nat) → List (Nat × Nat)
  | [], done => done
  | (s, r) :: rest, done =>
    let best := (chainSources s r).foldl (fun m q => match done.find? fun p => p.1 == q with
      | some p => Nat.max m p.2
      | none => m) 0
    chainLens rest ((s, best + 1) :: done)

/-- The longest chain of a configuration, in stages. -/
def longestChain (cfg : Config') : Nat := (chainLens cfg []).foldl (fun m p => Nat.max m p.2) 0

/-- The schedule bound in ns (R309). -/
def scheduleBound (cfg : Config') (taps : Nat) : Nat := 10 * (cfg.length + taps) + 40 * longestChain cfg

/-- The configuration in force. -/
def Chip.config (c : Chip) : Config' := c.enabledStages.map fun s => (s, c.stageRec s)

/-- Updates LE_LOAD and LE_COUNT. -/
def Chip.leCounts (c : Chip) : Chip :=
  let cfg := c.config
  let taps := c.enabledTaps.length
  c.setFlds [(LE_LOAD_CHAIN, longestChain cfg), (LE_LOAD_WORST_NS, scheduleBound cfg taps),
    (LE_COUNT_TAPS, taps), (LE_COUNT_STAGES, cfg.length)]

/-- Puts a stage's new record in a configuration: in place of the old one, in order; out where it is not enabled. -/
def cfgPut : Config' → Nat → List Word → Config'
  | [], s, r => if recEnable r then [(s, r)] else []
  | (q, x) :: l, s, r =>
    if s < q then (if recEnable r then (s, r) :: (q, x) :: l else (q, x) :: l)
    else if s = q then (if recEnable r then (s, r) :: l else l)
    else (q, x) :: cfgPut l s r

/-- Whether a stage's delay range leaves the delay memory or overlaps another's (R325). -/
def delayBad (cfg : Config') (s : Nat) (r : List Word) : Bool :=
  match delayRange r with
  | none => false
  | some (b, n) => decide (65536 < b + n) || cfg.any fun p => p.1 != s && match delayRange p.2 with
    | some (b', n') => decide (b < b' + n' ∧ b' < b + n)
    | none => false

/-- Whether a record enables REMOTE_SP on a stage number that the other module of a Double Reed station has enabled with REMOTE_SP (R653). -/
def Chip.partnerHas (c : Chip) (s : Nat) (r : List Word) : Bool :=
  decide (2 ≤ c.topo) && recEnable r && recRemoteSp r && c.red.partner.remotes.contains s

/-- The result of checking an update set against the configuration in force: code and slot to blame (R325, R348, R653). -/
def Chip.checkSet (c : Chip) (recs : List (Nat × List Word)) : Option (Nat × Nat) :=
  let cfg := recs.foldl (fun cf p => cfgPut cf p.1 p.2) c.config
  let get := fun q => match (recs.reverse.find? fun p => p.1 == q) with
    | some p => p.2
    | none => c.stageRec q
  let typ := fun q => recType (get q)
  let blame := fun s => (firstIdx (fun (p : Nat × List Word) => p.1 == s) recs 0).getD 0x7F
  match firstIdx (fun (p : Nat × List Word) => !recFieldsOk p.2) recs 0 with
  | some n => some (3, n)
  | none => match (recs ++ cfg).find? fun p => !cascadeOk get p.1 p.2 with
    | some p => some (4, blame p.1)
    | none => match (recs ++ cfg).find? fun p => !c.refsOk typ p.1 p.2 || c.partnerHas p.1 p.2 with
      | some p => some (5, blame p.1)
      | none =>
        if 29000 < scheduleBound cfg c.enabledTaps.length then some (6, 0x7F)
        else if !delaysOk (cfg.filterMap fun p => delayRange p.2) then
          some (7, (firstIdx (fun (p : Nat × List Word) => recEnable p.2 && delayBad cfg p.1 p.2) recs 0).getD 0x7F)
        else none

end Sys2Proof.Machine
end

