-- ==== Sys2Proof/Machine/Loop.lean ====
section
/-!
DEFINITION. The loop engine at work: frames, evaluations, direct writes, update sets, remote set-points, model faults
and trace taps (R299 to R347).
-/

namespace Sys2Proof.Machine

/-- Changes the engine's state. -/
def Chip.onLoop (c : Chip) (f : Loop → Loop) : Chip := { c with loop := f c.loop }

/-! ## Outputs of stages (R294, R307) -/

/-- The output of stage q as a reader of the present frame sees it: `present` where the rule gives the present frame's
(R307). -/
def Chip.stageOut (c : Chip) (q : Nat) (present : Bool) : Int :=
  if present then (c.recWord q 28).toInt else (assocGet c.loop.outPrev q).getD (c.recWord q 28).toInt

/-- The output of q in the reader's exponent; whether it saturated (R294, R307). -/
def Chip.readStage (c : Chip) (s q : Nat) (es : Int) : Int × Bool :=
  convert (c.stageOut q (decide (q < s))) (signed 8 (bitsOf (c.recWord q 0).toNat 15 8)) es

/-! ## Latching (R283, R295, R303, R306) -/

/-- Latches input i of a due stage from a channel at the frame start `t`. -/
def Chip.latchChan (c : Chip) (s i g t : Nat) (r : List Word) : InVal × Chip :=
  let old := ((assocGet c.loop.last s).getD []).getD i (0, 0)
  let known := ((assocGet c.loop.last s).getD []).length
  match c.localChan g with
  | none => (⟨true, old.1, true, false, true, false⟩, c)
  | some ch =>
    let x := c.chan ch
    match x.upTo t, decide (c.quality ch < 2) with
    | some sm, true =>
      let (m, sat) := convertChannel sm.value.toInt (recInExp r i) (recEs r)
      (⟨true, m, false, true, decide (i < known) && old.2 == sm.stamp + 1, sat⟩, c)
    | o, _ =>
      let stale := match o with
        | some sm => decide (i < known) && old.2 == sm.stamp + 1
        | none => true
      if i < known then (⟨true, old.1, true, false, stale, false⟩, c)
      else
        let (v, c') := c.free 32
        (⟨true, signed 32 v, true, false, stale, false⟩, c')

/-- Latches the channel inputs of a due stage; stage inputs are read at the evaluation. -/
def Chip.latchInputs (c : Chip) (s t : Nat) (r : List Word) : List Nat → List InVal × Chip
  | [] => ([], c)
  | i :: is =>
    match srcChan (recSource r i) with
    | some g =>
      let (v, c1) := c.latchChan s i g t r
      let (vs, c2) := c1.latchInputs s t r is
      (v :: vs, c2)
    | none => let (vs, c2) := c.latchInputs s t r is; (InVal.unused :: vs, c2)

/-- The value and stamp (plus one, 0 for none) each input leaves for the next evaluation. -/
def Chip.latchedNow (c : Chip) (t : Nat) (r : List Word) (ins : List InVal) : List (Int × Nat) :=
  (List.range 4).map fun i =>
    let stamp := match srcChan (recSource r i) with
      | some g => match (c.localChan g).bind fun ch => (c.chan ch).upTo t with
        | some sm => sm.stamp + 1
        | none => 0
      | none => 0
    ((ins.getD i InVal.unused).x, stamp)

/-- The start of frame f on the monotonic timebase (R304). -/
def frameStart (e f : Nat) : Nat := e + f * 31250

/-! ## Tracking (R302, R314, R338) -/

/-- The enabled stages that name a stage as PARENT, ascending. -/
def Chip.childrenOf (c : Chip) (s : Nat) : List Nat := c.enabledStages.filter fun q => recCascade (c.stageRec q) == some s

/-- The MODE a stage is in: that of its last evaluation, since a change takes effect at the next one (R316). -/
def Chip.modeNow (c : Chip) (q : Nat) : Nat := (assocGet c.loop.modes q).getD (recMode (c.stageRec q))

/-- What a stage tracks, and whether it is a child's REFF (R302, R314, R338); children come before an echo, an echo before an override selector. A selector
that has not been evaluated since the start names no input (log entry 109). -/
def Chip.tracked (c : Chip) (s : Nat) (r : List Word) : Option (Int × Bool) :=
  let kids := c.childrenOf s
  let fromKids := match kids with
    | [] => none
    | k :: _ =>
      if kids.any fun q => c.modeNow q == 2 then none
      else
        let q := c.stageRec k
        some ((convert (recState q 4) (recEs q) (recEs r)).1, true)
  let fromEcho := if recOutDst r != 2 then none
    else (assocGet c.loop.echoes s).bind fun e =>
      if e.mode = 2 ∨ e.frame + 2 * recFrames r ≤ c.loop.frame then none else some ((convert e.mant e.exp (recEs r)).1, true)
  let fromSel := if recType r != tPid then none
    else (srcStage (recSource r 2)).bind fun q =>
      let sel := c.stageRec q
      let idx := bitsOf (recFlags sel).toNat 23 21
      if recType sel != tSelect || (assocGet c.loop.modes q).isNone || decide (3 < idx) || srcStage (recSource sel idx) == some s then none
      else some ((c.readStage s q (recEs r)).1, false)
  fromKids <|> fromEcho <|> fromSel

/-! ## Trace taps (R344 to R347) -/

/-- Changes a tap. -/
def Chip.onTap (c : Chip) (t : Nat) (f : Tap → Tap) : Chip :=
  c.onLoop fun l => { l with taps := assocSet l.taps t (f ((assocGet l.taps t).getD ⟨0, none, false, none, []⟩)) }

/-- A tap's state. -/
def Chip.tap (c : Chip) (t : Nat) : Tap := (assocGet c.loop.taps t).getD ⟨0, none, false, none, []⟩

/-- The first trigger after arming (R345, R346). -/
def Chip.traceTrigger (c : Chip) : Chip :=
  if !c.flag LE_TRCCTL_ARM || c.flag LE_TRCSTAT_TRIGGERED then c
  else
    let c1 := (c.setFlag LE_TRCSTAT_TRIGGERED true).setCounter LE_TRCFRAME_LO c.loop.frame
    c1.onChans (fun t c => c.onTap t fun x => { x with left := some (1024 - c.fld LE_TRCCTL_PRE) }) c1.enabledTaps

/-- The message of a tap's buffer (R347). -/
def Chip.tapMessage (c : Chip) (t : Nat) : List Byte :=
  let s := c.fld (LE_TAPSEL_STAGE t)
  let r := c.stageRec s
  let first := c.fld (LE_TAPPOS_OLDEST t)
  toBytes 2 s ++ toBytes 1 (c.fld (LE_TAPSEL_NODE t)) ++ toBytes 1 (recF r 0 15 8) ++
    toBytes 4 ((c.fld (LE_TAPSEL_DECIM t) + 1) * recFrames r) ++ toBytes 8 (c.counter (LE_TAPFRAME_LO t)) ++
    ((List.range 1024).map fun j => toBytes 4 (c.reg (LE_TRACE (1024 * t + (first + j) % 1024))).toNat).flatten

/-- Puts a tap's buffer in the stream ring (R347). -/
def Chip.streamTap (c : Chip) (ring t : Nat) : Chip :=
  if c.standbyDrops ring then c else c.publishWait ring 0x08 (c.tapMessage t)

/-- When every enabled tap has stopped, the capture is done and streams out (R345, R347). -/
def Chip.traceDone (c : Chip) : Chip :=
  if c.flag LE_TRCSTAT_TRIGGERED && !c.flag LE_TRCSTAT_DONE && (c.enabledTaps.all fun t => (c.tap t).stopped) then
    let c1 := (c.setFlag LE_TRCSTAT_DONE true).setFlag LE_TRCCTL_ARM false
    let ring := c.fld LE_TRCRING_RING
    if ring = 0 then c1
    else (c1.onLoop fun l => { l with stream := ring }).onChans (fun t c => c.streamTap ring t) c1.enabledTaps
  else c

/-- Whether LE still has trace messages to put in the ring that its last capture streams to (R347). -/
def Chip.streaming (c : Chip) : Bool :=
  c.loop.stream != 0 && c.pool.held.any fun h => h.ring == c.loop.stream && h.msg.src == 0x08

/-- Writes one entry of a tap's buffer: the oldest entry makes room when 1,024 are held. -/
def Chip.tapEntry (c : Chip) (t : Nat) (v : Int) : Chip :=
  let old := c.fld (LE_TAPPOS_OLDEST t)
  let n := c.fld (LE_TAPPOS_VALID t)
  let at_ := (old + n) % 1024
  let x := c.tap t
  let frames := if n = 1024 then x.frames.drop 1 ++ [c.loop.frame] else x.frames ++ [c.loop.frame]
  let c1 := c.setReg (LE_TRACE (1024 * t + at_)) (BitVec.ofInt 32 v)
  let c2 := if n = 1024 then c1.setFld (LE_TAPPOS_OLDEST t) ((old + 1) % 1024) else c1.setFld (LE_TAPPOS_VALID t) (n + 1)
  (c2.setCounter (LE_TAPFRAME_LO t) (frames.headD 0)).onTap t fun x => { x with frames := frames }

/-- Writes the entry of an evaluation where DECIM lets the tap record it, and counts towards the tap's stop after a trigger (R345). -/
def Chip.tapRecord (c : Chip) (t : Nat) (v : Int) : Chip :=
  let x := c.tap t
  if !c.flag LE_TRCCTL_ARM || x.stopped then c
  else if x.skip = 0 then
    let c' := (c.tapEntry t v).onTap t fun x => { x with skip := c.fld (LE_TAPSEL_DECIM t) }
    match x.left with
    | some n => c'.onTap t fun x => { x with left := some (n - 1), stopped := decide (n ≤ 1) }
    | none => c'
  else c.onTap t fun x => { x with skip := x.skip - 1 }

/-- What an evaluation does to one tap of its stage (R344 to R346): the node is compared with the level at every evaluation, armed or not. -/
def Chip.tapEval (c : Chip) (t : Nat) (nodes : List Int) : Chip :=
  let v := nodes.getD (c.fld (LE_TAPSEL_NODE t)) 0
  let lvl := (c.reg LE_TRCLEVEL).toInt
  let src := c.fld LE_TRCCTL_TRIGSRC
  let fires := decide (c.fld LE_TRCCTL_TRIGTAP = t) && match (c.tap t).prev with
    | some p => (src == 1 && decide (p < lvl ∧ lvl ≤ v)) || (src == 2 && decide (lvl ≤ p ∧ v < lvl))
    | none => false
  let c2 := (c.tapRecord t v).onTap t fun x => { x with prev := some v }
  if fires then c2.traceTrigger else c2

/-- Every tap of a stage. -/
def Chip.tapsEval (c : Chip) (s : Nat) (nodes : List Int) : Chip :=
  (c.onChans (fun t c => c.tapEval t nodes) (c.enabledTaps.filter fun t => c.fld (LE_TAPSEL_STAGE t) == s)).traceDone

/-- A write of LE_TRCCTL (R345 to R347). -/
def Chip.writeTrcctl (c : Chip) (v : Word) : Chip :=
  let w := v.toNat
  let arm := bitAt w 31
  let was := c.flag LE_TRCCTL_ARM
  let refused := arm && !was && c.streaming
  let c1 := c.setFlds [(LE_TRCCTL_TRIGSRC, bitsOf w 29 28), (LE_TRCCTL_TRIGTAP, bitsOf w 27 22), (LE_TRCCTL_PRE, bitsOf w 19 10)]
  let c2 := if refused then c1
    else if arm && !was then
      let c' := (c1.setFlag LE_TRCCTL_ARM true).setFlds [(LE_TRCSTAT_TRIGGERED, 0), (LE_TRCSTAT_DONE, 0)]
      c'.onChans (fun t c => (c.setReg (LE_TAPPOS t) 0#32).onTap t fun x => ⟨0, none, false, x.prev, []⟩) (List.range 64)
    else c1.setFlag LE_TRCCTL_ARM arm
  if bitAt w 30 then c2.traceTrigger else c2

/-- A write of a LE_TAPSEL (R309); the tap's last value is forgotten where its stage or node changes. -/
def Chip.writeTapsel (c : Chip) (t : Nat) (v : Word) : Chip :=
  let on := bitAt v.toNat 31 && !c.flag (LE_TAPSEL_ENABLE t)
  if on && decide (29000 < scheduleBound c.config (c.enabledTaps.length + 1)) then c.setFlag LE_STAT_DIRREF true
  else
    let same := getF (LE_TAPSEL_NODE t) v == c.fld (LE_TAPSEL_NODE t) && getF (LE_TAPSEL_STAGE t) v == c.fld (LE_TAPSEL_STAGE t) &&
      c.flag (LE_TAPSEL_ENABLE t)
    ((c.setReg (LE_TAPSEL t) (v &&& 0xFFF807FF#32)).onTap t fun x => { x with skip := 0, prev := if same then x.prev else none }).leCounts

/-! ## Delivery (R296, R311, R322, R331, R332) -/

/-- The flag bits of a message: QUAR and HOLD of this station's time (R331, R585). -/
def Chip.timeMarks (c : Chip) : Nat :=
  let q := c.tqNow
  b2n (bitAt q 3) + 2 * b2n (q % 4 == 2 || bitAt q 7)

/-- A set-point message or an echo (R331); `at_` in 2^-16 ns. -/
def spMessage (kind exp stage src flags : Nat) (mant : Int) (at_ : Nat) : List Byte :=
  toBytes 1 kind ++ toBytes 1 exp ++ toBytes 2 stage ++ toBytes 2 src ++ toBytes 2 flags ++ toBytes 4 (unsigned 32 mant) ++
    toBytes 4 0 ++ toBytes 8 (at_ / 65536) ++ toBytes 2 (at_ % 65536) ++ toBytes 6 0

/-- Fabric time of the present frame's start, in 2^-16 ns. -/
def Chip.frameFt (c : Chip) : Nat := c.fabricFracAt (frameStart (c.loop.epoch.getD 0) c.loop.frame)

/-- Whether an old active unit has agreed a crossfade: it holds its outputs and releases nothing more (R673). -/
def Chip.handingOver (c : Chip) : Bool := c.red.xAt.isSome && !c.red.taking

/-- Sends a set-point message or an echo to a station and module (station + 4,096 × module) by the transmit ring, which LE produces, FX consumes and DROP
governs (R330, R647); the station goes with the message beside its 32 bytes (log entry 110). -/
def Chip.rspSend (c : Chip) (dest : Nat) (bs : List Byte) : Chip :=
  let ring := c.fld LE_RSPCFG_TXRING
  let x := c.pool.ring ring
  if !c.flag LE_RSPCFG_ENABLE || c.standbyDrops ring || x.prod != 0x08 || x.cons != 0x12 then c
  else (c.offerAs ring ⟨bs, false, 0x08 + 0x100 * dest, none⟩ true false).2

/-- Whether the entry of a stage's bound channel binds the stage, so that the stage drives it (R419). -/
def Chip.binds (c : Chip) (s i : Nat) : Bool :=
  let e := (c.chan i).entry
  isAo (eActive e) && eBind e && eStage e == s

/-- Delivers an output under OUTDST (R299); true where the stage finds no binding (R285, R419). A standby sends nothing (R322), nor does an old active unit in a
handover (R673). -/
def Chip.deliverOut (c : Chip) (s : Nat) (r : List Word) : Bool × Chip :=
  let quiet := c.mode == 6 || !c.running || c.handingOver
  if recOutDst r = 1 then
    match c.localChan (recOutCh r) with
    | none => (true, c)
    | some i =>
      if quiet || !c.binds s i then (!c.binds s i, c)
      else (false, (c.writeOutput i (outputWord (recOutV r) (recEs r) (recOutExp r)) (c.mono + 1000) (some s)).2)
  else if recOutDst r = 2 && !quiet then
    let bs := spMessage 1 (recF r 0 15 8) (recF r 21 22 12) s c.timeMarks (recOutV r) (c.frameFt + recF r 22 19 0 * 1000 * 65536)
    (false, c.rspSend (recF r 21 11 0) bs)
  else (false, c)

/-! ## Model faults (R341 to R343) -/

/-- Declares a model fault of MODEL1 stage s with its residual. -/
def Chip.modelFault (c : Chip) (s : Nat) (r : List Word) (res : Int) : Chip :=
  let sup := srcStage (recSource r 0)
  let c1 := c.setReg (LE_MODELFLT (s / 32)) (c.reg (LE_MODELFLT (s / 32)) ||| BitVec.ofNat 32 (2 ^ (s % 32)))
  let c2 := match sup with
    | some q => c1.stageFlags q sfModelFault
    | none => c1
  let c3 := match sup with
    | some q => if recModelAct r then c2.onLoop fun l => { l with forced := q :: l.forced } else c2
    | none => c2
  let c4 := c3.raise 0x1C04 5 0x08 (toBytes 2 s ++ toBytes 2 (sup.getD 0xFFFF) ++ toBytes 4 (unsigned 32 res) ++
    toBytes 1 (recF r 0 15 8))
  if c4.fld LE_TRCCTL_TRIGSRC = 3 then c4.traceTrigger else c4

/-! ## Evaluation (R299, R315 to R319) -/

/-- The word an output holds: the last one written; one not written since it was de-energised carries 0 (log entry 39). -/
def Chan.holds (x : Chan) : Word := match x.queue.getLast? with
  | some p => p.2
  | none => x.want.getD 0#32

/-- The value a start holds: the bound channel's held output in the stage's exponent, MANVAL otherwise (R319). -/
def Chip.heldOutput (c : Chip) (r : List Word) : Int :=
  if recOutDst r = 1 then
    match c.localChan (recOutCh r) with
    | some i => (convertChannel (c.chan i).holds.toInt (recOutExp r) (recEs r)).1
    | none => recManVal r
  else recManVal r

/-- The cascade value of a stage: its parent's output, or the applied remote set-point; whether it saturated (R313,
R315, log entry 21). A remote set-point counts from the first evaluation after the frame that applied it (R336, log entry 111). -/
def Chip.cascadeValue (c : Chip) (s : Nat) (r : List Word) : Int × Bool :=
  if recRemoteSp r then
    match (assocGet c.loop.remotes s).bind fun x => if x.since = c.loop.frame then x.before else x.applied with
    | some (m, e) => convert m e (recEs r)
    | none => (recSpLocal r, false)
  else match recParent r with
    | some p => c.readStage s p (recEs r)
    | none => (recSpLocal r, false)

/-- The inputs of an evaluation: channel inputs as latched, stage inputs as they stand (R283, R294, R300). -/
def Chip.evalInputs (c : Chip) (s : Nat) (r : List Word) : List InVal :=
  let latched := (assocGet c.loop.ins s).getD []
  (List.range 4).map fun i =>
    let x := recSource r i
    if x = 0xFFFF ∨ typeInputs (recType r) ≤ i then InVal.unused
    else match srcStage x with
      | some q =>
        let (m, sat) := c.readStage s q (recEs r)
        ⟨true, m, false, !c.loop.bad.contains q, false, sat⟩
      | none => latched.getD i InVal.unused

/-- Presets delay memory for a first evaluation (R319). -/
def Chip.presetDelay (c : Chip) (r : List Word) (u : Int) : Chip :=
  if recType r = tModel1 then
    (List.range (recF r 13 27 16)).foldl (fun c j => c.setReg (LE_DELAY (recF r 13 15 0 + j)) (BitVec.ofInt 32 u)) c
  else c

/-- One evaluation of stage s (R299). -/
def Chip.evaluate (c : Chip) (s : Nat) : Chip :=
  let r0 := c.stageRec s
  let r := if c.loop.forced.contains s then r0.set 0 (putF ⟨0, 6, 5⟩ (recW r0 0) 0) else r0
  let first := c.loop.firsts.contains s
  let ins := c.evalInputs s r
  let (casc, cs) := c.cascadeValue s r
  let tr := c.tracked s r
  let base : EvalIn := ⟨ins, casc, tr.map Prod.fst, (tr.map Prod.snd).getD false, first, 0, c.loop.declared.contains s && !first⟩
  let r1 := if first then presetStates r base (c.heldOutput r) else r
  let c1 := if first then c.presetDelay r (base.x 0) else c
  let e := { base with delayed := (c1.reg (LE_DELAY (recF r 13 15 0 + (recW r1 26).toNat))).toInt }
  let o := evalStage r1 e (c.loop.frame % 2 ^ 32)
  let words := if recMode r = 2 && cs then o.words.set 29 (recFlags o.words ||| BitVec.ofNat 32 sfSatIn) else o.words
  let c2 := c1.setRec s words
  let c3 := match o.delayW with
    | some (a, v) => c2.setReg (LE_DELAY a) (BitVec.ofInt 32 v)
    | none => c2
  let t := frameStart (c.loop.epoch.getD 0) c.loop.frame
  let c4 := c3.onLoop fun l => { l with
    due := l.due.erase s
    outPrev := assocSet l.outPrev s (recOutV r0)
    last := assocSet l.last s (c.latchedNow t r ins)
    firsts := l.firsts.erase s
    forced := l.forced.filter (· != s)
    kept := if l.forced.contains s then s :: l.kept else l.kept
    evals := assocSet l.evals s c.mono
    modes := assocSet l.modes s (recMode r)
    declared := if o.fault.isSome then addOnce l.declared s else if recW words 25 = 0#32 then l.declared.filter (· != s) else l.declared
    bad := if ins.any (·.bad) then s :: l.bad.erase s else l.bad.erase s }
  let (noBind, c5) := c4.deliverOut s words
  let c6 := if noBind then c5.stageFlags s sfNoBind else c5
  let c7 := match o.fault with
    | some res => c6.modelFault s words res
    | none => c6
  c7.tapsEval s o.nodes

/-- The engine stops being seen to run once the frame in progress is complete (R320). -/
def Chip.leIdle (c : Chip) : Chip := if c.loop.epoch.isNone && c.loop.due.isEmpty then c.setFlag LE_STAT_RUN false else c

/-- Whether a due stage waits for a present-frame output (R307, R308). -/
def Chip.mustWait (c : Chip) (s : Nat) : Bool := (chainSources s (c.stageRec s)).any fun q => c.loop.due.contains q

/-- Whether a due stage was held back within the last 40 ns, the time of one evaluation, so that stages of higher number may have gone ahead of it (R308). -/
def Chip.heldBack (c : Chip) (s : Nat) : Bool :=
  (chainSources s (c.stageRec s)).any fun q => c.loop.due.contains q || match assocGet c.loop.evals q with
    | some t => decide (c.mono < t + 40)
    | none => false

/-- Whether a stage is the next to be evaluated: due stages go in ascending order, but for those held back (R308). -/
def Chip.mayEvaluate (c : Chip) (s : Nat) : Bool :=
  c.loop.due.contains s && !c.mustWait s && c.loop.due.all fun q => decide (s ≤ q) || c.heldBack q

/-- STAGE_EVALUATION (R299, R308). -/
def Chip.stageEvaluation (c : Chip) (s : Nat) : Chip := if c.mayEvaluate s then (c.evaluate s).leIdle else c

/-- Evaluates stages in ascending order (R312). -/
def Chip.evaluateAll (c : Chip) : List Nat → Chip
  | [] => c
  | s :: ss => (c.evaluate s).evaluateAll ss

/-! ## Update sets (R324 to R329) -/

/-- Reports in LE_UPDSTAT. -/
def Chip.updReport (c : Chip) (tag idx result : Nat) : Chip :=
  c.setFlds [(LE_UPDSTAT_VALID, 1), (LE_UPDSTAT_BADIDX, idx), (LE_UPDSTAT_TAG, tag), (LE_UPDSTAT_RESULT, result)]

/-- Takes the state words that a stage's type does not list to 0 (R286). -/
def Chip.trimStates (c : Chip) (s : Nat) : Chip :=
  ((List.range 5).drop (typeStates (recType (c.stageRec s)))).foldl (fun c k => c.setReg (LE_STAGE (32 * s + 23 + k)) 0#32) c

/-- Applies one record: software words only; a stage that becomes enabled starts with the presets of R319, and its RTMO counts from this frame (R326,
R339). -/
def Chip.applyRec (c : Chip) (s : Nat) (r : List Word) : Chip :=
  let was := recEnable (c.stageRec s)
  let c1 := (c.putWords (32 * s) (r.take 23)).trimStates s
  let c1 := c1.onLoop fun l => { l with kept := l.kept.filter (· != s), forced := l.forced.filter (· != s) }
  if recEnable r then (if was then c1 else c1.onLoop fun l => { l with
    firsts := s :: l.firsts.erase s, last := l.last.filter fun p => p.1 != s, modes := l.modes.filter fun p => p.1 != s
    declared := l.declared.filter (· != s), remotes := assocSet l.remotes s ⟨none, none, none, none, l.frame⟩ })
  else c1.onLoop fun l => { l with firsts := l.firsts.erase s, remotes := l.remotes.filter fun p => p.1 != s }

/-- Applies a whole set and reports APPLIED (R325). -/
def Chip.applyUpd (c : Chip) (u : UpdSet) : Chip :=
  let c1 := u.recs.foldl (fun c p => c.applyRec p.1 p.2) c
  let c2 := c1.forwardOut 3 u.tag c.cycleNow (u.recs.map fun p => toBytes 2 p.1 ++ (p.2.map fun w => toBytes 4 w.toNat).flatten).flatten
  ((c2.onLoop fun l => { l with upd := none }).setFlag LE_STAT_UPDPEND false).leCounts.updReport u.tag 0x7F 1

/-- The staged records of a set. -/
def Chip.stagedRecs (c : Chip) (n : Nat) : List (Nat × List Word) :=
  (List.range n).map fun j => (c.fld (LE_UPDMAP_STAGE j), (List.range 32).map fun i => c.reg (LE_STAGING (32 * j + i)))

/-- A write of LE_UPDCOMMIT (R324 to R328, log entry 37). -/
def Chip.updCommit (c : Chip) (v : Word) : Chip :=
  let n := bitsOf v.toNat 6 0
  let tag := bitsOf v.toNat 15 8
  let target := (c.reg LE_UPDFRAME).toNat
  if c.mode = 5 ∨ c.mode = 1 then c.updReport tag 0x7F 8
  else if c.loop.upd.isSome then c.updReport tag 0x7F 2
  else if n = 0 ∨ 64 < n then c.updReport tag 0x7F 3
  else
    let recs := c.stagedRecs n
    match c.checkSet recs with
    | some (code, idx) => c.updReport tag idx code
    | none =>
      let u : UpdSet := ⟨tag, if target = 0 then none else some target, recs⟩
      if !c.running then c.applyUpd u
      else
        let ahead := (target + 2 ^ 32 - c.loop.frame % 2 ^ 32) % 2 ^ 32
        if target ≠ 0 ∧ (ahead = 0 ∨ 2 ^ 31 ≤ ahead) then c.updReport tag 0x7F 9
        else ((c.onLoop fun l => { l with upd := some u }).setFlag LE_STAT_UPDPEND true).updReport tag 0x7F 0

/-- Discards a pending set (R327). -/
def Chip.discardUpd (c : Chip) : Chip :=
  match c.loop.upd with
  | none => c
  | some u => ((c.onLoop fun l => { l with upd := none }).setFlag LE_STAT_UPDPEND false).updReport u.tag 0x7F 10

/-- Disables a stage (R329). -/
def Chip.disableStage (c : Chip) (s : Nat) : Chip :=
  (((c.setFld ⟨LE_STAGE (32 * s), 4, 4⟩ 0).onLoop fun l => { l with
    firsts := l.firsts.erase s, remotes := l.remotes.filter fun p => p.1 != s })).leCounts

/-- A write of LE_DISABLE (R329): at the next frame, or at once while no frames run. -/
def Chip.leDisable (c : Chip) (v : Word) : Chip :=
  let s := bitsOf v.toNat 10 0
  if c.enabledStages.any fun q => q != s && readsStage (c.stageRec q) s then c.setFlag LE_STAT_DIRREF true
  else if !recEnable (c.stageRec s) then c
  else if c.running then c.onLoop fun l => { l with disables := s :: l.disables }
  else c.disableStage s

/-! ## Direct writes (R285, R301, R323) -/

/-- Whether a direct write of CTRL to an enabled stage changes MODE alone, to a mode its type has; reserved bits are ignored (R19). -/
def modeOnly (r : List Word) (v : Word) : Bool :=
  let old := recW r 0
  let fixed := (recMask 0 ||| 0x10#32) &&& 0xFFFFFF9F#32
  (old &&& fixed) == (v &&& fixed) && bitsOf v.toNat 6 5 != 3 && modeOk (r.set 0 v)

/-- A direct write of word i of a stage's record: of SFLAGS it clears sticky bits, the other device words take none (R281, R285, R323). Reserved bits keep
reading 0 (R18, R19). -/
def Chip.directWrite (c : Chip) (s i : Nat) (v : Word) : Chip :=
  let r := c.stageRec s
  let k := LE_STAGE (32 * s + i)
  let no := if recEnable r then c.setFlag LE_STAT_DIRREF true else c
  if i = 29 then c.setReg k (recW r 29 &&& ~~~(v &&& 0x7FF#32))
  else if 23 ≤ i then no
  else if recEnable r then
    if i = 18 ∨ i = 19 then c.setReg k v
    else if i = 0 then
      (if modeOnly r v then (c.setReg k (v &&& (recMask 0 ||| 0x10#32))).onLoop fun l => { l with kept := l.kept.filter (· != s) } else no)
    else no
  else if i = 0 then (c.setReg k (v &&& recMask 0)).trimStates s
  else c.setReg k (v &&& recMask i)

/-! ## Remote set-points (R330 to R340) -/

/-- Changes a remote-fed stage's state. -/
def Chip.onRemote (c : Chip) (s : Nat) (f : Remote → Remote) : Chip :=
  c.onLoop fun l => { l with remotes := assocSet l.remotes s (f ((assocGet l.remotes s).getD ⟨none, none, none, none, 0⟩)) }

/-- The receive ring, where it is one that FX produces and LE consumes (R330). -/
def Chip.rspRx (c : Chip) : Option Nat :=
  let ring := c.fld LE_RSPCFG_RXRING
  let x := c.pool.ring ring
  if c.flag LE_RSPCFG_ENABLE && x.prod == 0x12 && x.cons == 0x08 then some ring else none

/-- What R333 discards: message m for stage s with its instant, arrived at fabric time `now`. -/
def Chip.rspBad (c : Chip) (m : Msg) (s at_ now : Nat) : Bool :=
  let r := c.stageRec s
  let newest := (assocGet c.loop.remotes s).bind fun x => match x.pend with
    | some p => some p.at_
    | none => x.lastAt
  let old := match newest with
    | some t => decide (at_ ≤ t)
    | none => false
  m.poisoned || decide (2047 < s) || !(recEnable r && recType r == tPid && recRemoteSp r) || decide (now + 1000000000 * 65536 < at_) || old

/-- A set-point message that LE takes in: it replaces a pending one, whose sender still gets its echo (R331, R333, R334, R337, log entry 112). -/
def Chip.takeSetpoint (c : Chip) (m : Msg) : Chip :=
  let b := m.bytes
  let s := bytesAt b 2 2
  let at_ := bytesAt b 16 8 * 65536 + bytesAt b 24 2
  let now := c.fabricFracAt c.mono
  if c.rspBad m s at_ now then c.bump LE_RSPDISC_LO 1
  else
    let old := ((assocGet c.loop.remotes s).bind (·.pend))
    let senders := match old with
      | some p => p.from_
      | none => []
    let p : RemoteSp := ⟨signed 32 (bytesAt b 8 4), signed 8 (bytesAt b 1 1), at_, bitAt (bytesAt b 6 2) 0, decide (at_ < now),
      (bytesAt b 4 2, m.src / 0x100) :: senders⟩
    let c2 := c.onRemote s fun x => { x with pend := some p }
    if old.isSome then c2.bump LE_RSPREPL_LO 1 else c2

/-- A message of the receive ring that is no echo (R331, R333). -/
def Chip.remoteSetpoint (c : Chip) : Chip :=
  match c.rspRx with
  | none => c
  | some ring => match c.head? ring with
    | none => c
    | some m =>
      if bytesAt m.bytes 0 1 = 2 then c
      else if bytesAt m.bytes 0 1 = 1 then (c.consume ring).takeSetpoint m
      else c.consume ring

/-- An echo of the receive ring (R331, R338). -/
def Chip.echo (c : Chip) : Chip :=
  match c.rspRx with
  | none => c
  | some ring => match c.head? ring with
    | none => c
    | some m =>
      let b := m.bytes
      if bytesAt b 0 1 ≠ 2 then c
      else if m.poisoned then c.consume ring
      else
        let e : Echo := ⟨bitsOf (bytesAt b 6 2) 3 2, signed 32 (bytesAt b 8 4), signed 8 (bytesAt b 1 1), c.loop.frame⟩
        (c.consume ring).onLoop fun l => { l with echoes := assocSet l.echoes (bytesAt b 2 2) e }

/-- A stage's pending set-point applies in this frame where its instant has come (R335 to R337). -/
def Chip.applyRemote (c : Chip) (s : Nat) (ft : Nat) : Chip :=
  match (assocGet c.loop.remotes s).bind (·.pend) with
  | none => c
  | some p =>
    if !(p.quar || p.late || decide (p.at_ ≤ ft)) then c
    else
      let r := c.stageRec s
      let lag : Int := ((ft : Int) - p.at_) / 65536
      let flags := (if p.late then sfSpLate else 0) + (if p.quar then sfSpQuar else 0)
      let c1 := c.onRemote s fun x => { x with
        pend := none, applied := some (p.mant, p.exp), before := x.applied, lastAt := some p.at_, since := c.loop.frame }
      let c2 := c1.setReg (LE_STAGE (32 * s + 31)) (BitVec.ofInt 32 lag)
      let c3 := (c2.stageFlags s flags).setFld ⟨LE_STAGE (32 * s + 29), 20, 20⟩ 0
      let c4 := if p.late then c3.bump LE_RSPLATE_LO 1 else c3
      let fl := c4.timeMarks + recMode r * 4 + (if recMode r = 2 then 16 else 0)
      p.from_.foldl (fun c o => c.rspSend o.2 (spMessage 2 (recF r 0 15 8) o.1 s fl (recState r 4) ft)) c4

/-- RTMO_EXPIRY (R339): RTMO frames since a set-point was applied, or since the stage was enabled. RTMO_LOCAL takes the stage to AUTO, but not one that a model
fault holds in MANUAL (R342). -/
def Chip.rtmoExpiry (c : Chip) (s : Nat) : Chip :=
  let r := c.stageRec s
  let since := match assocGet c.loop.remotes s with
    | some x => x.since
    | none => 0
  if !(recEnable r && recType r == tPid && recRemoteSp r) || recRtmo r == 0 || decide (c.loop.frame < since + recRtmo r) ||
      bitAt (recFlags r).toNat 20 || c.loop.epoch.isNone then c
  else
    let c1 := c.stageFlags s (sfSpStale + sfStale)
    if recRtmoLocal r && !c.loop.forced.contains s && !c.loop.kept.contains s then c1.setFld ⟨LE_STAGE (32 * s), 6, 5⟩ 1 else c1

/-- An image set-point of a stage: SPLOCAL; a NaN is not applied (R297). -/
def Chip.imageSetpoint (c : Chip) (s : Nat) (w : Word) : Chip :=
  match convertFloat w (signed 8 (bitsOf (c.recWord s 0).toNat 15 8)) with
  | none => c.stageFlags s sfSpBad
  | some (m, sat) =>
    let c1 := c.setReg (LE_STAGE (32 * s + 18)) (BitVec.ofInt 32 m)
    if sat then c1.stageFlags s sfSatIn else c1

/-! ## Frames (R304 to R312, R316 to R321) -/

/-- What waits for a frame takes effect at its start: the update set that is due, and stages to disable (R325, R329). -/
def Chip.frameChanges (c : Chip) (f : Nat) : Chip :=
  let c1 := match c.loop.upd with
    | none => c
    | some u => match u.target with
      | none => c.applyUpd u
      | some t => if f % 2 ^ 32 = t then c.applyUpd u else c
  let c2 := c1.onLoop fun l => { l with disables := [] }
  c2.onChans (fun s c => c.disableStage s) c1.loop.disables

/-- Latches the due stages of a frame (R305, R306). -/
def Chip.latchAll (c : Chip) (t : Nat) : List Nat → Chip
  | [] => c
  | s :: ss =>
    let r := c.stageRec s
    let (v, c1) := c.latchInputs s t r (List.range (typeInputs (recType r)))
    (c1.onLoop fun l => { l with ins := assocSet l.ins s v }).latchAll t ss

/-- The stages due in a frame (R305). -/
def Chip.dueStages (c : Chip) (f : Nat) : List Nat :=
  c.enabledStages.filter fun s =>
    let r := c.stageRec s
    recFrames r != 0 && f % recFrames r == recPhase r

/-- LE_FRAME (R304 to R306, R312): the next frame starts once its instant has come. -/
def Chip.leFrame (c : Chip) : Chip :=
  match c.loop.epoch with
  | none => c
  | some e =>
    let f := c.counter LE_FRAME_LO
    let t := frameStart e f
    if c.mono < t then c
    else
      let late := !c.loop.due.isEmpty
      let c1 := c.evaluateAll c.loop.due
      let c2 := if late then ((c1.bump LE_OVR_LO 1).setFlag LE_STAT_OVR true).raise 0x1C03 5 0x08 (toBytes 8 c.loop.frame) else c1
      let c3 := ((c2.bump LE_FRAME_LO 1).setFlag LE_STAT_RUN true).onLoop fun l => { l with frame := f, outPrev := [], ins := [], evals := [] }
      let c4 := c3.frameChanges f
      let c5 := c4.onChans (fun s c => c.applyRemote s (c.fabricFracAt t)) (c4.loop.remotes.map Prod.fst)
      let due := c5.dueStages f
      (c5.latchAll t due).onLoop fun l => { l with due := due }

/-- The engine starts at an epoch (R304, R317, R319): every enabled stage's next evaluation is its first; a stage that a model fault has forced stays so
(R342). -/
def Chip.leStart (c : Chip) (e : Nat) : Chip :=
  (((c.setCounter LE_FRAME_LO 0).onLoop fun l => { l with
    epoch := some e, frame := 0, due := [], outPrev := [], ins := [], last := [], firsts := c.enabledStages, bad := [], evals := [], modes := [],
    declared := [], echoes := [], remotes := [] }).setFlag LE_STAT_RUN true).leCounts

/-- The engine stops: it completes the frame in progress while the module is still in its mode, and a pending set is discarded (R320, R327). -/
def Chip.leStop (c : Chip) : Chip := (((c.evaluateAll c.loop.due).onLoop fun l => { l with epoch := none }).discardUpd).leIdle

/-! ## Commands -/

/-- LE_FRAME (R304). -/
def execLeFrame (m : State) : Out := .next (m.onChip fun c => c.leFrame)

/-- STAGE_EVALUATION (R299). -/
def execStageEvaluation (stage : Stage) (m : State) : Out := .next (m.onChip fun c => c.stageEvaluation stage.val)

/-- STAGE_DIRECT_WRITE (R323). -/
def execStageDirectWrite (src : Island) (stage : Stage) (word : Fin 32) (value : Word) (m : State) : Out :=
  .next (m.onChip fun c => c.whenOn src.val (LE_STAGE 0) fun c => c.directWrite stage.val word.val value)

/-- UPDATE_SET_COMMIT (R325). -/
def execUpdateSetCommit (src : Island) (value : Word) (m : State) : Out :=
  .next (m.onChip fun c => c.whenOn src.val LE_UPDCOMMIT fun c => c.updCommit value)

/-- LE_DISABLE (R329). -/
def execLeDisable (src : Island) (value : Word) (m : State) : Out :=
  .next (m.onChip fun c => c.whenOn src.val LE_DISABLE fun c => c.leDisable value)

/-- REMOTE_SETPOINT (R333): the oldest message of the receive ring. -/
def execRemoteSetpoint (m : State) : Out := .next (m.onChip fun c => c.remoteSetpoint)

/-- ECHO (R338): the oldest message of the receive ring. -/
def execEcho (m : State) : Out := .next (m.onChip fun c => c.echo)

/-- RTMO_EXPIRY (R339): RTMO frames since a set-point was applied, or since the stage was enabled. RTMO_LOCAL takes the stage to AUTO, but not one that a model
fault holds in MANUAL (R342). -/
def execRtmoExpiry (stage : Stage) (m : State) : Out := .next (m.onChip fun c => c.rtmoExpiry stage.val)

/-- TRACE_ARM (R345): a write of LE_TRCCTL. -/
def execTraceArm (src : Island) (value : Word) (m : State) : Out :=
  .next (m.onChip fun c => c.whenOn src.val LE_TRCCTL fun c => c.writeTrcctl value)

/-- SWTRIG (R346): a write of LE_TRCCTL. -/
def execSwtrig (src : Island) (value : Word) (m : State) : Out :=
  .next (m.onChip fun c => c.whenOn src.val LE_TRCCTL fun c => c.writeTrcctl value)

/-- TAP_ENABLE (R309): a write of LE_TAPSEL. -/
def execTapEnable (src : Island) (tap : Fin 64) (value : Word) (m : State) : Out :=
  .next (m.onChip fun c => c.whenOn src.val (LE_TAPSEL tap.val) fun c => c.writeTapsel tap.val value)

end Sys2Proof.Machine
end

