-- ==== Sys2Proof/Machine/Requests.lean ====
section
/-!
DEFINITION. The requests that wait in the mode controller (R61, R62, R98).
-/

namespace Sys2Proof.Machine

/-- MG_MODE.PENDING follows what waits (R61). -/
def Chip.countPending (c : Chip) : Chip :=
  c.setFld MG_MODE_PENDING (c.ctl.queue.length + b2n c.ctl.flush + b2n c.ctl.fatal + b2n c.ctl.key.isSome)

/-- Changes the mode controller. -/
def Chip.onCtl (c : Chip) (f : ModeCtl → ModeCtl) : Chip := ({ c with ctl := f c.ctl }).countPending

/-- The outcomes of R98. -/
def ocDone : Nat := 0
def ocBusy : Nat := 1
def ocKeyDenied : Nat := 2
def ocNotAllowed : Nat := 3
def ocAckTimeout : Nat := 4
def ocStateRefused : Nat := 5
def ocDiscarded : Nat := 6

/-- Writes an outcome (R98). -/
def Chip.modeOutcome (c : Chip) (tag o : Nat) : Chip :=
  c.setFlds [(MG_MODEOUT_VALID, 1), (MG_MODEOUT_TAG, tag), (MG_MODEOUT_OUTCOME, o)]

/-- Queues a request of precedence 4 or 5, or refuses it BUSY (R61); a pair partner's writes no outcome. -/
def Chip.enqueueReq (c : Chip) (r : ModeReq) : Chip :=
  if c.ctl.queue.length < 8 then c.onCtl fun x => { x with queue := x.queue ++ [r] }
  else match r.kind with
    | .partner _ => c
    | _ => c.modeOutcome r.tag ocBusy

/-- Changes the recorder. -/
def Chip.onRec (c : Chip) (f : Recorder → Recorder) : Chip := { c with recorder := f c.recorder }

/-- The operating time in ms (R713): it stands while a logic power failure is in force. -/
def Chip.opmsNow (c : Chip) : Nat :=
  match c.power.failAt with
  | none => c.recorder.opms + (c.now - c.recorder.opmsAt) / 1000000
  | some _ => c.recorder.opms

/-- The bank capacitance in 0.1 % of C0: the latest measurement, before one the value stored with OPMS, else 0.8 × C0
(R795). -/
def SelfTest.capNow (t : SelfTest) : Nat := t.cap.getD (t.capSaved.getD 800)

/-- OPMS_STORE (R713, R795). -/
def Chip.opmsStore (c : Chip) : Chip :=
  let c := c.onRec fun r => { r with stored := (c.opmsNow, (c.reg EV_PWRCYC).toNat, (c.reg EV_NEXTSEQ - 1#32).toNat), storeAt := c.now }
  { c with test := { c.test with capSaved := some c.test.capNow } }

/-- Asks for a flush of the recorder (R722). One in progress goes on with the records created since it started: its store is made
anew before them (R713). -/
def Chip.wantFlush (c : Chip) : Chip :=
  let c := { c with recWanted := true }
  if c.flag EV_RECSTAT_FLUSHING then c.opmsStore else c

/-- A fatal fault asks for SAFE-HOLD (R61, R62) and for a recorder flush (R722). -/
def Chip.fatalRequest (c : Chip) : Chip := (c.onCtl fun x => { x with fatal := true }).wantFlush

/-- Whether a key position in force (0 LOCK, 1 RUN, 2 PROG, 3 SERVICE) allows a mode (R94). -/
def keyAllows (pos mode : Nat) : Bool :=
  match mode with
  | 2 => true
  | 3 => pos == 2 || pos == 3
  | 4 => pos == 1 || pos == 2
  | 5 | 6 => pos != 3
  | 7 => pos == 3
  | _ => false

/-- The key position in force; LOCK in a key fault (R91, R93). -/
def Chip.keyPos (c : Chip) : Nat := c.fld MG_KEYSW_POS

/-- A key change is queued at precedence 3; a pending one is replaced (R61, R95). -/
def Chip.keyRequest (c : Chip) (pos : Nat) : Chip := c.onCtl fun x => { x with key := some pos }

end Sys2Proof.Machine
end

