-- ==== Sys2Proof/Machine/Tasks.lean ====
section
/-!
DEFINITION. Task descriptors and image maps: their layout, the check at ENABLE, and the write locks (R224 to R229,
R241).
-/

namespace Sys2Proof.Machine

/-! ## The image map (R241) -/

/-- One entry of an image map. -/
structure MapItem where
  kind   : Nat
  width  : Nat
  index  : Nat
  offset : Nat
  remote : Nat
  srcoff : Nat
  deriving DecidableEq, Repr

/-- The entry at a physical address. -/
def mapItemAt (m : List Host.Cell) (a : Nat) : MapItem :=
  ⟨memRead m 1 a, memRead m 1 (a + 1), memRead m 2 (a + 2), memRead m 4 (a + 4), memRead m 4 (a + 8), memRead m 4 (a + 12)⟩

/-- The entries of a map. -/
def mapItemsAt (m : List Host.Cell) (a : Nat) : Nat → List MapItem
  | 0 => []
  | n + 1 => mapItemAt m a :: mapItemsAt m (a + 16) n

/-- The bits an item takes: 1, 8, 16 or 32. -/
def MapItem.bits (i : MapItem) : Nat := if i.width = 0 then 1 else if i.width = 1 then 8 else if i.width = 3 then 16 else 32

/-- Its first bit in the image. -/
def MapItem.first (i : MapItem) : Nat := if i.width = 0 then i.offset else i.offset * 8

/-- Whether it lies in the input image. -/
def MapItem.isInput (i : MapItem) : Bool := i.kind == 0 || i.kind == 1 || i.kind == 4 || i.kind == 6

/-- Defined KIND and WIDTH. -/
def MapItem.shapeOk (i : MapItem) : Bool :=
  match i.kind with
  | 0 | 2 => i.width == 0 || i.width == 5
  | 1 | 3 | 6 => i.width == 5
  | 4 | 5 => i.width == 0 || i.width == 1 || i.width == 3 || i.width == 5
  | _ => false

/-- The other fields: numbers in range, zero where the kind does not use them; `chans` is the station's channel count. -/
def MapItem.fieldsOk (i : MapItem) (chans : Nat) : Bool :=
  let local_ := i.remote == 0 && i.srcoff == 0
  let remote := i.index == 0 && decide (1 ≤ i.remote % 4096 ∧ i.remote % 4096 ≤ 4094) && decide (i.remote < 0x100000)
  match i.kind with
  | 0 | 1 | 2 => local_ && decide (i.index < chans)
  | 3 => local_ && decide (i.index < 2048)
  | 6 => remote && decide (1 ≤ i.srcoff ∧ i.srcoff ≤ 255)
  | _ => remote

/-- The item is aligned and lies in a page the task owns. -/
def MapItem.placeOk (i : MapItem) (inPages outPages : Nat) : Bool :=
  let pages := if i.isInput then inPages else outPages
  i.first % i.bits == 0 && decide (i.first / 8 < 0x40000) && pages.testBit (i.first / 8 / 4096)

/-- Two items of one image overlap. -/
def MapItem.overlaps (i j : MapItem) : Bool :=
  i.isInput == j.isInput && decide (i.first < j.first + j.bits ∧ j.first < i.first + i.bits)

/-- No two items of one image overlap. -/
def mapDisjoint : List MapItem → Bool
  | [] => true
  | i :: is => (is.all fun j => !i.overlaps j) && mapDisjoint is

/-! ## Descriptors (R226, R227) -/

def State.tPeriod (s : State) (k : Nat) : Nat := s.descField k 0x00 4
def State.tPhase (s : State) (k : Nat) : Nat := s.descField k 0x04 4
def State.tWd (s : State) (k : Nat) : Nat := s.descField k 0x08 4
def State.tCore (s : State) (k : Nat) : Nat := s.descField k 0x0C 1
def State.tPrio (s : State) (k : Nat) : Nat := s.descField k 0x0D 1
def State.tEntry (s : State) (k : Nat) : Nat := s.descField k 0x10 4
def State.tTmr (s : State) (k : Nat) : Nat := s.descField k 0x14 4
def State.tMapAddr (s : State) (k : Nat) : Nat := s.descField k 0x18 4 * 64
def State.tMapCount (s : State) (k : Nat) : Nat := s.descField k 0x1C 2
def State.tRring (s : State) (k : Nat) : Nat := s.descField k 0x1E 2
def State.tInPages (s : State) (k : Nat) : Nat := s.descField k 0x20 8
def State.tOutPages (s : State) (k : Nat) : Nat := s.descField k 0x28 8
def State.tInitAddr (s : State) (k : Nat) : Nat := s.descField k 0x30 4 * 64
def State.tInitLen (s : State) (k : Nat) : Nat := s.descField k 0x34 4
def State.tInst (s : State) (k : Nat) : Nat := s.descField k 0x38 4
def State.tMap (s : State) (k : Nat) : List MapItem := mapItemsAt s.mem (s.tMapAddr k) (s.tMapCount k)

/-- The length of a region. -/
def Region.len (r : Region) : Nat := r.vhi - r.vlo

/-- Whether a region is aligned and lies in a range of the map (R227, R228). -/
def Region.inside (r : Region) (lo hi : Nat) : Bool :=
  r.vlo % 64 == 0 && r.vhi % 64 == 0 && decide (lo ≤ r.vlo ∧ r.vlo ≤ r.vhi ∧ r.vhi ≤ hi)

/-- Whether a region's physical span lies wholly in DRAM (R228). -/
def Region.inDram (r : Region) : Bool := Sys2Proof.Machine.inDram (r.pbase * 64) r.len

/-- Whether two spans share a byte; an empty span shares none. -/
def spansMeet (a n b k : Nat) : Bool := decide (0 < n ∧ 0 < k ∧ a < b + k ∧ b < a + n)

/-- MIRROR is absent: an all-zero region entry. -/
def State.noMirror (s : State) (k : Nat) : Bool := s.descField k 0x80 16 == 0

/-- Every field of a descriptor is in range (R226, R228): reason 1 (log entry 43). -/
def State.descFieldsOk (s : State) (k : Nat) : Bool :=
  let p := s.tPeriod k
  let r := s.tRring k
  let tmr := s.tTmr k
  inDram (s.descAddr k) 256 && decide (250 ≤ p ∧ p ≤ 10000000) && decide (s.tPhase k < p) &&
    decide (50 ≤ s.tWd k ∧ s.tWd k ≤ p) && decide (s.tCore k ≤ 7) && decide (s.tPrio k ≤ 15) &&
    (r == 0 || decide (64 ≤ r ∧ r ≤ 16383)) && decide (bitsOf tmr 27 16 ≤ 2048) &&
    inDram (s.tMapAddr k) (16 * s.tMapCount k) && inDram (s.tInitAddr k) (s.tInitLen k) &&
    decide (s.tInitLen k ≤ (s.taskRegion k 0x50).len) &&
    ((s.taskRegion k 0x40).place (s.tEntry k) 1).isSome && ((s.taskRegion k 0x50).place (s.tInst k) 1).isSome

/-- Every region is aligned and in its place (R228): reason 2. -/
def State.descRegionsOk (s : State) (k : Nat) : Bool :=
  let inst := s.taskRegion k 0x50
  let stack := s.taskRegion k 0x60
  let mir := s.taskRegion k 0x80
  (s.taskRegion k 0x40).inside 0 0x10000000 && inst.inside 0x10000000 0x50000000 &&
    (s.taskRegion k 0x70).inside 0x50000000 0x60000000 && stack.inside inst.vlo inst.vhi &&
    (s.noMirror k || (mir.inside inst.vlo inst.vhi && !spansMeet stack.vlo stack.len mir.vlo mir.len && mir.inDram)) &&
    (s.taskRegion k 0x40).inDram && inst.inDram && stack.inDram && (s.taskRegion k 0x70).inDram

/-- The image map is valid (R241): reason 4. -/
def State.mapOk (s : State) (k : Nat) : Bool :=
  let m := s.tMap k
  (m.all fun i => i.shapeOk && i.fieldsOk s.chip.stationChans && i.placeOk (s.tInPages k) (s.tOutPages k)) && mapDisjoint m

/-- The output channels a map names. -/
def mapOutputs (m : List MapItem) : List Nat := (m.filter fun i => i.kind == 2).map MapItem.index

/-- Whether a task overlaps an enabled one (R228, log entry 43): INST and output channels on any core; on one core also
the virtual addresses, the image pages and the timer window. -/
def State.overlapsTask (s : State) (k j : Nat) : Bool :=
  let a := s.taskRegion k 0x50
  let b := s.taskRegion j 0x50
  let outs := mapOutputs (s.tMap j)
  let tmr := fun i => (bitsOf (s.tTmr i) 10 0, bitsOf (s.tTmr i) 27 16)
  spansMeet (a.pbase * 64) a.len (b.pbase * 64) b.len || ((mapOutputs (s.tMap k)).any fun o => outs.contains o) ||
    (s.tCore k == s.tCore j &&
      (spansMeet a.vlo a.len b.vlo b.len || s.tInPages k &&& s.tInPages j != 0 || s.tOutPages k &&& s.tOutPages j != 0 ||
        spansMeet (tmr k).1 (tmr k).2 (tmr j).1 (tmr j).2))

/-- The reason that refuses a task, 0 for none (MG_TASKSTAT.REFUSE). -/
def State.enableReason (s : State) (k : Nat) : Nat :=
  if !s.descFieldsOk k then 1
  else if !s.descRegionsOk k then 2
  else if !s.mapOk k then 4
  else if (s.chip.enabledTasks.filter (· != k)).any fun j => s.overlapsTask k j then 3
  else 0

/-- The locks of an enabled task (R229). -/
def State.taskLocks (s : State) (k : Nat) : List Lock :=
  [⟨s.descAddr k, 256, k⟩, ⟨s.tMapAddr k, 16 * s.tMapCount k, k⟩, ⟨s.tInitAddr k, s.tInitLen k, k⟩]

/-- A write of MG_TASKDESC with ENABLE = 1 (R24, R228, R229). -/
def State.taskEnable (s : State) (src k : Nat) (v : Word) : State :=
  if !s.chip.modeLockOpen then s.onChip fun c => c.rwlIgnored src (MG_TASKDESC k)
  else if s.chip.flag (MG_TASKDESC_ENABLE k) then s
  else
    let s1 := s.onChip fun c => c.setFld (MG_TASKDESC_ADDR k) (bitsOf v.toNat 28 0)
    match s1.enableReason k with
    | 0 => s1.onChip fun c => { (c.setFlag (MG_TASKDESC_ENABLE k) true) with locks := c.locks ++ s1.taskLocks k }
    | r => s1.onChip fun c => c.setFld (MG_TASKSTAT_REFUSE k) r

/-- A write of MG_TASKDESC with ENABLE = 0 (R24, R229). -/
def State.taskDisable (s : State) (src k : Nat) (v : Word) : State :=
  s.onChip fun c =>
    if !c.modeLockOpen then c.rwlIgnored src (MG_TASKDESC k)
    else
      let c1 := (c.setFlag (MG_TASKDESC_ENABLE k) false).setFld (MG_TASKDESC_ADDR k) (bitsOf v.toNat 28 0)
      { c1 with locks := c1.locks.filter fun l => l.owner != k }

end Sys2Proof.Machine
end

