-- ==== Sys2Proof/Machine/Cycle.lean ====
section
/-!
DEFINITION. The cycle unit and the cycle-boundary exchange: starts and stops, boundaries, dispatch, the watchdog,
process images, remote I/O and online change (R37 to R42, R224 to R277, R659 to R661, R673 to R677).
-/

namespace Sys2Proof.Machine

/-! ## The cycle unit's data -/

/-- Changes the cycle unit. -/
def Chip.onCyc (c : Chip) (f : Cyc → Cyc) : Chip := { c with cyc := f c.cyc }

/-- A task of the present run. -/
def Chip.run (c : Chip) (k : Nat) : Option TaskRun := assocGet c.cyc.tasks k

/-- Changes a task of the present run. -/
def Chip.onRun (c : Chip) (k : Nat) (f : TaskRun → TaskRun) : Chip :=
  match c.run k with
  | none => c
  | some r => c.onCyc fun y => { y with tasks := assocSet y.tasks k (f r) }

/-! ## Dispatch (R234 to R236) -/

/-- The ready task a core takes: the lowest PRIO, the earliest release among equals. -/
def State.bestOf (s : State) : Option Nat → List Nat → Option Nat
  | b, [] => b
  | none, k :: ks => s.bestOf (some k) ks
  | some b, k :: ks => s.bestOf (some (if s.tPrio k < s.tPrio b then k else b)) ks

/-- The current task core n ought to have. -/
def State.bestTask (s : State) (n : Nat) : Option Nat := s.bestOf none (s.chip.cyc.ready.filter fun k => s.tCore k == n)

/-- The first task of a core whose release waits for patch sets (R272). -/
def State.heldTask (s : State) (n : Nat) : Option Nat :=
  (List.range 16).find? fun k => s.tCore k == n && match s.chip.run k with
    | some r => r.held
    | none => false

/-- Brings core n's current task and MG_DISPn up to date and raises DISPATCH where one of them changed (R236). -/
def State.dispatchCore (s : State) (n : Nat) : State :=
  let cur := s.bestTask n
  let pat := s.heldTask n
  let code := match cur with
    | some k => k + 1
    | none => 0
  let shown := match pat, cur with
    | some k, _ => k
    | none, some k => k
    | none, none => s.chip.fld (MG_DISP_TASK n)
  let same := mapGet 0 s.chip.cyc.cur n == code && s.chip.flag (MG_DISP_PATCH n) == pat.isSome
  s.onChip fun c =>
    let c1 := c.onCyc fun y => { y with cur := mapSet 0 y.cur n code }
    let c2 := c1.setFlds [(MG_DISP_IDLE n, b2n cur.isNone), (MG_DISP_PATCH n, b2n pat.isSome), (MG_DISP_TASK n, shown)]
    if same then c2 else { c2 with dispatchIrq := addOnce c2.dispatchIrq n }

/-- MG_TASKSTAT.STATE of a task (R262). -/
def Chip.taskState (c : Chip) (k : Nat) : Nat :=
  if c.cyc.epoch.isNone || (c.run k).isNone then 0
  else if c.cyc.cur.any fun p => p.2 == k + 1 then 3
  else if c.cyc.ready.contains k then 2
  else 1

/-- Updates every task's STATE. -/
def Chip.showStates (c : Chip) : Chip :=
  c.onChans (fun k c => c.setFld (MG_TASKSTAT_STATE k) (c.taskState k)) (List.range 16)

/-- Applies a function for every number of a list. -/
def State.each (s : State) (f : Nat → State → State) : List Nat → State
  | [] => s
  | n :: ns => (f n s).each f ns

/-- Dispatches every core. -/
def State.dispatch (s : State) : State := (s.each (fun n s => s.dispatchCore n) (List.range 8)).onChip Chip.showStates

/-! ## Patch sets (R270 to R277) -/

/-- MG_PATCHSTAT.PENDING and MG_TASKSTAT.PATCHQ follow the sets held. -/
def Chip.countPatches (c : Chip) : Chip :=
  (c.setFld MG_PATCHSTAT_PENDING c.cyc.patches.length).onChans
    (fun k c => c.setFld (MG_TASKSTAT_PATCHQ k) (c.cyc.patches.filter fun p => p.task == k).length) (List.range 16)

/-- Reports in MG_PATCHSTAT (R277). -/
def Chip.patchReport (c : Chip) (tag result : Nat) : Chip :=
  c.setFlds [(MG_PATCHSTAT_VALID, 1), (MG_PATCHSTAT_TAG, tag), (MG_PATCHSTAT_RESULT, result)]

/-- Discards every pending patch set (R276). A cycle held for one that was due stays held where the tasks go on: the executive may be writing it (log entry
107). -/
def Chip.discardPatches (c : Chip) : Chip :=
  let c1 := c.cyc.patches.foldl (fun c p => c.patchReport p.tag 4) c
  ({ c1.onCyc fun y => { y with patches := [] } with litOpen := [] }).countPatches

/-- PATCH_REQUEST (R270, R271, R277, log entry 44). -/
def Chip.patchRequest (c : Chip) (v : Word) : Chip :=
  let w := v.toNat
  let k := bitsOf w 27 24
  let tag := bitsOf w 23 16
  let n := bitsOf w 10 0
  let target := (c.reg MG_PATCHTGT_LO).toNat + (c.reg MG_PATCHTGT_HI).toNat * 2 ^ 32
  if c.mode ≠ 4 ∨ !c.flag (MG_TASKDESC_ENABLE k) then c.patchReport tag 6
  else if 4 ≤ c.cyc.patches.length then c.patchReport tag 5
  else if n = 0 ∨ 1024 < n then c.patchReport tag 3
  else if target ≠ 0 ∧ target < c.counter (MG_TASKCYC_LO k) then c.patchReport tag 7
  else
    let p : PatchSet := ⟨k, tag, (c.reg MG_PATCHADDR).toNat * 8, n, target, false⟩
    ((c.onCyc fun y => { y with patches := y.patches ++ [p] }).patchReport tag 0).countPatches

/-- Where entry i of a set writes: physical address and size; none where the entry is invalid (R269, R273). -/
def State.patchTarget (s : State) (p : PatchSet) (i : Nat) : Option (Nat × Nat) :=
  let a := p.addr + 24 * i
  let v := memRead s.mem 4 a
  let n := 2 ^ memRead s.mem 1 (a + 4)
  if 3 < memRead s.mem 1 (a + 4) ∨ memRead s.mem 3 (a + 5) ≠ 0 ∨ v % n ≠ 0 then none
  else (((s.taskRegion p.task 0x50).place v n).orElse fun _ => (s.taskRegion p.task 0x70).place v n).bind fun t =>
    if s.chip.locked t n then none else some (t, n)

/-- The patch set that the executive of each core is applying: of the due sets of its tasks, the one requested first (R273). -/
def State.applying (s : State) : List PatchSet :=
  (List.range 8).filterMap fun n => s.chip.cyc.patches.find? fun p => p.due && s.tCore p.task == n

/-- Writes OLD back to every entry of a set whose application a core reset interrupted (R275); a set with an invalid entry is never applied (R273), so
nothing of it is undone (log entry 45). -/
def State.rollBack (s : State) (p : PatchSet) : State :=
  let is := List.range p.count
  let s1 := if is.all fun i => (s.patchTarget p i).isSome then
      s.each (fun i s => match s.patchTarget p i with
        | none => s
        | some (t, n) => { s with mem := memWrite s.mem n t (memRead s.mem n (p.addr + 24 * i + 8)) }) is
    else s
  s1.onChip fun c => c.patchReport p.tag 4

/-- BOOT rolls back the sets that a core reset interrupted (R275). -/
def State.rollBacks (s : State) : State :=
  (s.chip.cyc.broken.foldl (fun s p => s.rollBack p) s).onChip fun c => c.onCyc fun y => { y with broken := [] }

/-! ## Stopping (R261, R264) -/

/-- Whether a stop that sets STOP on the cores named changes what MG_DISPn shows of core n: its current task, STOP or PATCH (R236). -/
def Chip.stopMoves (c : Chip) (cores : List Nat) (n : Nat) : Bool :=
  mapGet 0 c.cyc.cur n != 0 || c.flag (MG_DISP_PATCH n) || (cores.contains n && !c.flag (MG_DISP_STOP n))

/-- Changes every channel that holds anything. -/
def Chip.mapChans (c : Chip) (f : Chan → Chan) : Chip := { c with chans := c.chans.map fun p => (p.1, f p.2) }

/-- A TASK-triggered channel without the triggers of boundaries that will not come. -/
def Chan.noTaskArrivals (x : Chan) : Chan := if eSource x.entry = 1 ∧ eMode x.entry = 0 then { x with arrivals := [] } else x

/-- A TASK-triggered channel outside the running modes: no trigger, no window and no sample (R373). -/
def Chan.noTaskWindows (x : Chan) : Chan :=
  if eSource x.entry = 1 ∧ eMode x.entry = 0 then { x with arrivals := [], window := none, queued := false, ended := [] } else x

/-- Stops every release and sets STOP on the cores named; no task is current, and DISPATCH is raised on each core where that is a change (R236,
R261). -/
def Chip.stopTasks (c : Chip) (cores : List Nat) : Chip :=
  let moved := (List.range 8).filter (c.stopMoves cores)
  let c1 := c.onCyc fun y => { y with epoch := none, tasks := [], ready := [], cur := [] }
  let c2 := c1.onChans (fun n c => c.setFlds [(MG_DISP_IDLE n, 1), (MG_DISP_PATCH n, 0)]) (List.range 8)
  let c3 := c2.onChans (fun n c => c.setFlag (MG_DISP_STOP n) true) cores
  let c4 := c3.mapChans Chan.noTaskArrivals
  ({ c4 with litOpen := [], dispatchIrq := moved.foldl addOnce c4.dispatchIrq }).showStates

/-- The module leaves the running modes (R261, R276). -/
def State.leaveRunning (s : State) : State :=
  let cores := (s.chip.enabledTasks.map s.tCore).eraseDups
  s.onChip fun c => ((c.stopTasks cores).mapChans Chan.noTaskWindows).discardPatches

/-- Every output that has been written takes its safe value in the first frame that starts at or after `t` (R81, R264). -/
def Chip.outputsSafeAt (c : Chip) (t : Nat) : Chip :=
  c.onChans (fun i c => if (c.chan i).isOutput && ((c.chan i).want.isSome || !(c.chan i).queue.isEmpty) then
    c.onChan i fun x => { x with queue := [(t, c.safeValue i)] } else c) (c.chans.map Prod.fst)

/-- A watchdog trips (R264). -/
def State.trip (s : State) (k : Nat) : State :=
  match s.chip.run k with
  | none => s
  | some r => s.onChip fun c =>
    let c1 := (c.stopTasks (List.range 8)).setFlag (MG_TASKSTAT_TRIPPED k) true
    let c2 := (c1.outputsSafeAt (c.mono + 2000)).fatalRequest
    let c3 := if c2.flag MG_WDCAUSE_VALID then c2 else
      c2.setFlds [(MG_WDCAUSE_VALID, 1), (MG_WDCAUSE_TASK, k), (MG_WDCAUSE_CYCLE, r.cycle)]
    c3.raise 0x1C01 7 0x15 (toBytes 4 k ++ toBytes 4 r.cycle ++ toBytes 8 r.ft)

/-- Whether a task's released cycle has missed its deadline by an instant (R263). -/
def TaskRun.missed (r : TaskRun) (t : Nat) : Bool := match r.dead with
  | some d => decide (d ≤ t)
  | none => false

/-- WATCHDOG_TRIP (R263, R264). -/
def State.watchdog (s : State) (k : Nat) : State :=
  match s.chip.run k with
  | none => s
  | some r => if r.missed s.chip.mono then s.trip k else s

/-! ## Images (R240 to R245) -/

/-- Writes an item in a bank of core n's image. -/
def putItem (m : List (Nat × Byte)) (n : Nat) (i : MapItem) (v : Nat) : List (Nat × Byte) :=
  let a := n * 0x40000 + i.first / 8
  if i.width = 0 then mapSet 0#8 m a (withBit (mapGet 0#8 m a) (i.first % 8) (v % 2 == 1))
  else bytesInto m (i.bits / 8) a v

/-- Reads an item of a bank. -/
def getItem (m : List (Nat × Byte)) (n : Nat) (i : MapItem) : Nat :=
  let a := n * 0x40000 + i.first / 8
  if i.width = 0 then b2n ((mapGet 0#8 m a).getLsbD (i.first % 8)) else bytesFrom m (i.bits / 8) a

/-- Whether a byte of the banks lies in the pages of a core. -/
def inPages (n pages a : Nat) : Bool := a / 0x40000 == n && pages.testBit (a % 0x40000 / 4096)

/-- Gives the pages of one bank the contents of the other. -/
def copyPages (src dst : List (Nat × Byte)) (n pages : Nat) : List (Nat × Byte) :=
  (src.filter fun p => inPages n pages p.1).foldl (fun m p => mapSet 0#8 m p.1 p.2) (dst.filter fun p => !inPages n pages p.1)

/-- The key of an item's source: a channel, or a remote module. -/
def MapItem.source (i : MapItem) : Nat := if i.kind < 4 then i.index else 0x10000 + i.remote

/-- Whether the partner's items read QUALITY 2 (R640, R650). -/
def Chip.partnerBad (c : Chip) : Bool := c.red.lost || c.flag MG_STRAP_CLK_FALLBACK || !c.flag MG_STRAP_CLKSEL

/-- The channel as of a boundary: samples stamped before it (R38), since the start (R243). -/
def Chip.asOf (c : Chip) (i b : Nat) : Chip :=
  c.onChan i fun x => { x with samples := x.samples.filter fun s => decide (c.cyc.startAt ≤ s.stamp ∧ s.stamp < b) }

/-- What a source has at boundary b: the mark of its newest sample or frame (0 for none), the value word, the quality. -/
def Chip.sourceAt (c : Chip) (k : Nat) (i : MapItem) (b : Nat) : Nat × Nat × Nat :=
  if 4 ≤ i.kind then ((assocGet c.cyc.rx (k * 0x100000 + i.remote)).getD 0, 0, 0)
  else match c.localChan i.index with
    | some j =>
      let c1 := c.asOf j b
      match (c1.chan j).samples with
      | [] => (0, 0, c1.quality j)
      | s :: _ => (s.stamp + 1, s.value.toNat, c1.quality j)
    | none =>
      let p := (assocGet c.red.chans i.index).getD ⟨[], 3⟩
      let q := if c.partnerBad then 2 else p.quality
      match p.samples.find? fun s => decide (c.cyc.startAt ≤ s.1 ∧ s.1 < b) with
      | none => (0, 0, if q = 2 then 2 else 3)
      | some (t, w) => (t + 1, w.toNat, q)

/-- The mark and age of a source after a boundary; fresh where the mark is new (R243, R244). -/
def nextSeen (old : Option (Nat × Nat)) (mark : Nat) : Bool × Nat × Nat :=
  let (m, age) := old.getD (0, 0)
  if mark ≠ 0 ∧ mark ≠ m then (true, mark, 0) else (false, m, if age < 255 then age + 1 else 255)

/-- The input items of a map, one after another: the bank and the marks they leave. -/
def Chip.freezeItems (c : Chip) (k n b : Nat) (seen : List (Nat × Nat × Nat)) :
    List MapItem → List (Nat × Byte) → List (Nat × Byte) × List (Nat × Nat × Nat)
  | [], m => (m, [])
  | i :: is, m =>
    let (mark, v, q) := c.sourceAt k i b
    let (fresh, mark2, age) := nextSeen (assocGet seen i.source) mark
    let word := fun q => b2n fresh + q * 2 + age * 256
    let m1 := match i.kind with
      | 0 => if mark = 0 then m else putItem m n i v
      | 1 => putItem m n i (word q)
      | 6 => putItem m n i (word (if mark2 = 0 then 3 else if i.srcoff < age then 2 else 0))
      | _ => m
    let (m2, rest) := c.freezeItems k n b seen is m1
    (m2, assocSet rest i.source (mark2, age))

/-- Freezes and flips the input pages of a task (R240). -/
def State.freezeInputs (s : State) (k b : Nat) : State :=
  let n := s.tCore k
  let seen := match s.chip.run k with
    | some r => r.seen
    | none => []
  let (m, seen') := s.chip.freezeItems k n b seen ((s.tMap k).filter MapItem.isInput) s.chip.img.inB
  let pages := s.tInPages k
  s.onChip fun c => ({ c with img := { c.img with inB := m, inF := copyPages m c.img.inF n pages } }).onRun k fun r =>
    { r with seen := seen' }

/-- The distributed inputs of a standby's cycle, by index in the map (R660). -/
def State.pairedInputs (s : State) (k : Nat) (f : PairedCycle) : State :=
  let n := s.tCore k
  let put := fun (m : List (Nat × Byte)) (p : Nat × Word) => match (s.tMap k)[p.1]? with
    | some i => if i.isInput then putItem m n i p.2.toNat else m
    | none => m
  s.onChip fun c => { c with img := { c.img with inF := f.items.foldl put c.img.inF } }

/-- Flips the output pages: the back bank takes what the task stored, the front bank keeps it (R240). -/
def State.flipOutputs (s : State) (k : Nat) : State :=
  s.onChip fun c => { c with img := { c.img with outB := copyPages c.img.outF c.img.outB (s.tCore k) (s.tOutPages k) } }

/-! ## Draining (R42, R240, R245, R248, R297, R652) -/

/-- Puts the `bits` low bits of a value into a frame at an offset in bits, or in bytes for more than one bit (R241). -/
def putFrame (bs : List Byte) (i : MapItem) (v : Nat) : List Byte :=
  let o := if i.width = 0 then i.srcoff / 8 else i.srcoff
  let n := if i.width = 0 then 1 else i.bits / 8
  let bs := bs ++ List.replicate (o + n - bs.length) 0#8
  if i.width = 0 then bs.set o (withBit (bs.getD o 0#8) (i.srcoff % 8) (v % 2 == 1))
  else bs.take o ++ toBytes n v ++ bs.drop (o + n)

/-- The instant from which a drain at boundary b is sent: 2 µs later, or at the end of this unit's crossfade (R239,
R675). -/
def Chip.drainAt (c : Chip) (b : Nat) : Nat :=
  match c.red.xAt with
  | some x => if c.red.taking && decide (b + 2000 < x + 200000) then x + 200000 else b + 2000
  | none => b + 2000

/-- Drains one output item to its channel or stage (R240). -/
def Chip.drainItem (c : Chip) (b v : Nat) (i : MapItem) : Chip :=
  let w := BitVec.ofNat 32 v
  match i.kind with
  | 2 => match c.localChan i.index with
    | some j => (c.writeOutput j w (c.drainAt b) none).2
    | none => if c.red.lost then c else c.through [36 + i.index % 512 / 64] fun c => c.send 6 (toBytes 1 2 ++ toBytes 2 i.index ++ toBytes 4 v)
  | 3 => c.imageSetpoint i.index w
  | _ => c

/-- Drains the items of a map. -/
def Chip.drainItems (c : Chip) (n b : Nat) : List MapItem → Chip
  | [] => c
  | i :: is => (c.drainItem b (getItem c.img.outB n i) i).drainItems n b is

/-- The message of one remote module: its items of the map in its frame (R248, log entry 46). -/
def outMessage (m : List (Nat × Byte)) (n remote : Nat) (items : List MapItem) : List Byte :=
  (items.filter fun i => i.kind == 5 && i.remote == remote).foldl (fun bs i => putFrame bs i (getItem m n i)) []

/-- Builds a message for each remote module of a map; a newer one replaces an unsent one, which is counted (R248). -/
def Chip.buildMessages (c : Chip) (n : Nat) (items : List MapItem) : Chip :=
  let remotes := ((items.filter fun i => i.kind == 5).map MapItem.remote).eraseDups
  c.onChans (fun r c => c.onCyc fun y =>
    let m := outMessage c.img.outB n r items
    { y with
      replaced := if (assocGet y.unsent r).isSome then assocSet y.replaced r ((assocGet y.replaced r).getD 0 + 1) else y.replaced
      unsent := assocSet y.unsent r (n, m), built := assocSet y.built r m }) remotes

/-- The drain of a task's output items (R240). A standby drives no output and sends nothing over the fabric: of its own drains only the set-points pass, to
its loop engine (R41, R80, R647). -/
def State.drainOutputs (s : State) (k b : Nat) : State :=
  let n := s.tCore k
  let items := (s.tMap k).filter fun i => !i.isInput
  s.onChip fun c =>
    if c.mode = 6 then (if c.topo % 2 = 1 then c else c.drainItems n b (items.filter fun i => i.kind == 3))
    else ((c.drainItems n b items).buildMessages n items).sendUnsent

/-! ## Starting (R232, R257 to R260) -/

/-- The value an output item's target holds (R259). -/
def Chip.heldValue (c : Chip) (i : MapItem) : Nat :=
  match i.kind with
  | 2 => match c.localChan i.index with
    | some j => (c.chan j).holds.toNat
    | none => match ((assocGet c.red.chans i.index).getD ⟨[], 3⟩).samples with
      | [] => 0
      | s :: _ => s.2.toNat
  | 3 =>
    let m := (c.recWord i.index 18).toInt
    (binary32.round 0 (decide (m < 0)) m.natAbs (signed 8 (bitsOf (c.recWord i.index 0).toNat 15 8) - 31) false).bits
  | _ =>
    let bs := (assocGet c.cyc.built i.remote).getD []
    if i.width = 0 then b2n ((bs.getD (i.srcoff / 8) 0#8).getLsbD (i.srcoff % 8)) else bytesAt bs i.srcoff (i.bits / 8)

/-- Loads both banks of a task's items: outputs from what their targets hold, inputs 0 with QUALITY 3 (R259, R260). -/
def State.presetImages (s : State) (k : Nat) : State :=
  let n := s.tCore k
  s.onChip fun c => (s.tMap k).foldl (fun c i =>
    if i.isInput then
      let v := if i.kind = 1 ∨ i.kind = 6 then 6 else 0
      { c with img := { c.img with inF := putItem c.img.inF n i v, inB := putItem c.img.inB n i v } }
    else
      let v := c.heldValue i
      { c with img := { c.img with outF := putItem c.img.outF n i v, outB := putItem c.img.outB n i v } }) c

/-- Copies the initial-value image of a task over its instance data (R258). -/
def State.coldCopy (s : State) (k : Nat) : State :=
  { s with mem := memPut s.mem ((s.taskRegion k 0x50).pbase * 64) (memBytes s.mem (s.tInitLen k) (s.tInitAddr k)) }

/-- Stops and clears every slot of a task's timer window (R256). -/
def State.clearWindow (s : State) (k : Nat) : State :=
  let lo := bitsOf (s.tTmr k) 10 0
  let n := bitsOf (s.tTmr k) 27 16
  match (List.range 8).map (Fin.ofNat 8) |>.find? fun x => x.val == s.tCore k with
  | none => s
  | some x => s.onCore x fun c => { c with timers := c.timers.filter fun p => !decide (lo ≤ p.1 ∧ p.1 < lo + n) }

/-- The channel with the triggers of a task's boundaries added. -/
def Chan.addTriggers (x : Chan) (k b0 p lo hi : Nat) : Chan :=
  let more := (arrivalsIn x b0 p lo hi).filter fun a => decide (x.readyAt ≤ a)
  if eSource x.entry = 1 ∧ eTask x.entry = k ∧ eActive x.entry ≠ 0 then { x with arrivals := x.arrivals ++ more } else x

/-- Schedules the triggers of a task's channels whose windows start in [lo, hi). -/
def State.taskTriggers (s : State) (k b0 lo hi : Nat) : State :=
  let p := s.tPeriod k * 1000
  s.onChip fun c => { c with chans := c.chans.map fun q => (q.1, q.2.addTriggers k b0 p lo hi) }

/-- One task at a start (R256 to R260). -/
def State.startTask (s : State) (e : Nat) (cold : Bool) (k : Nat) : State :=
  let b0 := e + s.tPhase k * 1000
  let s1 := if cold then s.coldCopy k else s
  let s2 := (s1.clearWindow k).presetImages k
  let s3 := s2.onChip fun c => (c.setCounter (MG_TASKCYC_LO k) 0).onCyc fun y => { y with
    tasks := assocSet y.tasks k ⟨0, b0, b0, 0, 0, none, false, s1.tPeriod k * 1000, none, []⟩ }
  s3.taskTriggers k b0 s.chip.mono b0

/-- The epoch of a transition that completes now (R232). -/
def Chip.nextEpoch (c : Chip) : Nat := (c.mono + 1000000 + 999999) / 1000000 * 1000000

/-- A start (R232, R257): every enabled task; COLD is cleared, also by the warm start after a core reset, where R262 says warm whatever COLD reads (log
entry 106). -/
def State.startTasks (s : State) : State :=
  let e := s.chip.nextEpoch
  let cold := s.chip.flag MG_CYCCTL_COLD && !s.chip.ctl.warm
  let ks := s.chip.enabledTasks
  let s1 := s.onChip fun c =>
    let c1 := ((c.setFlag MG_CYCCTL_COLD false).onCtl fun x => { x with warm := false }).onCyc fun y =>
      { y with epoch := some e, tasks := [], ready := [], cur := [], rx := [], startAt := c.mono }
    c1.onChans (fun n c => { (c.setFlag (MG_DISP_STOP n) false) with
      dispatchIrq := if c.flag (MG_DISP_STOP n) then addOnce c.dispatchIrq n else c.dispatchIrq }) (List.range 8)
  (s1.each (fun k s => s.startTask e cold k) ks).dispatch

/-! ## Boundaries (R37, R232, R233, R267, R271, R272) -/

/-- Releases a task's cycle (R233). -/
def Chip.release (c : Chip) (k : Nat) : Chip :=
  ((c.onRun k fun r => { r with held := false }).onCyc fun y => { y with ready := addOnce y.ready k }).bump (MG_TASKCYC_LO k) 1

/-- The contents of a task's mirror segment (R267). -/
def State.snapshot (s : State) (k : Nat) : Option (List Byte) :=
  if s.noMirror k then none
  else
    let r := s.taskRegion k 0x80
    some (memBytes s.mem r.len (r.pbase * 64))

/-- Moves a task past its boundary b. -/
def State.passBoundary (s : State) (k : Nat) (r : TaskRun) : State :=
  let p := s.tPeriod k * 1000
  let snap := s.snapshot k
  (s.onChip fun c => c.onRun k fun x => { x with num := r.num + 1, next := r.next + p, last := r.next
                                                 ft := c.fabricAt r.next, snap := snap }).taskTriggers k r.next r.next (r.next + p)

/-- The release of cycle `n` with its deadline, or its hold while patch sets are due (R233, R272). -/
def State.releaseOrHold (s : State) (k n b : Nat) : State :=
  let core := s.tCore k
  let wd := s.tWd k * 1000
  let due := s.chip.cyc.patches.any fun p => p.task == k && (p.target == 0 || decide (p.target ≤ n))
  s.onChip fun c =>
    let c1 := c.onRun k fun x => { x with cycle := n, dead := some (b + wd), held := due }
    if due then
      let c2 := c1.onCyc fun y => { y with patches := y.patches.map fun p =>
        if p.task = k ∧ (p.target = 0 ∨ p.target ≤ n) then { p with due := true } else p }
      { c2 with doorbellIrq := addOnce c2.doorbellIrq core, litOpen := addOnce c2.litOpen core }
    else c1.release k

/-- What goes to PL1 after a boundary (R39, R660): its instant and the cycle's number, the frozen input items, the mirror snapshot, and the output items as
drained, four bytes an item; without a mirror segment only a Duplex set sends it. -/
def State.cycleMessage (s : State) (k n b : Nat) (snap : Option (List Byte)) : Option (List Byte) :=
  let core := s.tCore k
  let part := fun (bank : List (Nat × Byte)) (ins : Bool) => (((s.tMap k).filter fun i => i.isInput == ins).map fun i => toBytes 4 (getItem bank core i)).flatten
  if snap.isNone && s.chip.topo % 2 == 0 then none
  else some (toBytes 8 b ++ toBytes 8 n ++ part s.chip.img.inF true ++ snap.getD [] ++ part s.chip.img.outB false)

/-- The boundary of a unit that runs on its own inputs. -/
def State.ownBoundary (s : State) (k : Nat) (r : TaskRun) : State :=
  let b := r.next
  let n := s.chip.counter (MG_TASKCYC_LO k)
  let s1 := s.passBoundary k r
  let s2 := ((s1.freezeInputs k b).flipOutputs k).drainOutputs k b
  let s3 := s2.onChip fun c => (c.setsDueAt k n b).onRun k fun x => { x with snap := s2.cycleMessage k n b x.snap }
  (s3.releaseOrHold k n b).dispatch

/-- The boundary of a standby in a Duplex set (R659 to R661): the active unit's cycle, where all of it has arrived. -/
def State.pairedBoundary (s : State) (k : Nat) (r : TaskRun) (feed : Option PairedCycle) : State :=
  let s1 := ((s.passBoundary k r).flipOutputs k).onChip fun c => c.onRun k fun x => { x with snap := none }
  match feed with
  | none => s1.onChip fun c =>
    ((c.bump MG_MIRSKIP_LO 1).setFlag MG_REDSTAT_MIRLATE true) |> fun c =>
      { c with red := { c.red with matched := assocSet c.red.matched k 0 } }
  | some f =>
    let mir := s.taskRegion k 0x80
    let s2 := if s.noMirror k then s1 else { s1 with mem := memPut s1.mem (mir.pbase * 64) (f.mirror.take mir.len) }
    let n := f.cycle.toNat
    let s3 := (s2.pairedInputs k f).onChip fun c => (c.setCounter (MG_TASKCYC_LO k) n).setsDueAt k n r.next
    (s3.releaseOrHold k n r.next).dispatch

/-- Whether this unit runs the cycles of another one: a standby of a Duplex set that is not taking over (R659, R677). -/
def Chip.pairedStandby (c : Chip) : Bool :=
  c.mode == 6 && c.topo % 2 == 1 && c.fld MG_REDSTAT_ROLE == 2 && !(c.red.xAt.isSome && c.red.taking)

/-- A new active unit loads the old one's last snapshot in a role swap or a handover before power fails (R677). -/
def State.loadSnapshot (s : State) (k : Nat) (feed : Option PairedCycle) : State :=
  match feed with
  | some f =>
    let mir := s.taskRegion k 0x80
    if s.chip.red.xAt.isSome && s.chip.red.taking && s.chip.red.why != 1 && !s.noMirror k then
      { s with mem := memPut s.mem (mir.pbase * 64) (f.mirror.take mir.len) }
    else s
  | none => s

/-- TASK_BOUNDARY (R37, R233, R265): the next boundary of a task, once its instant has come. -/
def State.boundary (s : State) (k : Nat) (feed : Option PairedCycle) : State :=
  match s.chip.run k with
  | none => s
  | some r =>
    if s.chip.mono < r.next then s
    else if r.missed r.next then s.trip k
    else if s.chip.handingOver then s.passBoundary k r
    else if s.chip.pairedStandby then s.pairedBoundary k r feed
    else (s.loadSnapshot k feed).ownBoundary k r

/-! ## Ends of cycles and patches (R237, R272 to R274) -/

/-- TASK_END (R237, R263): a write of MG_TASKEND. -/
def State.taskEnd (s : State) (src : Nat) (v : Word) : State :=
  let k := bitsOf v.toNat 3 0
  let ignored := s.onChip fun c => c.raise 0x1C02 4 0x15 (toBytes 1 k ++ toBytes 1 src)
  match s.chip.run k with
  | none => ignored
  | some r =>
    if 8 ≤ src ∨ mapGet 0 s.chip.cyc.cur src ≠ k + 1 then ignored
    else if r.missed s.chip.mono then s.trip k
    else
      let us := (s.chip.mono - r.last) / 1000 % 2 ^ 24
      (s.onChip fun c =>
        let c1 := (c.onRun k fun x => { x with dead := none }).onCyc fun y => { y with ready := y.ready.filter (· != k) }
        c1.setFlds [(MG_TASKEXEC_US k, us), (MG_TASKMAX_US k, Nat.max us (c1.fld (MG_TASKMAX_US k)))]).dispatch

/-- PATCH_DONE (R273, R274, R658): a write of MG_PATCHDONE. The report stands; the cycle is released only while its task runs and before its deadline, at which
the watchdog trips instead. -/
def State.patchDone (s : State) (src : Nat) (v : Word) : State :=
  let k := bitsOf v.toNat 7 4
  let res := bitsOf v.toNat 3 0
  let core := s.tCore k
  match s.chip.cyc.patches.find? fun p => p.task == k && p.due with
  | none => s
  | some p =>
    if res = 0 ∨ 3 < res ∨ src ≠ core then s
    else
      let s1 := s.onChip fun c =>
        ((c.onCyc fun y => { y with patches := y.patches.erase p }).patchReport p.tag res).countPatches
      match s1.chip.run k with
      | none => s1
      | some r =>
      let s1 := if res = 1 then s1.onChip fun c => c.forwardOut 0 p.tag r.cycle (memBytes s.mem (24 * p.count) p.addr) else s1
      if r.missed s1.chip.mono then s1.trip k
      else if s1.chip.cyc.patches.any fun q => q.task == k && q.due then s1
      else
        let s2 := s1.onChip fun c => c.release k
        let s3 := if (s2.heldTask core).isSome then s2
          else s2.onChip fun c => { c with litOpen := c.litOpen.filter (· != core) }
        s3.dispatch

/-! ## Remote input and the mirror (R39, R246, R247, R268) -/

/-- REMOTE_INPUT_FRAME (R246): the oldest message of the task's ring, as a frame of the module named. -/
def State.remoteFrame (s : State) (k remote : Nat) : State :=
  let ring := s.tRring k
  match s.chip.head? ring, s.chip.run k with
  | some m, some _ =>
    if ring = 0 then s
    else
      let items := (s.tMap k).filter fun i => i.kind == 4 && i.remote == remote
      let val := fun (i : MapItem) => if i.width = 0 then b2n ((m.bytes.getD (i.srcoff / 8) 0#8).getLsbD (i.srcoff % 8))
        else bytesAt m.bytes i.srcoff (i.bits / 8)
      let n := s.tCore k
      let key := k * 0x100000 + remote
      s.onChip fun c =>
        let c1 := c.consume ring
        if m.poisoned then c1
        else
          let c2 := { c1 with img := { c1.img with inB := items.foldl (fun b i => putItem b n i (val i)) c1.img.inB } }
          c2.onCyc fun y => { y with rx := assocSet y.rx key ((assocGet y.rx key).getD 0 + 1) }
  | _, _ => s

/-- MIRROR_STREAM (R39, R268, R660): what the last boundary left for PL1 goes there. -/
def Chip.mirrorStream (c : Chip) (k : Nat) : Chip :=
  match (c.run k).bind (·.snap) with
  | none => c
  | some bs => (c.onRun k fun r => { r with snap := none }).send 7 bs

/-! ## Commands -/

/-- TASK_ENABLE (R228): a write of MG_TASKDESC with ENABLE = 1. -/
def execTaskEnable (src : Island) (task : Task) (value : Word) (m : State) : Out :=
  .next (m.whenOn src.val (MG_TASKDESC task.val) fun s => s.taskEnable src.val task.val value)

/-- TASK_DISABLE (R229): a write of MG_TASKDESC with ENABLE = 0. -/
def execTaskDisable (src : Island) (task : Task) (value : Word) (m : State) : Out :=
  .next (m.whenOn src.val (MG_TASKDESC task.val) fun s => s.taskDisable src.val task.val value)

/-- TASK_BOUNDARY (R233). -/
def execTaskBoundary (task : Task) (feed : Option PairedCycle) (m : State) : Out := .next (m.boundary task.val feed)

/-- TASK_END (R237). -/
def execTaskEnd (src : Island) (value : Word) (m : State) : Out :=
  .next (m.whenOn src.val MG_TASKEND fun s => s.taskEnd src.val value)

/-- WATCHDOG_TRIP (R264). -/
def execWatchdogTrip (task : Task) (m : State) : Out := .next (m.watchdog task.val)

/-- REMOTE_INPUT_FRAME (R246). -/
def execRemoteInputFrame (task : Task) (station : BitVec 12) (module : BitVec 8) (m : State) : Out :=
  .next (m.remoteFrame task.val (station.toNat + module.toNat * 4096))

/-- PATCH_REQUEST (R270). -/
def execPatchRequest (src : Island) (value : Word) (m : State) : Out :=
  .next (m.onChip fun c => c.whenOn src.val MG_PATCHREQ fun c => c.patchRequest value)

/-- PATCH_DONE (R273). -/
def execPatchDone (src : Island) (value : Word) (m : State) : Out :=
  .next (m.whenOn src.val MG_PATCHDONE fun s => s.patchDone src.val value)

/-- MIRROR_STREAM (R39). -/
def execMirrorStream (task : Task) (m : State) : Out := .next (m.onChip fun c => c.mirrorStream task.val)

end Sys2Proof.Machine
end

