-- ==== Sys2Proof/Machine/Sha.lean ====
section
/-!
DEFINITION. The hashes of the module over lists of bytes: SHA-256 for TP_CFGHASH and the application hash (R527, R657), SHA-384 for keys and
images (R743, R764). Both are FIPS 180-4's one scheme at two word widths, so they are one definition here; their constants are computed from what
FIPS 180-4 says they are, roots of the first primes.
-/

namespace Sys2Proof.Machine

/-! ## Numbers and bytes -/

/-- The number that bytes spell, most significant first. -/
def ofBytesBE : List Byte → Nat
  | [] => 0
  | b :: bs => b.toNat * 256 ^ bs.length + ofBytesBE bs

/-- The `n` bytes of a number, most significant first. -/
def toBytesBE (n x : Nat) : List Byte := (toBytes n x).reverse

/-! ## Constants as fractions of roots -/

/-- Whether a number below 441 is prime. -/
def smallPrime (p : Nat) : Bool := decide (2 ≤ p) && (List.range 21).all fun d => decide (d < 2 ∨ p < d * d) || p % d != 0

/-- The first `n` primes, for `n` up to 80. -/
def primes (n : Nat) : List Nat := ((List.range 410).filter smallPrime).take n

/-- The largest number whose power does not exceed `x`, its bits found from bit `b - 1` down, above the part found already. -/
def rootBits (power x : Nat) : Nat → Nat → Nat
  | 0, found => found
  | b + 1, found => rootBits power x b (if (found + 2 ^ b) ^ power ≤ x then found + 2 ^ b else found)

/-- The first `w` bits of the fraction of a prime's root: the root is below 8. -/
def rootFraction (w power p : Nat) : Nat := rootBits power (p * 2 ^ (power * w)) (w + 3) 0 % 2 ^ w

/-! ## The scheme -/

/-- A hash of the family: word width, rounds, and the amounts of its mixing functions: three rotations of each working word that is mixed, two
rotations and a shift of each schedule word. -/
structure Sha2 where
  width  : Nat
  rounds : Nat
  mixA   : List Nat
  mixE   : List Nat
  near   : List Nat × Nat
  far    : List Nat × Nat
  deriving DecidableEq, Repr

/-- SHA-256's widths and amounts. -/
def Sha2.narrow : Sha2 := ⟨32, 64, [2, 13, 22], [6, 11, 25], ([7, 18], 3), ([17, 19], 10)⟩

/-- SHA-384's widths and amounts. -/
def Sha2.wide : Sha2 := ⟨64, 80, [28, 34, 39], [14, 18, 41], ([1, 8], 7), ([19, 61], 6)⟩

/-- The exclusive or of a word's rotations to the right, on top of `x0`. -/
def Sha2.turns (k : Sha2) (x0 x : Nat) (amounts : List Nat) : Nat :=
  amounts.foldl (fun acc n => acc ^^^ ((x * (2 ^ k.width + 1)) / 2 ^ n) % 2 ^ k.width) x0

/-- The next word of a schedule that holds its newest word first. -/
def Sha2.nextWord (k : Sha2) (sched : List Nat) : Nat :=
  let back := fun n => sched.getD (n - 1) 0
  (back 16 + k.turns (back 15 / 2 ^ k.near.2) (back 15) k.near.1 + back 7 + k.turns (back 2 / 2 ^ k.far.2) (back 2) k.far.1) % 2 ^ k.width

/-- What a block does to the working words: those that enter at `a`, and those that enter at `e`, newest first. A round adds one to each. -/
def Sha2.round (k : Sha2) (st : List Nat × List Nat) (constant word : Nat) : List Nat × List Nat :=
  let a := fun i => st.1.getD i 0
  let e := fun i => st.2.getD i 0
  let choice := e 2 ^^^ (e 0 &&& (e 1 ^^^ e 2))
  let majority := (a 0 &&& (a 1 ||| a 2)) ||| (a 1 &&& a 2)
  let t := e 3 + k.turns 0 (e 0) k.mixE + choice + constant + word
  ((t + k.turns 0 (a 0) k.mixA + majority) % 2 ^ k.width :: st.1, (a 3 + t) % 2 ^ k.width :: st.2)

/-- The rounds of a block, the schedule growing as they go: each takes the sixteenth newest word of it. -/
def Sha2.run (k : Sha2) (st : List Nat × List Nat) (sched : List Nat) : List Nat → List Nat × List Nat
  | [] => st
  | c :: cs => k.run (k.round st c (sched.getD 15 0)) (k.nextWord sched :: sched) cs

/-- The bytes of a block. -/
def Sha2.blockBytes (k : Sha2) : Nat := 2 * k.width

/-- The words of a block, newest first. -/
def Sha2.wordsOf (k : Sha2) : Nat → List Byte → List Nat → List Nat
  | 0, _, ws => ws
  | n + 1, b, ws => k.wordsOf n (b.drop (k.width / 8)) (ofBytesBE (b.take (k.width / 8)) :: ws)

/-- The hash value after `n` blocks: to each of its eight words the block's working word is added. -/
def Sha2.blocks (k : Sha2) (constants : List Nat) : Nat → List Byte → List Nat → List Nat
  | 0, _, h => h
  | n + 1, m, h =>
    let (as, es) := k.run (h.take 4, h.drop 4) (k.wordsOf 16 m []) constants
    k.blocks constants n (m.drop k.blockBytes) (List.zipWith (fun x y => (x + y) % 2 ^ k.width) h (as.take 4 ++ es.take 4))

/-- The message, a one bit, zeros up to a whole block less the length, and its length in bits. -/
def Sha2.padded (k : Sha2) (m : List Byte) : List Byte :=
  let size := k.blockBytes
  let used := m.length + 1 + size / 8
  m ++ (0x80#8 :: List.replicate ((size - used % size) % size) 0#8) ++ toBytesBE (size / 8) (8 * m.length)

/-- The eight words of the hash value, from initial words made of the square roots of `seeds`. -/
def Sha2.words (k : Sha2) (seeds : List Nat) (m : List Byte) : List Nat :=
  let p := k.padded m
  k.blocks ((primes k.rounds).map (rootFraction k.width 3)) (p.length / k.blockBytes) p (seeds.map (rootFraction k.width 2))

/-- The SHA-256 digest as eight words, the first one leading. -/
def sha256Words (m : List Byte) : List Nat := Sha2.narrow.words (primes 8) m

/-- The SHA-384 digest as 48 bytes: six of the eight words; it starts from the ninth to sixteenth prime. -/
def sha384 (m : List Byte) : List Byte := (((Sha2.wide.words ((primes 16).drop 8) m).take 6).map (toBytesBE 8)).flatten

end Sys2Proof.Machine
end

