-- ==== Sys2Proof/Machine/Trip.lean ====
section
/-!
DEFINITION. The trip matrix: safety lanes, comparators, voters, terms and pairs, latches, proof tests, the sealed switch
and the configuration (R495 to R530).
-/

namespace Sys2Proof.Machine

/-- The bits of a mask below `n`, as a list of numbers. -/
def bitsBelow (m n : Nat) : List Nat := (List.range n).filter m.testBit

/-- A mask from the numbers of a list. -/
def maskOf (l : List Nat) : Nat := l.foldl (fun m i => m ||| 2 ^ i) 0

/-- A bit of an array of 32-bit registers. -/
def Chip.arrBit (c : Chip) (r : Nat → Nat) (i : Nat) : Bool := (c.reg (r (i / 32))).getLsbD (i % 32)

/-- Writes an array of `n` 32-bit registers from a mask. -/
def Chip.setArr (c : Chip) (r : Nat → Nat) (n m : Nat) : Chip :=
  c.onChans (fun j c => c.setReg (r j) (BitVec.ofNat 32 (m / 2 ^ (32 * j)))) (List.range n)

/-- The mask an array of `n` registers holds. -/
def Chip.arrMask (c : Chip) (r : Nat → Nat) (n : Nat) : Nat :=
  (List.range n).foldl (fun m j => m + (c.reg (r j)).toNat * 2 ^ (32 * j)) 0

/-! ## Comparators (R502 to R506) -/

/-- LO and S of a range's threshold codes, in tenths of mA, V, mV or Ω (R502). -/
def cmpScale (r : Nat) : Int × Int :=
  if 0x01 ≤ r ∧ r ≤ 0x04 then (0, 240)
  else if r = 0x08 ∨ r = 0x09 then (-120, 240)
  else if r = 0x0A then (-12, 24)
  else if r = 0x0B ∨ isTc r then (-1200, 2400)
  else if r = 0x10 ∨ (0x12 ≤ r ∧ r ≤ 0x14) then (0, 4800)
  else (0, 48000)

/-- The quantity a threshold code stands for, in 10 × 2^16 parts of 2^-32 of the unit; a code outside 0 to 65,535 saturates (R502, R504). -/
def cmpThreshold (r : Nat) (k : Int) : Int := ((cmpScale r).1 * 65536 + clampInt 0 65535 k * (cmpScale r).2) * 2 ^ 32

/-- The raw state of one comparator for a terminal quantity in 2^-32 of its unit, with its hysteresis (R502 to R504). -/
def cmpRaw (e : List Byte) (high was : Bool) (q : Int) : Bool :=
  let at_ := cmpThreshold (eRange e)
  let x := q * 10 * 65536
  if high then decide (at_ (if was then (eCmpHi e : Int) - eCmpHyst e else eCmpHi e) < x)
  else decide (x < at_ (if was then (eCmpLo e : Int) + eCmpHyst e else eCmpLo e))

/-- A raw state that has held for CMPFILT reaches the safety path (R505). -/
def Chip.passFilter (c : Chip) (e : List Byte) (code : Nat) : Chip :=
  let since := (assocGet c.trip.rawAt code).getD 0
  if since + eCmpFilt e * 1000 ≤ c.mono then
    c.onTrip fun x => { x with reached := setBitN x.reached code (x.raw.testBit code) }
  else c

/-- COMPARATOR_CHANGE (R504, R505); the raw state of a pulsed input comes with its samples (R452). -/
def Chip.comparatorChange (c : Chip) (i : Nat) (input : CmpInput) : Chip :=
  let e := (c.chan i).entry
  if !eEnable e then c
  else match input with
    | .quantity q =>
      if eMode e ≠ 0 ∨ !eCmpEn e then c
      else
        let c1 := c.setRaw (2 * i) (cmpRaw e false (c.trip.raw.testBit (2 * i)) q)
        let c2 := c1.setRaw (2 * i + 1) (cmpRaw e true (c.trip.raw.testBit (2 * i + 1)) q)
        (c2.passFilter e (2 * i)).passFilter e (2 * i + 1)
    | .level b => if !isDi (eMode e) || !eDiEn e then c else ((if eMode e = 2 then c.setRaw (2 * i) b else c).passFilter e (2 * i))

/-- The raw states of a group that have held long enough reach the safety path (R505). -/
def Chip.passGroup (c : Chip) (g : Nat) : Chip :=
  c.onChans (fun i c =>
    let e := (c.chan i).entry
    if !eEnable e then c
    else if eMode e = 0 ∧ eCmpEn e then (c.passFilter e (2 * i)).passFilter e (2 * i + 1)
    else if isDi (eMode e) ∧ eDiEn e then c.passFilter e (2 * i) else c)
    ((c.chans.map Prod.fst).filter fun i => groupOf i == g)

/-- CMP_DISCREPANCY (R506): the two have disagreed, or agreed again, for 100 ms. -/
def Chip.cmpDiscrepancy (c : Chip) (i : Nat) (high present : Bool) (since : Nat) : Chip :=
  let e := (c.chan i).entry
  let was := c.trip.faults.testBit i
  if !(eEnable e && eMode e == 0 && eCmpEn e) || was == present || decide (c.mono < since + 100000000) then c
  else
    let c1 := c.onTrip fun x => { x with faults := setBitN x.faults i present }
    if present then c1.raise 0x1C08 5 (cgIsland (groupOf i)) (toBytes 2 (c.chanBase + i) ++ toBytes 1 (b2n high)) else c1

/-! ## Safety lanes (R495 to R498) -/

/-- The pairs that DO_SAFE channels of a group carry. -/
def Chip.groupPairs (c : Chip) (g : Nat) : Nat :=
  maskOf (((groupChans g).filter fun i => eEnable (c.chan i).entry && eMode (c.chan i).entry == mSafe).map fun i =>
    ePair (c.chan i).entry)

/-- Replaces the bits of a mask that another one selects. -/
def mergeBits (old new sel : Nat) : Nat := (old ^^^ (old &&& sel)) ||| (new &&& sel)

/-- The signal codes of a group. -/
def groupCodes (g : Nat) : Nat := (2 ^ 128 - 1) * 2 ^ (128 * g)

/-- The channels of a group as a mask. -/
def groupMask (g : Nat) : Nat := (2 ^ 64 - 1) * 2 ^ (64 * g)

/-- The UPA or UPB bit of a group. -/
def upBit (g lane : Nat) : Fld := ⟨TP_LANESTAT, 8 * lane + g, 8 * lane + g⟩

/-- An upstream frame (R495, R496, R498): a good one brings the group's states and faults; a bad one breaks the run. -/
def Chip.laneUp (c : Chip) (g lane : Nat) (good : Bool) : Chip :=
  let k := 2 * g + lane
  if !good then (c.onTrip fun x => { x with upFrom := x.upFrom.filter fun p => p.1 != k }).setFlag (upBit g lane) false
  else
    let silent := match assocGet c.trip.upAt k with
      | some t => decide (t + 2000 < c.mono)
      | none => true
    let c1 := (c.passGroup g).onTrip fun x => { x with
      upAt := assocSet x.upAt k c.mono
      upFrom := if silent || (assocGet x.upFrom k).isNone then assocSet x.upFrom k c.mono else x.upFrom
      sig := mergeBits x.sig x.reached (groupCodes g) }
    let c2 := c1.setArr TP_CMPFLT 16 (mergeBits (c1.arrMask TP_CMPFLT 16) c1.trip.faults (groupMask g))
    if c2.trip.failed.contains g then c2 else c2.setFlag (upBit g lane) true

/-- Changes the permits that a field side holds over one lane, and the readback that follows (R496, R497, R472). -/
def Chip.setPermits (c : Chip) (g lane new : Nat) : Chip :=
  let sel := c.groupPairs g
  let c1 := if lane = 0 then { c with permA := mergeBits c.permA new sel } else { c with permB := mergeBits c.permB new sel }
  c1.onChans (fun i c => if eEnable (c.chan i).entry && eMode (c.chan i).entry == mSafe then c.pushReadback i else c) (groupChans g)

/-- A downstream frame (R495, R497): a good one carries the permits of the lane's copy. -/
def Chip.laneDown (c : Chip) (g lane : Nat) (good : Bool) : Chip :=
  if !good then c
  else
    let t := c.trip
    let out := if lane = 0 then t.outA ^^^ (t.outA &&& t.gapA) else t.outB ^^^ (t.outB &&& t.gapB)
    (c.onTrip fun x => { x with downAt := assocSet x.downAt (2 * g + lane) c.mono }).setPermits g lane out

/-- LANE_TIMEOUT_FIELD (R497): no good downstream frame for 2 µs. -/
def Chip.laneTimeout (c : Chip) (g lane : Nat) : Chip :=
  let last := (assocGet c.trip.downAt (2 * g + lane)).getD 0
  if c.mono < last + 2000 then c else c.setPermits g lane 0

/-- TP_STAT.LANEFLT follows the lane-failed groups. -/
def Chip.showLaneFlt (c : Chip) : Chip := c.setFlag TP_STAT_LANEFLT (!c.trip.failed.isEmpty)

/-- Whether lane l of group g has delivered no good frame for 2 µs. -/
def Chip.laneSilent (c : Chip) (g l : Nat) : Bool :=
  match assocGet c.trip.upAt (2 * g + l) with
  | some t => decide (t + 2000 ≤ c.mono)
  | none => decide (2000 ≤ c.mono)

/-- LANE_FAILED (R498): neither lane has delivered a good frame for 2 µs. -/
def Chip.laneFailed (c : Chip) (g : Nat) : Chip :=
  if c.trip.failed.contains g || !(c.laneSilent g 0 && c.laneSilent g 1) then c
  else
    let c1 := c.onTrip fun x => { x with failed := g :: x.failed, upFrom := x.upFrom.filter fun p => p.1 / 2 != g }
    let c2 := (c1.setFlag (upBit g 0) false).setFlag (upBit g 1) false
    (c2.setFlag ⟨TP_LANESTAT, 24 + g, 24 + g⟩ true).showLaneFlt.raise 0x1C06 7 0x09 (toBytes 1 g)

/-- LANE_RECOVER (R498): both lanes have delivered good frames for 10 µs. -/
def Chip.laneRecover (c : Chip) (g : Nat) : Chip :=
  let good := fun l => match assocGet c.trip.upFrom (2 * g + l) with
    | some t => decide (t + 10000 ≤ c.mono) && !c.laneSilent g l
    | none => false
  if c.trip.failed.contains g && good 0 && good 1 then
    (((c.onTrip fun x => { x with failed := x.failed.erase g }).setFlag (upBit g 0) true).setFlag (upBit g 1) true).showLaneFlt
  else c

/-! ## Signals, voters and terms (R507 to R510) -/

/-- A channel signal as TM has it; 0 for a channel that is not bound (R507). -/
def Chip.chanSignal (c : Chip) (code : Nat) : Bool :=
  let e := (c.chan (code / 2)).entry
  let bound := eEnable e && ((eMode e == 0 && eCmpEn e) || (isDi (eMode e) && eDiEn e && code % 2 == 0))
  bound && c.trip.sig.testBit code

/-- A literal is unused. -/
def litUnused (l : Nat) : Bool := l == 0xFFFF

/-- The signal code of a literal. -/
def litCode (l : Nat) : Nat := l % 2048

/-- A literal over the value of its signal (R509). -/
def litVal (l : Nat) (v : Bool) : Bool := if bitAt l 15 then !v else v

/-- A halfword of an array of words. -/
def Chip.half (c : Chip) (r : Nat → Nat) (i : Nat) : Nat := bitsOf (c.reg (r (i / 2))).toNat (16 * (i % 2) + 15) (16 * (i % 2))

/-- A channel or program signal. -/
def Chip.plainSignal (c : Chip) (code : Nat) : Bool :=
  if code < 0x400 then c.chanSignal code
  else if 0x440 ≤ code ∧ code < 0x480 then c.arrBit TP_PROGTRIP (code - 0x440)
  else false

/-- An input of a voter, with FAULTTRIP (R508); an unused one counts as 0 (log entry 53). -/
def Chip.voterIn (c : Chip) (faultTrip : Bool) (l : Nat) : Bool :=
  if litUnused l then false
  else
    let code := litCode l
    let i := code / 2
    let bad := faultTrip && decide (code < 0x400) && (c.arrBit TP_CMPFLT i || c.trip.failed.contains (groupOf i))
    bad || litVal l (c.plainSignal code)

/-- The output of voter v (R508). -/
def Chip.voter (c : Chip) (v : Nat) : Bool :=
  let h := fun i => c.half TP_ACT_VOTER (4 * v + i)
  let x := fun i => c.voterIn (bitAt (h 3) 8) (h i)
  match h 3 % 256 with
  | 1 => decide (2 ≤ b2n (x 0) + b2n (x 1) + b2n (x 2))
  | 2 => x 0 || x 1
  | 3 => x 0 && x 1
  | _ => false

/-- The eight literals of term t. -/
def Chip.termLits (c : Chip) (t : Nat) : List Nat := (List.range 8).map fun i => c.half TP_ACT_TERM (16 * t + i)

/-- A literal of a term. -/
def Chip.termLit (c : Chip) (l : Nat) : Bool :=
  let code := litCode l
  litVal l (if 0x400 ≤ code ∧ code < 0x440 then c.voter (code - 0x400) else c.plainSignal code)

/-- The value of term t (R509); without a valid configuration there are no terms (R529, log entry 53). -/
def Chip.termVal (c : Chip) (t : Nat) : Bool :=
  let used := (c.termLits t).filter fun l => !litUnused l
  c.flag TP_STAT_CFGVALID && !used.isEmpty && used.all c.termLit

/-- The terms that are 1. -/
def Chip.terms (c : Chip) : Nat := maskOf ((List.range 256).filter c.termVal)

/-- The record of output p: MASK, OFLAGS, PROOFH and PROOFW (R510). -/
def Chip.outMask (c : Chip) (p : Nat) : Nat := c.arrMask (fun j => TP_ACT_OUT (12 * p + j)) 8
def Chip.outFlag (c : Chip) (p b : Nat) : Bool := c.flag TP_STAT_CFGVALID && (c.reg (TP_ACT_OUT (12 * p + 8))).getLsbD b
def Chip.outProofH (c : Chip) (p : Nat) : Nat := bitsOf (c.reg (TP_ACT_OUT (12 * p + 8))).toNat 31 16
def Chip.outProofW (c : Chip) (p : Nat) : Nat := bitsOf (c.reg (TP_ACT_OUT (12 * p + 9))).toNat 15 0

/-- Whether a literal reads a signal of group g, itself or through its voter. -/
def Chip.litReads (c : Chip) (g l : Nat) : Bool :=
  let names := fun l => !litUnused l && decide (litCode l < 0x400) && groupOf (litCode l / 2) == g
  let code := litCode l
  names l || (!litUnused l && decide (0x400 ≤ code ∧ code < 0x440) &&
    ([0, 1, 2].any fun i => names (c.half TP_ACT_VOTER (4 * (code - 0x400) + i))))

/-- Whether a pair's terms or voters read any signal of a lane-failed group (R498). -/
def Chip.pairBlind (c : Chip) (p : Nat) : Bool :=
  c.trip.failed.any fun g => (bitsBelow (c.outMask p) 256).any fun t => (c.termLits t).any (c.litReads g)

/-! ## Evaluation (R496, R512 to R521) -/

/-- Latches a pair. -/
def Chip.latchPair (c : Chip) (p : Nat) : Chip := c.setFlag ⟨TP_LATCHED (p / 32), p % 32, p % 32⟩ true

/-- Latches every pair that has LATCH = 1 (R518). -/
def Chip.latchAllPairs (c : Chip) : Chip :=
  c.onChans (fun p c => if c.outFlag p 1 then c.latchPair p else c) (List.range 128)

/-- Records a trip: the event, and the first-out where none is held (R521). -/
def Chip.recordTrip (c : Chip) (terms p : Nat) : Chip :=
  let t := ((bitsBelow (c.outMask p) 256).find? terms.testBit).getD 0xFF
  let c1 := if c.flag TP_FIRSTOUT_VALID then c else
    c.setFlds [(TP_FIRSTOUT_VALID, 1), (TP_FIRSTOUT_PAIR, p), (TP_FIRSTOUT_TERM, t)]
  c1.raise 0x1C0B 7 0x09 (toBytes 1 p ++ toBytes 7 t ++ toBytes 8 c.fabricNow)

/-- Clears the latches named for reset where R517 lets it; a refused one sets RSTREF. -/
def Chip.resetLatches (c : Chip) (tripped : Nat) : Chip :=
  let named := bitsBelow c.trip.rst 128
  let ok := fun p => !tripped.testBit p && !c.arrBit TP_STUCK p
  let c1 := c.onChans (fun p c => if ok p then c.setFlag ⟨TP_LATCHED (p / 32), p % 32, p % 32⟩ false else c) named
  let refused := named.any fun p => !ok p && c.arrBit TP_LATCHED p
  (if refused then c1.setFlag TP_STAT_RSTREF true else c1).onTrip fun x => { x with rst := 0 }

/-- One evaluation of the matrix (R496). -/
def Chip.evaluateMatrix (c : Chip) : Chip :=
  let terms := c.terms
  let ab := c.flag TP_STAT_ABFAULT
  let trips := (List.range 128).filter fun p =>
    c.outFlag p 0 && ((c.outMask p &&& terms) != 0 || c.pairBlind p || ab)
  let tripped := maskOf trips
  let was := c.arrMask TP_TRIPPED 4
  let c1 := (c.setArr TP_TERM 8 terms).setArr TP_TRIPPED 4 tripped
  let c2 := (c1.onChans (fun p c => if c.outFlag p 1 then c.latchPair p else c) trips).resetLatches tripped
  let c3 := c2.onChans (fun p c => c.recordTrip terms p) (trips.filter fun p => !was.testBit p)
  let latched := c3.arrMask TP_LATCHED 4
  let stuck := c3.arrMask TP_STUCK 4
  let out := if ab then 0 else maskOf ((List.range 128).filter fun p =>
    c3.outFlag p 0 && !tripped.testBit p && !latched.testBit p && !stuck.testBit p)
  let lost := maskOf ((List.range 8).foldl (fun l g => if c.trip.failed.contains g then l ++ bitsBelow (c.groupPairs g) 128 else l) [])
  let out := out ^^^ (out &&& lost)
  c3.onTrip fun x => { x with outA := out, outB := out, evalAt := c.mono }

/-- MATRIX_EVALUATION (R496): every 40 ns while TM evaluates. -/
def Chip.matrixEvaluation (c : Chip) : Chip :=
  if !c.flag TP_STAT_EVAL || c.mono / 40 == c.trip.evalAt / 40 && c.trip.evalAt != 0 then c else c.evaluateMatrix

/-- TM stops evaluating and withdraws every permit (R500, R514). -/
def Chip.stopMatrix (c : Chip) : Chip :=
  (c.setFlag TP_STAT_EVAL false).onTrip fun x => { x with outA := 0, outB := 0 }

/-- Evaluation starts at the end of BOOT (R518). -/
def Chip.startMatrix (c : Chip) : Chip :=
  if c.flag TP_STAT_EVAL then c
  else ((c.setFlag TP_STAT_EVAL true).latchAllPairs).onTrip fun x => { x with evalAt := 0 }

/-- AB_FAULT (R499): the copies have disagreed on a pair for 1 µs. -/
def Chip.abFault (c : Chip) (p : Nat) : Chip :=
  if !c.flag TP_STAT_EVAL || c.flag TP_STAT_ABFAULT then c
  else ((c.setFlag TP_STAT_ABFAULT true).onTrip fun x => { x with outA := 0, outB := 0 }).raise 0x1C07 7 0x09 (toBytes 1 p)

/-- TRIPRST (R517): the pairs named are dealt with in the next evaluation. -/
def Chip.tripRst (c : Chip) (v : Word) : Chip :=
  let m := if v.getLsbD 31 then 2 ^ 128 - 1 else 2 ^ bitsOf v.toNat 6 0
  c.onTrip fun x => { x with rst := x.rst ||| m }

/-! ## Switches and proof tests (R519, R520) -/

/-- The DO_SAFE channel of a pair. -/
def Chip.pairChan (c : Chip) (p : Nat) : Option Nat :=
  (c.chans.find? fun q => eEnable q.2.entry && eMode q.2.entry == mSafe && ePair q.2.entry == p).map Prod.fst

/-- The DATA of a switch event. -/
def Chip.switchData (c : Chip) (p : Nat) (low : Bool) (i how : Nat) : List Byte :=
  toBytes 1 p ++ toBytes 1 (b2n low) ++ toBytes 2 (c.chanBase + i) ++ toBytes 1 how

/-- A switch that does not open (R519). -/
def Chip.stuck (c : Chip) (p : Nat) (low : Bool) (i how : Nat) : Chip :=
  ((c.setFlag ⟨TP_STUCK (p / 32), p % 32, p % 32⟩ true).latchPair p).raise 0x1C09 7 0x09 (c.switchData p low i how)

/-- SWITCH_STUCK (R519): closed since `since` with its permit withdrawn. -/
def Chip.switchStuck (c : Chip) (p : Nat) (low : Bool) (since : Nat) : Chip :=
  let given := if low then c.permB.testBit p else c.permA.testBit p
  match c.pairChan p with
  | none => c
  | some i => if given || c.arrBit TP_STUCK p || decide (c.mono < since + 1000000) then c else c.stuck p low i 0

/-- Whether the field side has the command 1 for an output and follows it (R478, R483, R515). -/
def Chip.commanded (c : Chip) (i : Nat) : Bool :=
  ((c.commandFor i).getD 0#32).getLsbD 0 && !c.flag (CG_LINKSTAT_SAFE (groupOf i)) && !c.flag (CG_FPSTAT_MISSING (groupOf i))

/-- SWITCH_NOT_CLOSED (R519): open since `since` with permit and command given. -/
def Chip.switchNotClosed (c : Chip) (p : Nat) (low : Bool) (since : Nat) : Chip :=
  let given := if low then c.permB.testBit p else c.permA.testBit p
  match c.pairChan p with
  | none => c
  | some i =>
    if !given || !c.commanded i || decide (c.mono < since + 1000000) then c
    else c.raise 0x1C0A 5 0x09 ((c.switchData p low i 0).take 4)

/-- Whether a pair's output is energised. -/
def Chip.energised (c : Chip) (p : Nat) : Bool :=
  match c.pairChan p with
  | some i => (c.chan i).term == some 1#32 && c.permitted (c.chan i).entry
  | none => false

/-- PROOF_TEST (R520): copy A withdraws its permit. -/
def Chip.proofTest (c : Chip) (p : Nat) : Chip :=
  let last := (assocGet c.trip.proved p).getD 0
  if !(c.outFlag p 0 && c.outFlag p 2 && c.energised p) || (assocGet c.trip.proofs p).isSome ||
      decide (c.now < last + c.outProofH p * 3600000000000) then c
  else c.onTrip fun x => { x with gapA := setBitN x.gapA p true, proofs := assocSet x.proofs p ⟨0, c.mono⟩ }

/-- PROOF_TEST_STEP (R520): a gap ends with its check, or copy B's gap starts 10 ms later. -/
def Chip.proofStep (c : Chip) (p : Nat) (opened : Bool) : Chip :=
  match assocGet c.trip.proofs p with
  | none => c
  | some x =>
    let wait := if x.step = 1 then 10000000 else c.outProofW p * 1000
    if c.mono < x.at_ + wait then c
    else
      let i := (c.pairChan p).getD 0
      let check := fun (low : Bool) (c : Chip) => if opened then c else c.stuck p low i 1
      match x.step with
      | 0 => check false (c.onTrip fun t => { t with gapA := setBitN t.gapA p false, proofs := assocSet t.proofs p ⟨1, c.mono⟩ })
      | 1 => c.onTrip fun t => { t with gapB := setBitN t.gapB p true, proofs := assocSet t.proofs p ⟨2, c.mono⟩ }
      | _ => check true (c.onTrip fun t => { t with
          gapB := setBitN t.gapB p false, proofs := t.proofs.filter fun q => q.1 != p, proved := assocSet t.proved p c.now })

/-! ## The sealed switch (R522, R523) -/

/-- Position 1 becomes on or off. -/
def Chip.setSw1 (c : Chip) (on : Bool) : Chip :=
  if c.flag TP_SWBANK_SW1 == on then c
  else (c.setFlag TP_SWBANK_SW1 on).raise 0x1C0C 5 0x09 (toBytes 1 (b2n on))

/-- SW1_CHANGE (R522, log entry 54): the contacts of position 1 now are `a` and `b`, positions 2 to 8 are `pos`. -/
def Chip.sw1Change (c : Chip) (a b : Bool) (pos : Nat) : Chip :=
  let c := c.setFld TP_SWBANK_POS pos
  let same := c.flag TP_SWBANK_SW1A == a && c.flag TP_SWBANK_SW1B == b
  let c1 := if same then c
    else ((c.setFlag TP_SWBANK_SW1A a).setFlag TP_SWBANK_SW1B b).onTrip fun x => { x with swAt := c.mono }
  if a != b then
    let c2 := c1.setSw1 false
    if c2.flag TP_SWBANK_SW1FAULT then c2
    else (c2.setFlag TP_SWBANK_SW1FAULT true).raise 0x1D06 5 0x09 (toBytes 1 (b2n a) ++ toBytes 1 (b2n b))
  else if c1.mono < c1.trip.swAt + 20000000 then c1
  else (c1.setSw1 a).setFlag TP_SWBANK_SW1FAULT false

/-! ## Configuration and hash (R511, R524 to R529) -/

/-- A literal that may stand in a term, or in a voter, which names no voter (R507, R511). -/
def litOk (inVoter : Bool) (l : Nat) : Bool :=
  litUnused l || (bitsOf l 14 11 == 0 && decide (litCode l < 0x480) &&
    !(inVoter && decide (0x400 ≤ litCode l ∧ litCode l < 0x440)))

/-- The offset of the first invalid field of term t, from the start of staging. -/
def Chip.badTerm (c : Chip) (t : Nat) : Option Nat :=
  match (List.range 8).find? fun i => !litOk false (c.half TP_STAGE_TERM (16 * t + i)) with
  | some i => some (0x20 * t + 2 * i)
  | none => if c.arrMask (fun j => TP_STAGE_TERM (8 * t + 4 + j)) 4 = 0 then none else some (0x20 * t + 0x10)

/-- The same for voter v. -/
def Chip.badVoter (c : Chip) (v : Nat) : Option Nat :=
  let h := fun i => c.half TP_STAGE_VOTER (4 * v + i)
  let mode := h 3 % 256
  match (List.range 3).find? fun i => !litOk true (h i) || (i == 2 && mode != 1 && !litUnused (h 2)) with
  | some i => some (0x2000 + 8 * v + 2 * i)
  | none => if 3 < mode then some (0x2000 + 8 * v + 6) else if 1 < h 3 / 256 then some (0x2000 + 8 * v + 7) else none

/-- The same for output p. -/
def Chip.badOut (c : Chip) (p : Nat) : Option Nat :=
  let w8 := (c.reg (TP_STAGE_OUT (12 * p + 8))).toNat
  let w9 := (c.reg (TP_STAGE_OUT (12 * p + 9))).toNat
  let proof := bitAt w8 2
  let o := 0x3000 + 0x30 * p
  if bitsOf w8 7 3 ≠ 0 then some (o + 0x20)
  else if bitsOf w8 15 8 ≠ 0 then some (o + 0x21)
  else if proof ∧ (w8 / 65536 = 0 ∨ 8760 < w8 / 65536) then some (o + 0x22)
  else if proof ∧ (w9 % 65536 < 50 ∨ 500 < w9 % 65536) then some (o + 0x24)
  else if w9 / 65536 ≠ 0 ∨ (c.reg (TP_STAGE_OUT (12 * p + 10))) ≠ 0#32 ∨ (c.reg (TP_STAGE_OUT (12 * p + 11))) ≠ 0#32 then some (o + 0x26)
  else none

/-- The offset of the first invalid field of the staged configuration (R511). -/
def Chip.badStaged (c : Chip) : Option Nat :=
  ((List.range 256).findSome? c.badTerm).orElse fun _ =>
    ((List.range 64).findSome? c.badVoter).orElse fun _ => (List.range 128).findSome? c.badOut

/-- Copies the words of one part of the configuration. -/
def Chip.copyWords (c : Chip) (src dst : Nat → Nat) (n : Nat) : Chip :=
  c.onChans (fun j c => c.setReg (dst j) (c.reg (src j))) (List.range n)

/-- The words of the active configuration: terms, voters, outputs. -/
def Chip.activeWords (c : Chip) : List Word :=
  ((List.range 2048).map fun j => c.reg (TP_ACT_TERM j)) ++ ((List.range 128).map fun j => c.reg (TP_ACT_VOTER j)) ++
    ((List.range 1536).map fun j => c.reg (TP_ACT_OUT j))

/-- The keys of the active configuration, in the same order. -/
def activeKeys : List Nat :=
  ((List.range 2048).map fun j => TP_ACT_TERM j) ++ ((List.range 128).map fun j => TP_ACT_VOTER j) ++
    ((List.range 1536).map fun j => TP_ACT_OUT j)

/-- What waits to be stored: the safety configuration. -/
def storeSafety : Nat := 1

/-- Asks for a store of the configuration block (R528, R849). -/
def Chip.wantStore (c : Chip) (what : Nat) : Chip := { c with toStore := addOnce c.toStore what }

/-- TP_STAT.STORED: the stored block equals the active configuration (R528). -/
def Chip.showStored (c : Chip) : Chip :=
  c.setFlag TP_STAT_STORED (c.flag TP_STAT_CFGVALID && activeKeys.all fun k => mapGet 0#32 c.cfgBlock k == c.reg k)

/-- The result of a commit: code and BADOFF (R524, MG's order as log entry 55 says). -/
def Chip.commitResult (c : Chip) : Nat × Nat :=
  if !c.flag TP_SWBANK_SW1 then (2, 0xFFF)
  else if c.mode ≠ 2 ∧ c.mode ≠ 3 ∧ c.mode ≠ 7 then (3, 0xFFF)
  else if c.flag TP_STAT_HASHBUSY then (4, 0xFFF)
  else match c.badStaged with
    | some o => (1, o / 8)
    | none => (0, 0xFFF)

/-- TP_CFGCOMMIT (R518, R524, R525, R528). -/
def Chip.cfgCommit (c : Chip) (v : Word) : Chip :=
  if !v.getLsbD 31 then c
  else
    let (res, off) := c.commitResult
    let c1 := c.setFlds [(TP_CFGSTAT_VALID, 1), (TP_CFGSTAT_TAG, bitsOf v.toNat 23 16), (TP_CFGSTAT_BADOFF, off), (TP_CFGSTAT_RESULT, res)]
    if res ≠ 0 then c1
    else
      let c2 := ((c1.copyWords TP_STAGE_TERM TP_ACT_TERM 2048).copyWords TP_STAGE_VOTER TP_ACT_VOTER 128).copyWords TP_STAGE_OUT TP_ACT_OUT 1536
      let c3 := (c2.setFlag TP_STAT_CFGVALID true).latchAllPairs
      ((c3.startHash.wantStore storeSafety).showStored).onTrip fun x => { x with gapA := 0, gapB := 0, proofs := [] }

/-- The bytes that the configuration hash covers (R525). -/
def Chip.hashInput (c : Chip) : List Byte :=
  (c.activeWords.map fun w => toBytes 4 w.toNat).flatten ++ ((List.range 512).map fun i =>
    let e := (c.chan i).entry
    toBytes 1 (eMode e) ++ toBytes 1 (eRange e) ++ toBytes 2 0 ++ toBytes 16 (eF e 0x60 16)).flatten

/-- MATCH follows the hash and the reference; a change is recorded (R527). -/
def Chip.updateMatch (c : Chip) : Chip :=
  let same := (List.range 8).all fun j => c.reg (TP_CFGHASH j) == c.reg (TP_HASHREF j)
  if c.flag TP_STAT_MATCH == same then c
  else (c.setFlag TP_STAT_MATCH same).raise 0x1C0D 5 0x09 (toBytes 4 (b2n same) ++ toBytes 4 (c.reg (TP_CFGHASH 0)).toNat)

/-- Writes words to registers `r j`, `r (j + 1)` and so on. -/
def Chip.setWords (c : Chip) (r : Nat → Nat) (j : Nat) : List Nat → Chip
  | [] => c
  | w :: ws => (c.setReg (r j) (BitVec.ofNat 32 w)).setWords r (j + 1) ws

/-- HASH_COMPLETE (R525 to R527). -/
def Chip.hashComplete (c : Chip) : Chip :=
  if !c.flag TP_STAT_HASHBUSY then c
  else ((c.setWords TP_CFGHASH 0 (sha256Words c.hashInput)).setFlag TP_STAT_HASHBUSY false).updateMatch

/-- HASHREF_WRITE (R523, R527, R528). -/
def Chip.hashrefWrite (c : Chip) (src j : Nat) (v : Word) : Chip :=
  if !c.flag TP_SWBANK_SW1 then c.rwlIgnored src (TP_HASHREF j)
  else ((c.setReg (TP_HASHREF j) v).updateMatch).wantStore storeSafety

/-! ## Commands -/

/-- SAFETY_LANE_FRAME (R495). -/
def execSafetyLaneFrame (group : Group) (lane : Fin 2) (up good : Bool) (m : State) : Out :=
  .next (m.onChip fun c => if up then c.laneUp group.val lane.val good else c.laneDown group.val lane.val good)

/-- MATRIX_EVALUATION (R496). -/
def execMatrixEvaluation (m : State) : Out := .next (m.onChip fun c => c.matrixEvaluation)

/-- LANE_TIMEOUT_FIELD (R497). -/
def execLaneTimeoutField (group : Group) (lane : Fin 2) (m : State) : Out :=
  .next (m.onChip fun c => c.laneTimeout group.val lane.val)

/-- LANE_FAILED (R498). -/
def execLaneFailed (group : Group) (m : State) : Out := .next (m.onChip fun c => c.laneFailed group.val)

/-- LANE_RECOVER (R498). -/
def execLaneRecover (group : Group) (m : State) : Out := .next (m.onChip fun c => c.laneRecover group.val)

/-- AB_FAULT (R499). -/
def execAbFault (pair : Pair) (m : State) : Out := .next (m.onChip fun c => c.abFault pair.val)

/-- COMPARATOR_CHANGE (R505). -/
def execComparatorChange (chan : Chan512) (input : CmpInput) (m : State) : Out :=
  .next (m.onChip fun c => c.comparatorChange chan.val input)

/-- CMP_DISCREPANCY (R506). -/
def execCmpDiscrepancy (chan : Chan512) (high present : Bool) (since : Nat) (m : State) : Out :=
  .next (m.onChip fun c => c.cmpDiscrepancy chan.val high present since)

/-- PROGTRIP_WRITE (R512). -/
def execProgtripWrite (src : Island) (index : Fin 2) (value : Word) (m : State) : Out :=
  .next (m.onChip fun c => c.whenOn src.val (TP_PROGTRIP 0) fun c => c.setReg (TP_PROGTRIP index.val) value)

/-- TRIPRST (R517). -/
def execTriprst (src : Island) (value : Word) (m : State) : Out :=
  .next (m.onChip fun c => c.whenOn src.val TP_TRIPRST fun c => c.tripRst value)

/-- SWITCH_STUCK (R519). -/
def execSwitchStuck (pair : Pair) (low : Bool) (since : Nat) (m : State) : Out :=
  .next (m.onChip fun c => c.switchStuck pair.val low since)

/-- SWITCH_NOT_CLOSED (R519). -/
def execSwitchNotClosed (pair : Pair) (low : Bool) (since : Nat) (m : State) : Out :=
  .next (m.onChip fun c => c.switchNotClosed pair.val low since)

/-- PROOF_TEST (R520). -/
def execProofTest (pair : Pair) (m : State) : Out := .next (m.onChip fun c => c.proofTest pair.val)

/-- PROOF_TEST_STEP (R520). -/
def execProofTestStep (pair : Pair) (opened : Bool) (m : State) : Out := .next (m.onChip fun c => c.proofStep pair.val opened)

/-- SW1_CHANGE (R522). -/
def execSw1Change (a b : Bool) (positions : BitVec 7) (m : State) : Out :=
  .next (m.onChip fun c => c.sw1Change a b positions.toNat)

/-- TP_CFGCOMMIT (R524). -/
def execTpCfgcommit (src : Island) (value : Word) (m : State) : Out :=
  .next (m.onChip fun c => c.whenOn src.val TP_CFGCOMMIT fun c => c.cfgCommit value)

/-- HASH_COMPLETE (R525). -/
def execHashComplete (m : State) : Out := .next (m.onChip fun c => c.hashComplete)

/-- HASHREF_WRITE (R528). -/
def execHashrefWrite (src : Island) (index : Fin 8) (value : Word) (m : State) : Out :=
  .next (m.onChip fun c => c.whenOn src.val (TP_HASHREF 0) fun c => c.hashrefWrite src.val index.val value)

end Sys2Proof.Machine
end

