-- ==== Sys2Proof/Machine/Fabric.lean ====
section
/-!
DEFINITION. The Apnum fabric: ports and link replay, the JOIN exchange and membership, routing, transactions, replay
windows, exports and the cores' fabric window (R533 to R580, R643 to R647).
-/

namespace Sys2Proof.Machine

/-! ## The fabric's data -/

/-- Changes FX. -/
def Chip.onFab (c : Chip) (f : Fabric → Fabric) : Chip := { c with fab := f c.fab }

/-- A port of the switch. -/
def Chip.port (c : Chip) (p : Nat) : LinkPort := mapGet LinkPort.down c.fab.ports p

/-- Changes a port. -/
def Chip.onPort (c : Chip) (p : Nat) (f : LinkPort → LinkPort) : Chip :=
  c.onFab fun x => { x with ports := mapSet LinkPort.down x.ports p (f (mapGet LinkPort.down x.ports p)) }

/-- This station's ID in force (R549). -/
def Chip.stationId (c : Chip) : Nat := c.effFld FX_STATION_ID

/-- This module's number within its station (R537). -/
def Chip.ownMod (c : Chip) : Nat := c.fld FX_STATION_POS - 1

/-- This module's serial number. -/
def Chip.serial (c : Chip) : Nat := (c.reg MG_SERIAL_LO).toNat + (c.reg MG_SERIAL_HI).toNat * 2 ^ 32

/-- The redundancy role its JOINs carry: 3 for a unit of a set that is neither active nor standby (R551, R643). -/
def Chip.joinRole (c : Chip) : Nat :=
  if c.topo % 2 = 0 then 0 else match c.fld MG_REDSTAT_ROLE with
    | 1 => 1
    | 2 => 2
    | _ => 3

/-- Whether the module may send more than JOINs (R549, R555). -/
def Chip.fabricOpen (c : Chip) : Bool := c.stationId != 0 && !c.flag FX_STAT_IDCONFLICT

/-- Whether a port carries a type of packet: it is up, and a port that carries JOINs only takes nothing else (R536, R549). -/
def Chip.carries (c : Chip) (kind p : Nat) : Bool := c.flag (FX_PORTSTAT_UP p) && (kind == 4 || !c.flag (FX_PORTSTAT_JOINONLY p))

/-- The epoch of a station as this module knows it (R537, R550). -/
def Chip.epochOf (c : Chip) (d : Nat) : Nat :=
  if d = c.stationId then c.fld FX_STATION_EPOCH else c.fld (FX_MEMBER_EPOCH (d - 1))

/-- A packet's header and payload (R537). -/
def packetBody (p : Packet) : List Byte :=
  toBytes 1 (p.kind + p.tc * 16) ++ toBytes 1 p.hops ++ toBytes 2 p.dst ++ toBytes 2 p.src ++ toBytes 1 p.dstMod ++
    toBytes 1 p.srcMod ++ toBytes 2 p.dring ++ toBytes 2 p.sring ++ toBytes 4 p.seq ++
    toBytes 2 (p.tag + b2n p.quar * 0x4000 + b2n p.retry * 0x8000) ++ toBytes 1 p.op ++ toBytes 1 p.len ++
    toBytes 2 p.epoch ++ toBytes 2 p.sepoch ++ toBytes 8 p.addr ++ p.payload

/-- A whole packet with its tail: the CRC over header and payload with HOPS 0, and END, GOOD or KILL (R538). -/
def packetBytes (p : Packet) (killed : Bool) : List Byte :=
  packetBody p ++ toBytes 4 (crc32 (packetBody { p with hops := 0 })) ++ toBytes 1 (if killed then 0xA5 else 0x5A) ++ toBytes 3 0

/-- The packet types (R537). -/
def pkRequest : Nat := 1
def pkResponse : Nat := 2
def pkPost : Nat := 3
def pkJoin : Nat := 4
def pkNotice : Nat := 5
def pkTime : Nat := 6

/-- The status codes (R565). -/
def stOk : Nat := 0
def stAccess : Nat := 1
def stObserver : Nat := 2
def stFull : Nat := 3
def stEpoch : Nat := 4
def stStale : Nat := 5
def stNoWindow : Nat := 6
def stPoison : Nat := 7
def stUnreachable : Nat := 8
def stTimeout : Nat := 9

/-! ## Ports and link replay (R535, R545 to R548) -/

/-- Keeps a packet that leaves by a port until it is acknowledged (R545); a NOTICE is never replayed, so it is not kept and takes
no number (R548). -/
def Chip.keep (c : Chip) (p : Nat) (pkt : Packet) : Chip :=
  if pkt.kind = pkNotice then c
  else c.onPort p fun x => { x with sentNum := x.sentNum + 1, unacked := x.unacked ++ [⟨x.sentNum + 1, pkt, false⟩] }

/-- Sends a whole packet on a port. -/
def Chip.sendOn (c : Chip) (p : Nat) (pkt : Packet) : Chip := (c.keep p pkt).send p (packetBytes pkt false)

/-- Begins to pass a packet on from port `p` to port `q` before its tail has come (R540). -/
def Chip.streamOn (c : Chip) (p q : Nat) (pkt : Packet) : Chip :=
  ((c.keep q pkt).send q (packetBody pkt)).onFab fun x => { x with passing := x.passing ++ [(p, q, pkt)] }

/-- The tail of the packet that comes in by port `p` ends its copies: GOOD, or KILL (R541). -/
def Chip.endStreams (c : Chip) (p : Nat) (killed : Bool) : Chip :=
  let mine := c.fab.passing.filter fun x => x.1 == p
  let c1 := mine.foldl (fun c x => (c.send x.2.1 (packetBytes x.2.2 killed)).onPort x.2.1 fun l => { l with
    unacked := l.unacked.map fun u => { u with killed := u.killed || (killed && u.pkt == x.2.2) } }) c
  c1.onFab fun x => { x with passing := x.passing.filter fun y => y.1 != p }

/-- The ports that are up. -/
def Chip.upPorts (c : Chip) : List Nat := (List.range 6).filter fun p => c.flag (FX_PORTSTAT_UP p)

/-- The ports that carry a type of packet. -/
def Chip.portsFor (c : Chip) (kind : Nat) : List Nat := (List.range 6).filter (c.carries kind)

/-- The next hop of a packet, or none (R559). -/
def Chip.nextHop (c : Chip) (pkt : Packet) : Option Nat :=
  if pkt.dst = c.stationId then (if c.carries pkt.kind 4 then some 4 else none)
  else
    let d := pkt.dst - 1
    let usable := fun (v : Fld) (nh : Fld) => c.flag v && decide (c.fld nh < 6) && c.carries pkt.kind (c.fld nh)
    let ok0 := usable (FX_RTE_V0 d) (FX_RTE_NH0 d)
    let ok1 := usable (FX_RTE_V1 d) (FX_RTE_NH1 d)
    match ok0, ok1 with
    | true, true => some (if (pkt.src + pkt.sring) % 2 = 0 then c.fld (FX_RTE_NH0 d) else c.fld (FX_RTE_NH1 d))
    | true, false => some (c.fld (FX_RTE_NH0 d))
    | false, true => some (c.fld (FX_RTE_NH1 d))
    | false, false => none

/-- Whether a packet is for this module (R559, log entry 56). -/
def Chip.forMe (c : Chip) (pkt : Packet) : Bool :=
  pkt.dst == 4095 || (pkt.dst == c.stationId && pkt.dst != 0 && (c.topo < 2 || pkt.dstMod == c.ownMod))

/-- Whether a sender's state lets its RESPONSE, TIME and NOTICE packets in (R554); a module of the own station's does; a module with ID 0
accepts only JOINs (R549). -/
def Chip.accepts (c : Chip) (src : Nat) : Bool :=
  src != 0 && c.stationId != 0 && (src == c.stationId || c.fld (FX_MEMBER_STATE (src - 1)) == 1 || c.fld (FX_MEMBER_STATE (src - 1)) == 2)

/-- A packet this module sends to one station; false where it has no next hop (R559, R561). -/
def Chip.route (c : Chip) (pkt : Packet) : Bool × Chip :=
  match if pkt.dst = 0 then none else c.nextHop pkt with
  | some p => (true, c.sendOn p pkt)
  | none => (false, c.bump FX_NOROUTE_LO 1)

/-- Whether a flooded packet has been seen before (R560); the last 64 of each source ring are kept. -/
def Chip.floodSeen (c : Chip) (pkt : Packet) : Bool × Chip :=
  let t := (pkt.src, pkt.sring + pkt.srcMod * 0x10000 + (if pkt.kind = pkJoin ∨ pkt.kind = pkTime then pkt.kind * 0x1000000 else 0), pkt.seq)
  if c.fab.flooded.contains t then (true, c)
  else
    let mine := (c.fab.flooded.filter fun x => x.1 == t.1 && x.2.1 == t.2.1).take 63
    let rest := c.fab.flooded.filter fun x => !(x.1 == t.1 && x.2.1 == t.2.1)
    (false, c.onFab fun x => { x with flooded := t :: (mine ++ rest) })

/-- Sends a broadcast of this module on every port that carries it; a copy that comes back has been seen (R560). -/
def Chip.flood (c : Chip) (pkt : Packet) : Chip :=
  (c.floodSeen pkt).2.onChans (fun p c => c.sendOn p pkt) (c.portsFor pkt.kind)

/-- A packet of this module with its station's marks (R550, R552, R561, R562). -/
def Chip.ownPacket (c : Chip) (kind tc : Nat) (dst dstMod : Nat) : Packet :=
  { kind := kind, tc := tc, hops := c.fld FX_TMOCFG_HOPLIMIT, dst := dst, src := c.stationId, dstMod := dstMod
    srcMod := c.ownMod, dring := 0, sring := 0, seq := 0, tag := 0, quar := c.flag FX_STAT_QUAR, retry := false, op := 0
    len := 0, epoch := c.epochOf dst, sepoch := c.fld FX_STATION_EPOCH, addr := 0, payload := [] }

/-- NOTICE (R573): later of the present deadline and 20 µs from now, at most 1 s after the first issue. -/
def Chip.notice (c : Chip) (pkt : Packet) : Chip :=
  c.onFab fun x => { x with trans := x.trans.map fun t =>
    if t.tag = pkt.tag ∧ t.pkt.seq = pkt.seq ∧ c.mono < t.deadline then
      { t with deadline := Nat.max t.deadline (Nat.min (c.mono + 20000) (t.issued + 1000000000)) } else t }

/-- Sends a NOTICE for a replayed packet to the station that issued the transaction, which may be this one (R548). -/
def Chip.noticeFor (c : Chip) (pkt : Packet) : Chip :=
  let dest := if pkt.kind = pkRequest then some (pkt.src, pkt.srcMod) else if pkt.kind = pkResponse then some (pkt.dst, pkt.dstMod) else none
  match dest with
  | none => c
  | some (d, m) =>
    let n := { c.ownPacket pkNotice 1 d m with seq := pkt.seq, tag := pkt.tag, sring := pkt.sring }
    if c.forMe n then c.notice n else if c.fabricOpen then (c.route n).2 else c

/-- NACK (R546, R548): the neighbour has everything up to `lastSeq`; the rest is replayed. -/
def Chip.nack (c : Chip) (p lastSeq : Nat) : Chip :=
  let x := c.port p
  let rest := x.unacked.filter fun s => decide (lastSeq < s.num)
  if !c.flag (FX_PORTSTAT_UP p) then c
  else
    let progress := decide (rest.length < x.unacked.length)
    let c1 := c.onPort p fun x => { x with
      unacked := rest
      fails := if progress then 0 else x.fails + 1
      nackAt := if progress || x.nackAt.isNone then some c.mono else x.nackAt }
    rest.foldl (fun c s => (c.send p (packetBytes s.pkt s.killed)).noticeFor s.pkt) c1

/-- LINK_FAILED (R547): eight replays of one packet have failed, or 20 µs have passed since the first negative
acknowledgement; a packet that was coming in has no tail, and its copies end with KILL (R541). -/
def Chip.linkFailed (c : Chip) (p : Nat) : Chip :=
  let x := c.port p
  let late := match x.nackAt with
    | some t => decide (t + 20000 ≤ c.mono)
    | none => false
  if !c.flag (FX_PORTSTAT_UP p) || !(decide (8 ≤ x.fails) || (late && !x.unacked.isEmpty)) then c
  else
    let c1 := ((c.bump FX_LINKDISC_LO x.unacked.length).onPort p fun _ => { LinkPort.down with triedAt := some c.mono }).onFab fun x =>
      { x with passing := x.passing.filter fun y => y.2.1 != p }
    (c1.endStreams p true).setFlds [(FX_PORTSTAT_RFAIL p, 1), (FX_PORTSTAT_UP p, 0), (FX_PORTSTAT_WIDTH p, 0)]

/-- PORT_TRAINED (R535, R536, R549, R551): with the lanes that trained; fewer than two leave the port down. -/
def Chip.portTrained (c : Chip) (p lanes : Nat) : Chip :=
  let soon := match (c.port p).triedAt with
    | some t => decide (c.mono < t + 100000000) && decide (lanes < 2)
    | none => false
  if c.flag (FX_PORTSTAT_UP p) || soon then c
  else if lanes < 2 then c.onPort p fun x => { x with triedAt := some c.mono }
  else
    let c1 := c.setFlds [(FX_PORTSTAT_UP p, 1), (FX_PORTSTAT_WIDTH p, if lanes = 4 then 3 else 2),
      (FX_PORTSTAT_JOINONLY p, b2n (decide (4 ≤ p) || c.stationId == 0))]
    (c1.onPort p fun _ => LinkPort.down).onFab fun x => { x with joinDue := true }

/-! ## JOIN and membership (R549 to R557, R643, R644) -/

/-- The payload of this module's JOIN (R551). -/
def Chip.joinPayload (c : Chip) (port : Nat) : List Byte :=
  toBytes 8 c.serial ++ toBytes 4 (c.reg FX_PLANHASH_LO).toNat ++ toBytes 4 (c.reg FX_PLANHASH_HI).toNat ++
    toBytes 1 (c.fld FX_CLASS_MINOR) ++ toBytes 1 (c.fld FX_CLASS_MAJOR) ++ toBytes 1 (c.fld FX_CLASS_MIRRFMT) ++
    toBytes 1 (c.joinRole + c.fld FX_STATION_POS * 4) ++ toBytes 1 c.tqNow ++
    toBytes 1 (c.fld FX_STAT_QUAR + c.fld FX_STAT_IDCONFLICT * 2 + c.mode * 4) ++ toBytes 2 (c.fld FX_STATION_EPOCH) ++
    toBytes 8 c.fabricNow ++ toBytes 1 port ++ toBytes 31 0

/-- JOIN_SEND (R551): every 10 ms and when a port has trained. -/
def Chip.joinSend (c : Chip) : Chip :=
  let due := c.fab.joinDue || match c.fab.joinAt with
    | some t => decide (t + 10000000 ≤ c.mono)
    | none => true
  if !due then c
  else
    let n := (c.fab.joinNum + 1) % 2 ^ 32
    let c1 := c.onFab fun x => { x with joinNum := n, joinAt := some c.mono, joinDue := false }
    let j := { c1.ownPacket pkJoin 1 4095 0 with seq := n, len := 16 }
    (c1.floodSeen j).2.onChans (fun p c => c.sendOn p { j with payload := c.joinPayload p }) c1.upPorts

/-- A JOIN as it is kept. -/
def joinRec (b : List Byte) (now : Nat) : JoinRec :=
  { at_ := now, serial := bytesAt b 0 8, role := bytesAt b 0x13 1 % 16, mode := bitsOf (bytesAt b 0x15 1) 4 2
    epoch := bytesAt b 0x16 2, hash := bytesAt b 8 8, cls := bytesAt b 0x10 2, mirr := bytesAt b 0x12 1
    quar := bitAt (bytesAt b 0x15 1) 0, lost := bitAt (bytesAt b 0x15 1) 1 }

/-- Whether two JOINs of one station conflict (R555): the same position and role 0 to 2, different SERIAL. -/
def JoinRec.conflicts (a b : JoinRec) : Bool := a.role == b.role && a.role % 4 != 3 && a.serial != b.serial

/-- The JOIN that gives a station's state (R644): one that has not lost a conflict; the active unit's; else the lower
SERIAL's. -/
def decidingJoin (js : List JoinRec) : Option JoinRec :=
  let ok := js.filter fun a => !a.lost && !(js.any fun b => a.conflicts b && decide (b.serial < a.serial))
  let lower := fun (m : Option JoinRec) (a : JoinRec) => match m with
    | some b => if a.serial < b.serial then some a else some b
    | none => some a
  match ok.find? fun a => a.role % 4 == 1 with
  | some a => some a
  | none => match ok with
    | [] => js.head?
    | _ => ok.foldl lower none

/-- The own plan hash. -/
def Chip.planHash (c : Chip) : Nat := (c.reg FX_PLANHASH_LO).toNat + (c.reg FX_PLANHASH_HI).toNat * 2 ^ 32

/-- The state a JOIN gives its station (R553). -/
def Chip.memberState (c : Chip) (js : List JoinRec) (j : JoinRec) : Nat :=
  if j.lost || (js.any fun b => j.conflicts b && decide (b.serial < j.serial)) then 3
  else if j.mode ≤ 1 ∨ j.hash ≠ c.planHash ∨ j.cls / 256 ≠ c.fld FX_CLASS_MAJOR then 2
  else 1

/-- Shows a station's state in FX_MEMBERd (R553). -/
def Chip.showMember (c : Chip) (d : Nat) : Chip :=
  let js := (assocGet c.fab.joins d).getD []
  match decidingJoin js with
  | none => c.setFld (FX_MEMBER_STATE (d - 1)) 0
  | some j =>
    let hashDiff := j.hash != c.planHash
    let majDiff := j.cls / 256 != c.fld FX_CLASS_MAJOR
    c.setFlds [(FX_MEMBER_STATE (d - 1), c.memberState js j), (FX_MEMBER_QUAR (d - 1), b2n j.quar),
      (FX_MEMBER_MINORDIFF (d - 1), b2n (!majDiff && j.cls % 256 != c.fld FX_CLASS_MINOR)),
      (FX_MEMBER_HASHDIFF (d - 1), b2n hashDiff), (FX_MEMBER_MAJORDIFF (d - 1), b2n majDiff),
      (FX_MEMBER_MODE (d - 1), j.mode), (FX_MEMBER_ROLE (d - 1), j.role), (FX_MEMBER_EPOCH (d - 1), j.epoch)]

/-- Whether a pair port's neighbour is the one the configuration expects (R536): the partner on PL0, the counterpart on
PL1. -/
def Chip.pairExpected (c : Chip) (p src pos : Nat) : Bool :=
  src == c.stationId && src != 0 &&
    (if p = 4 then decide (2 ≤ c.topo) && pos != c.fld FX_STATION_POS else c.topo % 2 == 1 && pos == c.fld FX_STATION_POS)

/-- What a JOIN from the other end of a port shows (R536, FX_PORTSTAT). -/
def Chip.noteNeighbour (c : Chip) (p src : Nat) (j : JoinRec) : Chip :=
  let pos := j.role / 4
  let only := if p < 4 then c.stationId == 0 else !c.pairExpected p src pos
  let new := decide (4 ≤ p) && only && (c.fld (FX_PORTSTAT_NBR p) != src || !c.flag (FX_PORTSTAT_JOINONLY p) || src == 0)
  let c1 := c.setFlds [(FX_PORTSTAT_NBR p, src), (FX_PORTSTAT_NBRPOS p, pos), (FX_PORTSTAT_JOINONLY p, b2n only)]
  if new then c1.raise 0x1D04 5 0x12 (toBytes 2 p ++ toBytes 2 src ++ toBytes 4 0 ++ toBytes 8 j.serial) else c1

/-- The SERIALs of the counterpart and the partner, as their JOINs show them (R656). -/
def Chip.noteSerials (c : Chip) (j : JoinRec) : Chip :=
  if j.serial = c.serial then c
  else if j.role / 4 = c.fld FX_STATION_POS then { c with red := { c.red with peer := { c.red.peer with serial := some j.serial } } }
  else { c with red := { c.red with partner := { c.red.partner with serial := some j.serial } } }

/-- The one epoch of a set (R645): a standby takes the active unit's; a module that starts takes that of a module of its station which runs on, or,
where both start, that of the lower SERIAL (log entry 117). -/
def Chip.takeEpoch (c : Chip) (j : JoinRec) : Chip :=
  let starts := c.mode == 0 && (j.mode != 0 || decide (j.serial < c.serial))
  let follows := c.topo % 2 == 1 && c.fld MG_REDSTAT_ROLE == 2 && j.role % 4 == 1
  if c.topo != 0 && j.serial != c.serial && (starts || follows) then c.setEpoch j.epoch else c

/-- This module loses its ID to a module of lower SERIAL (R555). -/
def Chip.loseId (c : Chip) (src : Nat) (j : JoinRec) : Chip :=
  let own : JoinRec := { joinRec (c.joinPayload 0) c.mono with serial := c.serial }
  if src = c.stationId ∧ src ≠ 0 ∧ own.conflicts j ∧ j.serial < c.serial ∧ !j.lost ∧ !c.flag FX_STAT_IDCONFLICT then
    (c.setFlag FX_STAT_IDCONFLICT true).raise 0x1D05 6 0x12 (toBytes 8 src ++ toBytes 8 j.serial)
  else c

/-! ## Completing transactions (R564, R565, R575) -/

/-- FX_STAT.INFLIGHT follows the transactions. -/
def Chip.countTrans (c : Chip) : Chip := c.setFld FX_STAT_INFLIGHT c.fab.trans.length

/-- Takes a transaction out of the list and frees its response buffers; `late`: it completed with TIMEOUT. -/
def Chip.endTrans (c : Chip) (t : Transn) (late : Bool) : Chip :=
  let c1 := c.onFab fun x => { x with trans := x.trans.erase t, done := assocSet x.done t.tag (t.pkt.seq, late) }
  ({ c1 with pool := { c1.pool with alloc := c1.pool.alloc.erase (t.rring, t.bufs) } }).countTrans

/-- The response message for a transaction (R564). -/
def Transn.message (t : Transn) (status result : Nat) (data : List Byte) : List Byte :=
  let n := if t.pkt.op = 1 ∧ status = 0 then data.length / 4 else 0
  toBytes 1 status ++ toBytes 1 t.pkt.op ++ toBytes 2 t.pkt.dst ++ toBytes 1 t.tries ++ toBytes 1 n ++ toBytes 2 0 ++
    toBytes 4 t.ctx ++ toBytes 4 t.pkt.seq ++ toBytes 8 result ++ toBytes 8 0 ++ (if n = 0 then [] else data)

/-- The end of a core's window access (R578): a load gets its data, anything but OK is a BUSERR. A store of the core that has failed meanwhile raises its
BUSERR first: the load has had no effect and executes again (R211). -/
def State.endWindow (s : State) (n : Core) (v : Word) (size : Nat) (load : Bool) (status : Nat) (data : List Byte) : State :=
  if load then
    match (s.core n).wait with
    | none => s
    | some w =>
      let s1 := s.onCore n fun c => { c with wait := none }
      match s1.raiseFailed n with
      | some s2 => s2
      | none =>
        if status = stOk then s1.endLoad n v w.size w.dest w.len (.data (bytesAt data (v.toNat % 4) size))
        else s1.exc n excBuserr v
  else if status = stOk then s
  else s.onChip fun c => { c with impErrs := c.impErrs ++ [(n.val, v)] }

/-- Completes a transaction with a status (R564, R575). -/
def State.complete (s : State) (t : Transn) (status result : Nat) (data : List Byte) : State :=
  let s1 := s.onChip fun c => c.endTrans t (status == stTimeout)
  match t.win with
  | some (n, v, size, load) => s1.endWindow (Fin.ofNat 8 n) v size load status data
  | none => s1.onChip fun c =>
    { c with pool := (c.pool.enqueue t.rring ⟨t.message status result data, status == stPoison, 0x12, none⟩).settle }

/-- Completes several transactions with one status. -/
def State.completeAll (s : State) (status : Nat) : List Transn → State
  | [] => s
  | t :: ts => (s.complete t status 0 []).completeAll status ts

/-- A response arrives (R575, R576). -/
def State.response (s : State) (pkt : Packet) : State :=
  match s.chip.fab.trans.find? fun t => t.tag == pkt.tag && t.pkt.seq == pkt.seq with
  | some t =>
    if t.tries = s.chip.fld FX_TMOCFG_RETRIES ∧ t.deadline ≤ s.chip.mono then s.onChip fun c => c.bump FX_LATE_LO 1
    else
      let result := if t.pkt.op = 3 ∨ t.pkt.op = 4 then bytesAt pkt.payload 0 8 else 0
      s.complete t pkt.op result (if t.pkt.op = 1 then pkt.payload else [])
  | none => s.onChip fun c => match assocGet c.fab.done pkt.tag with
    | some (seq, late) =>
      if seq = pkt.seq ∧ !late ∧ !(c.fab.trans.any fun t => t.tag == pkt.tag) then c.bump FX_DUPRSP_LO 1 else c.bump FX_LATE_LO 1
    | none => c.bump FX_LATE_LO 1

/-- A JOIN takes effect (R553, R555, R557). -/
def State.join (s : State) (p : Nat) (direct : Bool) (pkt : Packet) : State :=
  let d := pkt.src
  let j := joinRec pkt.payload s.chip.mono
  let old := s.chip.fld (FX_MEMBER_EPOCH (d - 1))
  let s1 := s.onChip fun c =>
    let c1 := if direct then c.noteNeighbour p d j else c
    let c2 := if d = c.stationId ∧ d ≠ 0 then (c1.noteSerials j).takeEpoch j else c1
    c2.loseId d j
  if d = 0 ∨ d = 4095 then s1
  else
    let s2 := s1.onChip fun c => (c.onFab fun x => { x with
      joins := assocSet x.joins d (j :: ((assocGet x.joins d).getD []).filter fun a => a.serial != j.serial && decide (s.chip.mono < a.at_ + 30000000))
      absent := x.absent.filter fun q => q.1 != d }).showMember d
    if s2.chip.fld (FX_MEMBER_EPOCH (d - 1)) = old then s2
    else
      let s3 := s2.onChip fun c => c.onFab fun x => { x with windows := x.windows.filter fun w => w.src != d }
      s3.completeAll stEpoch (s3.chip.fab.trans.filter fun t => t.pkt.dst == d)

/-- STATION_ABSENT (R553): no JOIN for 30 ms. -/
def Chip.stationAbsent (c : Chip) (d : Nat) : Chip :=
  let js := (assocGet c.fab.joins d).getD []
  if js.isEmpty || (js.any fun j => decide (c.mono < j.at_ + 30000000)) then c
  else (c.onFab fun x => { x with joins := x.joins.filter fun q => q.1 != d, absent := assocSet x.absent d c.mono }).setFld
    (FX_MEMBER_STATE (d - 1)) 0

/-- WINDOW_FREE (R570): its source has been ABSENT for 10 s. -/
def Chip.windowFree (c : Chip) (d : Nat) : Chip :=
  match assocGet c.fab.absent d with
  | some t => if t + 10000000000 ≤ c.mono then c.onFab fun x => { x with windows := x.windows.filter fun w => w.src != d } else c
  | none => c

/-- Sets or clears QUAR in FX_STAT and in the time unit's TQ, whose next mapping carries it (R552, R585). -/
def Chip.showQuar (c : Chip) (q : Bool) : Chip :=
  let c1 := (c.setFlag FX_STAT_QUAR q).setFld ⟨TS_STAT, 3, 3⟩ (b2n q)
  { c1 with time := { c1.time with dirty := true } }

/-- QUAR_CLEAR (R552): the deviation has been within 1 µs for 1 s. -/
def Chip.quarClear (c : Chip) : Chip :=
  match c.fab.within with
  | some t => if t + 1000000000 ≤ c.mono then c.showQuar false else c
  | none => c

/-! ## Executing requests (R554, R562, R566, R569 to R571, R579, R580) -/

/-- The local address of a range of fabric addresses for an operation of a station: READ 0, WRITE 1, atomic 2 (R580). -/
def Chip.exportAt (c : Chip) (addr n perm src : Nat) : Option Nat :=
  (c.fab.exports.find? fun e => decide (e.fbase ≤ addr ∧ addr + n ≤ e.fbase + e.size) && bitAt e.perm perm &&
    decide (e.smin ≤ src ∧ src ≤ e.smax)).map fun e => e.lbase + (addr - e.fbase)

/-- Whether a range holds uncorrectable data: lines of 64 bytes. -/
def Chip.poisoned (c : Chip) (a n : Nat) : Bool := c.badMem.any fun b => decide (a < b * 64 + 64 ∧ b * 64 < a + n)

/-- The result of an operation: status, and the data or old value it returns. -/
abbrev OpResult := Nat × List Byte

/-- READ (R562). -/
def State.opRead (s : State) (pkt : Packet) : OpResult × State :=
  match s.chip.exportAt pkt.addr (4 * pkt.len) 0 pkt.src with
  | none => ((stAccess, []), s)
  | some a => if s.chip.poisoned a (4 * pkt.len) then ((stPoison, []), s) else ((stOk, memBytes s.mem (4 * pkt.len) a), s)

/-- WRITE (R562, R580): the bytes of the payload. -/
def State.opWrite (s : State) (pkt : Packet) : OpResult × State :=
  match s.chip.exportAt pkt.addr pkt.payload.length 1 pkt.src with
  | none => ((stAccess, []), s)
  | some a =>
    if s.chip.locked a pkt.payload.length then ((stAccess, []), s) else ((stOk, []), { s with mem := memPut s.mem a pkt.payload })

/-- FETCHADD and CAS on an aligned 8-byte word, with a payload of `size` bytes (R562, R580). -/
def State.opAtomic (s : State) (pkt : Packet) (size : Nat) (new : Nat → Nat) : OpResult × State :=
  match if pkt.addr % 8 = 0 ∧ pkt.payload.length = size then s.chip.exportAt pkt.addr 8 2 pkt.src else none with
  | none => ((stAccess, []), s)
  | some a =>
    if s.chip.locked a 8 then ((stAccess, []), s)
    else if s.chip.poisoned a 8 then ((stPoison, []), s)
    else
      let old := memRead s.mem 8 a
      ((stOk, toBytes 8 old), { s with mem := memWrite s.mem 8 a (new old % 2 ^ 64) })

/-- FETCHADD (R562). -/
def State.opFetchAdd (s : State) (pkt : Packet) : OpResult × State := s.opAtomic pkt 8 fun old => old + bytesAt pkt.payload 0 8

/-- CAS (R562). -/
def State.opCas (s : State) (pkt : Packet) : OpResult × State :=
  s.opAtomic pkt 16 fun old => if old = bytesAt pkt.payload 0 8 then bytesAt pkt.payload 8 8 else old

/-- Whether FX may put messages of the fabric in a ring (R566). -/
def Chip.fabricRing (c : Chip) (r : Nat) : Bool := let x := c.pool.ring r; x.drop && x.prod == 0x12 && decide (r < 16384)

/-- The producer of a message that came over the fabric: in the ring of management commands (R757) and in LE's receive ring (R331), with the station and
module it came from. -/
def Chip.fabricProducer (c : Chip) (p : Packet) : Nat :=
  if p.dring = 44 ∨ (p.dring ≠ 0 ∧ p.dring = c.fld LE_RSPCFG_RXRING) then 0x12 + 0x100 * p.src + 2 ^ 20 * p.srcMod else 0x12

/-- The stages that the loop engine has enabled with REMOTE_SP (R653). -/
def Chip.remoteStages (c : Chip) : List Nat := c.enabledStages.filter fun s => recRemoteSp (c.stageRec s)

/-- Whether a message is a set-point for a stage that only the other module of this Double Reed station has enabled with REMOTE_SP (R653). -/
def Chip.partnersSetpoint (c : Chip) (p : Packet) : Bool :=
  let s := bytesAt p.payload 2 2
  decide (2 ≤ c.topo) && p.dring != 0 && p.dring == c.fld LE_RSPCFG_RXRING && bytesAt p.payload 0 1 == 1 && c.red.partner.remotes.contains s &&
    !c.remoteStages.contains s && c.carries pkPost 4

/-- Passes a set-point on to the partner, as a POST over PL0 (R653). -/
def Chip.toPartnerModule (c : Chip) (p : Packet) : Chip := c.sendOn 4 { p with kind := pkPost, op := 0, dstMod := 1 - c.ownMod }

/-- RINGPUT (R562, R566, R653). -/
def State.opRingPut (s : State) (pkt : Packet) : OpResult × State :=
  if s.chip.partnersSetpoint pkt then ((stOk, []), s.onChip fun c => c.toPartnerModule pkt)
  else if !s.chip.fabricRing pkt.dring then ((stAccess, []), s)
  else
    let (o, c) := s.chip.offer pkt.dring ⟨pkt.payload, false, s.chip.fabricProducer pkt, none⟩
    ((if o = .published then stOk else stFull, []), { s with chip := c })

/-- POST (R562, R566, R653). -/
def State.opPost (s : State) (pkt : Packet) : OpResult × State :=
  if s.chip.partnersSetpoint pkt then ((stOk, []), s.onChip fun c => c.toPartnerModule pkt)
  else if !s.chip.fabricRing pkt.dring then ((stOk, []), s.onChip fun c => c.bump FX_POSTDISC_LO 1)
  else ((stOk, []), s.onChip fun c => (c.offer pkt.dring ⟨pkt.payload, false, s.chip.fabricProducer pkt, none⟩).2)

/-- A response of this station goes on its way: to itself where it names itself (R559); a module that sends only JOINs sends none
(R549, R555). -/
def State.sendResponse (s : State) (pkt : Packet) : State :=
  if s.chip.forMe pkt then s.response pkt else if s.chip.fabricOpen then s.onChip fun c => (c.route pkt).2 else s

/-- The response packet to a request; the old value of an atomic is its payload (log entry 57). -/
def Chip.responseTo (c : Chip) (pkt : Packet) (r : OpResult) : Packet :=
  { c.ownPacket pkResponse pkt.tc pkt.src pkt.srcMod with
    sring := pkt.sring, seq := pkt.seq, tag := pkt.tag, op := r.1, len := r.2.length / 4, payload := r.2 }

/-- Answers a request; a POST has no answer. -/
def State.answerReq (s : State) (pkt : Packet) (r : OpResult) : State :=
  if pkt.kind = pkPost then s else s.sendResponse (s.chip.responseTo pkt r)

/-- Changes the replay windows. -/
def Chip.putWindow (c : Chip) (w : Window) : Chip :=
  c.onFab fun x => { x with windows := w :: x.windows.filter fun v => !(v.src == w.src && v.mod == w.mod && v.ring == w.ring) }

/-- The windows that there are (FX_SEQSLOTS). -/
def Chip.windowSlots (c : Chip) : Nat := match c.effFld FX_SEQSLOTS_SLOTS with
  | 0 => 32768
  | n => Nat.min n 32768

/-- The links that carry redundancy messages (log entry 52). -/
def linkPl0 : Nat := 6
def linkPl1 : Nat := 7

/-- A replay window as it is passed over PL1 (R678). -/
def windowBytes (w : Window) : List Byte := toBytes 2 w.src ++ toBytes 1 w.mod ++ toBytes 2 w.ring ++ toBytes 4 w.hi

/-- The active unit passes a change of a window to its standby before it sends the response concerned (R678, log entry 117). -/
def Chip.passWindow (c : Chip) (w : Window) : Chip :=
  if c.fld MG_REDSTAT_ROLE == 1 && c.flag MG_REDSTAT_PL1UP then c.send linkPl1 (windowBytes w) else c

/-- Runs an operation and keeps its response in the window with the SEQ seen (R569). -/
def State.runOp (s : State) (pkt : Packet) (w : Window) (hi : Nat) (op : State → OpResult × State) : State :=
  let (r, s1) := op s
  let stored := if pkt.kind = pkPost ∨ pkt.op = 1 then none else some r
  let near := fun (q : Nat) => decide ((hi + 2 ^ 32 - q) % 2 ^ 32 < 64)
  let seen := (pkt.seq, stored) :: (w.seen.filter fun p => near p.1 && p.1 != pkt.seq)
  let w1 := { w with hi := hi, seen := seen }
  (s1.onChip fun c => (c.putWindow w1).passWindow w1).answerReq pkt r

/-- A REQUEST or POST under its source's replay window (R569 to R571). -/
def State.inWindow (s : State) (pkt : Packet) (op : State → OpResult × State) : State :=
  match s.chip.fab.windows.find? fun w => w.src == pkt.src && w.mod == pkt.srcMod && w.ring == pkt.sring with
  | none =>
    if s.chip.windowSlots ≤ s.chip.fab.windows.length then s.answerReq pkt (stNoWindow, [])
    else s.runOp pkt ⟨pkt.src, pkt.srcMod, pkt.sring, pkt.seq, []⟩ pkt.seq op
  | some w =>
    let ahead := (pkt.seq + 2 ^ 32 - w.hi) % 2 ^ 32
    let behind := (w.hi + 2 ^ 32 - pkt.seq) % 2 ^ 32
    if 0 < ahead ∧ ahead < 2 ^ 31 then s.runOp pkt w pkt.seq op
    else if 64 ≤ behind then
      if pkt.kind = pkPost then s.onChip fun c => c.bump FX_DUPREQ_LO 1 else s.answerReq pkt (stStale, [])
    else match w.seen.find? fun p => p.1 == pkt.seq with
      | none => s.runOp pkt w w.hi op
      | some (_, some r) => (s.onChip fun c => c.bump FX_DUPREQ_LO 1).answerReq pkt r
      | some (_, none) =>
        if pkt.kind = pkPost then s.onChip fun c => c.bump FX_DUPREQ_LO 1 else s.runOp pkt w w.hi op

/-- A standby passes a REQUEST or POST for its station on to the active unit over PL1; with PL1 down it is discarded as one without a way (R561, R646). -/
def State.toActive (s : State) (pkt : Packet) : State :=
  if s.chip.flag MG_REDSTAT_PL1UP && s.chip.carries pkt.kind 5 then s.onChip fun c => c.sendOn 5 pkt
  else (s.onChip fun c => c.bump FX_NOROUTE_LO 1).answerReq pkt (stUnreachable, [])

/-- A REQUEST or POST that this module is to execute: admission, epoch, then the window (R554, R557, R571, R646). -/
def State.execReq (s : State) (pkt : Packet) (op : State → OpResult × State) : State :=
  let st := if pkt.src = s.chip.stationId then 1 else s.chip.fld (FX_MEMBER_STATE (pkt.src - 1))
  if s.chip.stationId = 0 then s
  else if s.chip.mode = 6 ∧ s.chip.topo % 2 = 1 ∧ pkt.dst ≠ 4095 then s.toActive pkt
  else if pkt.src = 0 || st = 0 || st = 3 then s
  else if st = 2 ∧ pkt.kind = pkPost then s.onChip fun c => c.bump FX_OBSDISC_LO 1
  else if st = 2 ∧ pkt.op ≠ 1 then s.answerReq pkt (stObserver, [])
  else if pkt.kind = pkRequest ∧ pkt.epoch ≠ s.chip.fld FX_STATION_EPOCH then s.answerReq pkt (stEpoch, [])
  else
    let s1 := if pkt.sepoch = s.chip.epochOf pkt.src then s
      else s.onChip fun c => (c.onFab fun x => { x with windows := x.windows.filter fun w => w.src != pkt.src }).setFld
        (FX_MEMBER_EPOCH (pkt.src - 1)) pkt.sepoch
    s1.inWindow pkt op

/-- A request as its OP says; a reserved one is refused (R562). -/
def State.request (s : State) (pkt : Packet) : State :=
  match pkt.op with
  | 1 => s.execReq pkt fun s => s.opRead pkt
  | 2 => s.execReq pkt fun s => s.opWrite pkt
  | 3 => s.execReq pkt fun s => s.opFetchAdd pkt
  | 4 => s.execReq pkt fun s => s.opCas pkt
  | 5 => s.execReq pkt fun s => s.opRingPut pkt
  | _ => s.execReq pkt fun s => ((stAccess, []), s)

/-- A packet goes out; one that names this module takes effect here (R559, R560). -/
def State.dispatchOut (s : State) (pkt : Packet) : Bool × State :=
  if pkt.dst = 4095 then
    let s1 := s.onChip fun c => c.flood pkt
    (true, s1.execReq pkt fun s => s.opPost pkt)
  else if s.chip.forMe pkt then
    (true, if pkt.kind = pkPost then s.execReq pkt fun s => s.opPost pkt else s.request pkt)
  else
    let (ok, c) := s.chip.route pkt
    (ok, { s with chip := c })

/-! ## Issuing (R560 to R568, R572, R574, R578) -/

/-- The default or given timeout of a request in ns (R563, FX_TMOCFG). -/
def Chip.timeoutNs (c : Chip) (us : Nat) : Nat := (if us = 0 then c.fld FX_TMOCFG_TMO_US else us) * 1000

/-- Whether a request message is refused with ACCESS at its source (R539, R560, R562, R563, R565). -/
def badRequest (b : List Byte) : Bool :=
  let op := bytesAt b 0 1
  let len := bytesAt b 5 1
  let tmo := bytesAt b 0x0C 4
  let body := b.length - 0x20
  let tc := bytesAt b 1 1
  decide (op = 0 ∨ 6 < op) || decide (tc = 0 ∨ 3 < tc) || decide (64 < len) || (op != 6 && bytesAt b 2 2 == 4095) ||
    decide (4095 < bytesAt b 2 2) || (op == 3 && len != 2) || (op == 4 && len != 4) ||
    (op != 1 && decide (body < 4 * len)) || !(tmo == 0 || decide (10 ≤ tmo ∧ tmo ≤ 1000000)) ||
    (decide (op < 5) && bytesAt b 0x18 2 != 0) || (decide (5 ≤ op) && bytesAt b 0x10 8 != 0) || bytesAt b 0x1A 6 != 0

/-- The next SEQ of a source ring (R568). -/
def Chip.nextSeq (c : Chip) (r : Nat) : Nat :=
  let n := ((assocGet c.fab.lastSeq r).getD 0 + 1) % 2 ^ 32
  if n = 0 then 1 else n

/-- Whether a ring has to wait: 32 in flight, no tag, or a SEQ 64 or more above its oldest (R567). -/
def Chip.mustHold (c : Chip) (r : Nat) (posted : Bool) : Bool :=
  let mine := c.fab.trans.filter fun t => t.ring == r
  let n := c.nextSeq r
  (!posted && (decide (32 ≤ mine.length) || decide (4096 ≤ c.fab.trans.length))) ||
    mine.any fun t => decide (64 ≤ (n + 2 ^ 32 - t.pkt.seq) % 2 ^ 32 ∧ (n + 2 ^ 32 - t.pkt.seq) % 2 ^ 32 < 2 ^ 31)

/-- The lowest tag not in use. -/
def Chip.freeTag (c : Chip) : Nat :=
  ((List.range 4096).find? fun t => !(c.fab.trans.any fun x => x.tag == t)).getD 0

/-- Issues one packet of a source ring: its SEQ is taken; a request becomes a transaction (R567, R568, R572). -/
def State.issuePkt (s : State) (r : Nat) (pkt : Packet) (t : Option Transn) : State :=
  let n := s.chip.nextSeq r
  let pkt := { pkt with sring := r, seq := n }
  let s1 := s.onChip fun c => c.onFab fun x => { x with lastSeq := assocSet x.lastSeq r n }
  match t with
  | none => (s1.dispatchOut pkt).2
  | some t =>
    let tag := s1.chip.freeTag
    let pkt := { pkt with tag := tag }
    let t := { t with tag := tag, pkt := pkt }
    let s2 := s1.onChip fun c => (c.onFab fun x => { x with trans := x.trans ++ [t] }).countTrans
    let (ok, s3) := s2.dispatchOut pkt
    if ok then s3 else s3.complete t stUnreachable 0 []

/-- The packet of a request message (R537, R563). -/
def Chip.packetOf (c : Chip) (b : List Byte) : Packet :=
  let op := bytesAt b 0 1
  let len := bytesAt b 5 1
  { c.ownPacket (if op = 6 then pkPost else pkRequest) (bytesAt b 1 1) (bytesAt b 2 2) (bytesAt b 4 1) with
    dring := if 5 ≤ op then bytesAt b 0x18 2 else 0
    op := if op = 6 then 0 else op, len := len, addr := bytesAt b 0x10 8
    payload := if op = 1 then [] else (b.drop 0x20).take (4 * len) }

/-- A request message of a source ring (R563, R566). -/
def State.issueMsg (s : State) (r : Nat) (b : List Byte) : State :=
  let c := s.chip
  let op := bytesAt b 0 1
  let rring := bytesAt b 6 2
  let tmo := c.timeoutNs (bytesAt b 0x0C 4)
  let pkt := c.packetOf b
  let need := Nat.max 1 ((0x20 + (if op = 1 then 4 * bytesAt b 5 1 else 0) + 255) / 256)
  let t : Transn := ⟨0, r, rring, bytesAt b 8 4, c.mono, c.mono + tmo, tmo, 0, pkt, none, need⟩
  if badRequest b then
    let s1 := s.onChip fun c => c.consume r
    if op = 6 then s1
    else s1.onChip fun c => c.publish rring 0x12 ({ t with pkt := { pkt with op := op } }.message stAccess 0 [])
  else if c.mustHold r (op == 6) then s
  else if op = 6 then (s.onChip fun c => c.consume r).issuePkt r pkt none
  else match c.pool.allocate rring need with
    | none => s
    | some p => ((s.onChip fun c => { c with pool := p }).onChip fun c => c.consume r).issuePkt r pkt (some t)

/-- A core's access through its fabric window (R577, R578); a request for station 4095 is refused with ACCESS (R560). -/
def State.issueWindow (s : State) (r : Nat) (m : Msg) (a : Access) : State :=
  let c := s.chip
  let i := 8 * a.src + (a.key - 0xA0000000) / 0x4000000
  let size := a.value.toNat
  let faddr := (c.reg (FX_CWIN_B i)).toNat * 2 ^ 26 + a.key % 0x4000000
  let base := c.ownPacket pkRequest 1 (c.fld (FX_CWIN_A_STATION i)) (c.fld (FX_CWIN_A_MOD i))
  let tmo := c.timeoutNs 0
  let pkt := if a.ack then { base with op := 1, addr := faddr / 4 * 4, len := (faddr % 4 + size + 3) / 4 }
    else { base with op := 2, addr := faddr, len := (size + 3) / 4, payload := m.bytes }
  let t : Transn := ⟨0, r, 0, 0, c.mono, c.mono + tmo, tmo, 0, pkt, some (a.src, BitVec.ofNat 32 a.key, size, a.ack), 0⟩
  if base.dst = 4095 then (s.onChip fun c => c.consume r).endWindow (Fin.ofNat 8 a.src) (BitVec.ofNat 32 a.key) size a.ack stAccess []
  else if c.mustHold r false then s else (s.onChip fun c => c.consume r).issuePkt r pkt (some t)

/-- The POSTs of at most 256 bytes that carry a message to a ring of a station and module (log entry 77). -/
def State.postParts (s : State) (station mod ring : Nat) : Nat → List Byte → State
  | 0, _ => s
  | n + 1, b =>
    let part := b.take 256
    let pkt := { s.chip.ownPacket pkPost 1 station mod with
      dring := ring, len := (part.length + 3) / 4, payload := part ++ List.replicate ((4 - part.length % 4) % 4) 0#8 }
    (s.issuePkt 45 pkt none).postParts station mod ring n (b.drop 256)

/-- The response to a management command goes to REPLYRING at its source (R757). -/
def State.postResponse (s : State) (m : Msg) : State :=
  (s.onChip fun c => c.consume 45).postParts (m.src / 0x100 % 4096) (m.src / 2 ^ 20) (bytesAt m.bytes 0x20 2)
    ((m.bytes.length + 255) / 256) m.bytes

/-- A set-point message or an echo of LE goes to its station and module as a POST for the ring that LE_RSPCFG.RXRING names (R331, R332, log entry 110). -/
def State.issueLe (s : State) (r : Nat) (m : Msg) : State :=
  let pkt := { s.chip.ownPacket pkPost 1 (m.src / 0x100 % 4096) (m.src / 2 ^ 20) with
    dring := s.chip.fld LE_RSPCFG_RXRING, len := m.bytes.length / 4, payload := m.bytes }
  if s.chip.mustHold r true then s else (s.onChip fun c => c.consume r).issuePkt r pkt none

/-- REQUEST_ISSUE (R566): the oldest message of a source ring whose consumer is FX; in STANDBY what a task or the loop engine produced is discarded (R647),
and a core's window access finds no way (log entry 117). -/
def State.requestIssue (s : State) (r : Nat) : State :=
  match s.chip.head? r with
  | none => s
  | some m =>
    if (s.chip.pool.ring r).cons ≠ 0x12 ∨ !s.chip.islandOn 0x12 ∨ (r < 64 ∧ !(6 ≤ r ∧ r < 14) ∧ r ≠ 45) then s
    else if s.chip.mode = 6 ∧ m.src % 0x100 ≤ 8 then
      let s := s.onChip fun c => c.consume r
      match m.acc with
      | some a => s.endWindow (Fin.ofNat 8 a.src) (BitVec.ofNat 32 a.key) a.value.toNat a.ack stUnreachable []
      | none => s
    else if !s.chip.fabricOpen then s
    else if r = 45 then s.postResponse m
    else match m.acc with
      | some a => s.issueWindow r m a
      | none => if m.src % 0x100 = 0x08 ∧ 0x100 ≤ m.src then s.issueLe r m else s.issueMsg r m.bytes

/-- TRANSACTION_DEADLINE (R574): a retry, which may find no way (R561), or TIMEOUT. -/
def State.transDeadline (s : State) (tag : Nat) : State :=
  match s.chip.fab.trans.find? fun t => t.tag == tag with
  | none => s
  | some t =>
    if s.chip.mono < t.deadline then s
    else if t.tries < s.chip.fld FX_TMOCFG_RETRIES then
      let t' := { t with tries := t.tries + 1, deadline := s.chip.mono + t.tmo }
      let s1 := s.onChip fun c => c.onFab fun x => { x with trans := x.trans.map fun y => if y.tag = tag then t' else y }
      let (ok, s2) := s1.dispatchOut { t.pkt with retry := true, quar := s.chip.flag FX_STAT_QUAR }
      if ok then s2 else s2.complete t' stUnreachable 0 []
    else (s.onChip fun c => c.bump FX_TIMEOUT_LO 1).complete t stTimeout 0 []

/-! ## Forwarding (R540 to R543, R556, R560, R561) -/

/-- The copy of a packet that a switch passes on: HOPS is one less, and GMHOPS of an ANNOUNCE one more (R590). -/
def relayedCopy (p : Packet) : Packet :=
  let bs := p.payload
  let ann := p.kind == pkTime && bytesAt bs 0 1 == 1
  { p with hops := p.hops - 1
           payload := if ann then bs.take 0x1E ++ [BitVec.ofNat 8 (Nat.min 255 (bytesAt bs 0x1E 1 + 1))] ++ bs.drop 0x1F else bs }

/-- The types of packet that may be broadcast (R560). -/
def mayFlood (kind : Nat) : Bool := kind == pkPost || kind == pkJoin || kind == pkTime

/-- Forwards a transit packet that came in by port `p` (R556, R560, R561): `slow` takes only hops through a pair port,
which A1 forwards whole (E-A1-04), the other case only the rest. -/
def State.forward (s : State) (p : Nat) (pkt : Packet) (slow : Bool) : State :=
  let viaPair := fun q => decide (4 ≤ p) || decide (4 ≤ q)
  let out := relayedCopy pkt
  let pass := fun (q : Nat) (c : Chip) => if slow then c.sendOn q out else c.streamOn p q out
  if pkt.dst = 4095 then
    if pkt.hops = 0 ∨ !mayFlood pkt.kind then s
    else s.onChip fun c => c.onChans pass ((c.portsFor pkt.kind).filter fun q => q != p && viaPair q == slow)
  else if s.chip.forMe pkt then s
  else match if pkt.dst = 0 ∨ pkt.hops = 0 then none else s.chip.nextHop pkt with
    | some q => if viaPair q == slow then s.onChip (pass q) else s
    | none =>
      if slow then s
      else
        let s1 := s.onChip fun c => c.bump FX_NOROUTE_LO 1
        if pkt.kind = pkRequest then s1.sendResponse (s1.chip.responseTo pkt (stUnreachable, [])) else s1

/-- PACKET_FORWARD (R540): the header has arrived in link order. -/
def State.packetForward (s : State) (p : Nat) (pkt : Packet) (num : Nat) : State :=
  if !s.chip.carries pkt.kind p || (pkt.kind != pkNotice && num != (s.chip.port p).accNum + 1) then s
  else if pkt.dst = 4095 ∧ (s.chip.floodSeen pkt).1 then s
  else s.forward p pkt false

/-- A write of a route register (R558): the entry of a destination 1 to 4,094, in both next hops at once; it is stored. -/
def Chip.routeWrite (c : Chip) (dest : Nat) (v : Word) : Chip :=
  if dest = 0 ∨ dest = 4095 then c
  else (c.setReg (FX_RTE (dest - 1)) (v &&& 0xC0000077#32)).wantStore (FX_RTE (dest - 1))

/-! ## Exports (R579, R580) -/

/-- An entry of the export table. -/
def exportAtAddr (m : List Host.Cell) (a : Nat) : Export :=
  ⟨memRead m 8 a, memRead m 8 (a + 8), memRead m 8 (a + 0x10), memRead m 1 (a + 0x18), memRead m 2 (a + 0x1A), memRead m 2 (a + 0x1C)⟩

/-- The fields of an entry are valid. -/
def Export.ok (e : Export) : Bool :=
  e.fbase % 4096 == 0 && e.size % 4096 == 0 && e.size != 0 && e.lbase % 4096 == 0 && decide (e.perm < 8) &&
    decide (e.smin ≤ e.smax) && inDram e.lbase e.size

/-- No two entries overlap. -/
def exportsDisjoint : List Export → Bool
  | [] => true
  | e :: es => (es.all fun x => !spansMeet e.fbase e.size x.fbase x.size) && exportsDisjoint es

/-- EXPORT_LOAD (R579, R580). -/
def State.exportLoad (s : State) (v : Word) : State :=
  let n := bitsOf v.toNat 4 0
  let s1 := s.onChip fun c => c.setFld FX_EXPCTL_COUNT n
  if !v.getLsbD 31 then s1
  else
    let a := (s.chip.reg FX_EXPADDR).toNat * 64
    let es := (List.range n).map fun i => exportAtAddr s.mem (a + 32 * i)
    let reserved := (List.range n).all fun i => memRead s.mem 1 (a + 32 * i + 0x19) == 0 && memRead s.mem 2 (a + 32 * i + 0x1E) == 0
    if 16 < n || !inDram a (32 * n) || !es.all Export.ok || !reserved || !exportsDisjoint es then
      s1.onChip fun c => c.setFlag FX_EXPCTL_BAD true
    else s1.onChip fun c => (c.setFlag FX_EXPCTL_BAD false).onFab fun x => { x with exports := es }

/-! ## Commands

What FX does by itself waits while its clock stands (R100). -/

/-- PORT_TRAINED (R535). -/
def execPortTrained (port : Port) (lanes : Fin 5) (m : State) : Out :=
  .next (m.onChip fun c => c.clocked 0x12 fun c => c.portTrained port.val lanes.val)

/-- PACKET_FORWARD (R540). -/
def execPacketForward (port : Port) (pkt : Packet) (linkSeq : Nat) (m : State) : Out :=
  .next (m.clocked 0x12 fun s => s.packetForward port.val pkt linkSeq)

/-- NACK (R546). -/
def execNack (port : Port) (lastSeq : Nat) (m : State) : Out :=
  .next (m.onChip fun c => c.clocked 0x12 fun c => c.nack port.val lastSeq)

/-- LINK_FAILED (R547). -/
def execLinkFailed (port : Port) (m : State) : Out := .next (m.onChip fun c => c.clocked 0x12 fun c => c.linkFailed port.val)

/-- JOIN_SEND (R551). -/
def execJoinSend (m : State) : Out := .next (m.onChip fun c => c.clocked 0x12 Chip.joinSend)

/-- JOIN (R553). -/
def execJoin (port : Port) (direct : Bool) (pkt : Packet) (m : State) : Out :=
  .next (m.clocked 0x12 fun s => s.join port.val direct pkt)

/-- STATION_ABSENT (R553). -/
def execStationAbsent (station : Station) (m : State) : Out :=
  .next (m.onChip fun c => c.clocked 0x12 fun c => c.stationAbsent station.val)

/-- QUAR_CLEAR (R552). -/
def execQuarClear (m : State) : Out := .next (m.onChip fun c => c.clocked 0x12 Chip.quarClear)

/-- WINDOW_FREE (R570). -/
def execWindowFree (station : Station) (m : State) : Out :=
  .next (m.onChip fun c => c.clocked 0x12 fun c => c.windowFree station.val)

/-- ROUTE_WRITE (R558): both next hops of a destination at once. -/
def execRouteWrite (src : Island) (dest : Station) (value : Word) (m : State) : Out :=
  .next (m.onChip fun c => c.whenOn src.val (FX_RTE 0) fun c => c.routeWrite dest.val value)

/-- REQUEST_ISSUE (R566); the room it leaves is taken by remote output messages that wait (R248). -/
def execRequestIssue (ring : Fin 16384) (m : State) : Out := .next ((m.requestIssue ring.val).onChip Chip.sendUnsent)

/-- READ (R562). -/
def execRead (pkt : Packet) (m : State) : Out :=
  .next (m.clocked 0x12 fun s => s.execReq { pkt with kind := 1, op := 1 } fun s => s.opRead pkt)

/-- WRITE (R562). -/
def execWrite (pkt : Packet) (m : State) : Out :=
  .next (m.clocked 0x12 fun s => s.execReq { pkt with kind := 1, op := 2 } fun s => s.opWrite pkt)

/-- FETCHADD (R562). -/
def execFetchadd (pkt : Packet) (m : State) : Out :=
  .next (m.clocked 0x12 fun s => s.execReq { pkt with kind := 1, op := 3 } fun s => s.opFetchAdd pkt)

/-- CAS (R562). -/
def execCas (pkt : Packet) (m : State) : Out :=
  .next (m.clocked 0x12 fun s => s.execReq { pkt with kind := 1, op := 4 } fun s => s.opCas pkt)

/-- RINGPUT (R562). -/
def execRingput (pkt : Packet) (m : State) : Out :=
  .next (m.clocked 0x12 fun s => s.execReq { pkt with kind := 1, op := 5 } fun s => s.opRingPut pkt)

/-- POST (R562). -/
def execPost (pkt : Packet) (m : State) : Out :=
  .next (m.clocked 0x12 fun s => s.execReq { pkt with kind := 3 } fun s => s.opPost pkt)

/-- RESPONSE (R554, R575). -/
def execResponse (pkt : Packet) (m : State) : Out := .next (m.clocked 0x12 fun s => if s.chip.accepts pkt.src then s.response pkt else s)

/-- NOTICE (R554, R573). -/
def execNotice (pkt : Packet) (m : State) : Out :=
  .next (m.onChip fun c => c.clocked 0x12 fun c => if c.accepts pkt.src then c.notice pkt else c)

/-- TRANSACTION_DEADLINE (R574). -/
def execTransactionDeadline (tag : Fin 4096) (m : State) : Out := .next (m.clocked 0x12 fun s => s.transDeadline tag.val)

/-- EXPORT_LOAD (R579). -/
def execExportLoad (src : Island) (value : Word) (m : State) : Out :=
  .next (m.whenOn src.val FX_EXPCTL fun s => s.exportLoad value)

end Sys2Proof.Machine
end

