-- ==== Sys2Proof/Machine/Time.lean ====
section
/-!
DEFINITION. Fabric time: mappings, ANNOUNCE, SYNC and path delays, the grandmaster's election, steps, slews and holdover,
schedules, captures, and the Ethernet ports with their IEEE 1588 clock and timed transmission (R581 to R609).
-/

namespace Sys2Proof.Machine

/-! ## The time unit's data -/

/-- Changes the time unit. -/
def Chip.onTime (c : Chip) (f : TimeUnit → TimeUnit) : Chip := { c with time := f c.time }

/-- An Ethernet port. -/
def Chip.eth (c : Chip) (p : Nat) : EthPort := mapGet EthPort.idle c.eths p

/-- Changes an Ethernet port. -/
def Chip.onEth (c : Chip) (p : Nat) (f : EthPort → EthPort) : Chip := { c with eths := mapSet EthPort.idle c.eths p (f (c.eth p)) }

/-- The STATE of TQ: 0 FREE, 1 LOCKED, 2 HOLDOVER. -/
def Chip.tqState (c : Chip) : Nat := c.fld TS_STAT_TQ % 4

/-- Writes the time unit's TQ (R585); a change is published with the next mapping. -/
def Chip.setTq (c : Chip) (st : Nat) (ext : Bool) (err : Nat) (hold : Bool) : Chip :=
  let w := st + b2n ext * 4 + c.fld FX_STAT_QUAR * 8 + err * 16 + b2n hold * 128
  if w = c.fld TS_STAT_TQ then c else (c.setFld TS_STAT_TQ w).onTime fun x => { x with dirty := true }

/-- The newest mapping published, which may not be in force yet. -/
def Chip.lastMap (c : Chip) : Mapping := match c.maps with
  | p :: _ => p
  | [] => ⟨0, 0, 0, 0x70⟩

/-- MAPPING_PUBLISH (R586 to R588): the next mapping starts 100 µs from now, continuous with the one before it except by
the step that waits; it reaches the other planes through system rings 14 to 23 (log entries 59, 60 and 97). -/
def Chip.mappingPublish (c : Chip) : Chip :=
  if !c.time.dirty then c
  else c.through ((List.range 10).map (14 + ·)) fun c =>
    let m := c.mono + 100000
    let ft := (((c.lastMap.at m : Nat) : Int) + c.time.step) % 2 ^ 80
    let p : Mapping := ⟨m, ft.toNat, c.time.rate, c.fld TS_STAT_TQ⟩
    let c1 := { c with maps := p :: c.maps }
    (c1.setReg TS_RATE (BitVec.ofInt 32 p.rate)).onTime fun x => { x with dirty := false, step := 0 }

/-- The monotonic instant at which fabric time reaches an instant under one mapping. -/
def Mapping.monoOf (p : Mapping) (ft : Nat) : Nat :=
  let d : Int := (ft : Int) * 65536 - p.ft
  let k : Int := (2 ^ 40 + p.rate) * 65536
  ((p.mono : Int) + (d * 2 ^ 40 + k - 1) / k).toNat

/-- The monotonic instant of a fabric instant under the mappings, newest first; one that a step passes over falls at the step. -/
def monoOfMaps : List Mapping → Nat → Nat
  | [], ft => (⟨0, 0, 0, 0x70⟩ : Mapping).monoOf ft
  | p :: ps, ft => let m := p.monoOf ft; if p.mono ≤ m then m else Nat.min p.mono (monoOfMaps ps ft)

/-- The monotonic instant of a fabric instant (R586, R599). -/
def Chip.monoOf (c : Chip) (ft : Nat) : Nat := monoOfMaps c.maps ft

/-! ## Following a time source (R592, R598, R600) -/

/-- The mean of the RATE measured over at most `left` ns, newest first: the weighted sum and the time. -/
def meanOf : Nat → List (Nat × Int) → Int × Nat
  | _, [] => (0, 0)
  | left, (d, r) :: l =>
    let d' := Nat.min d left
    let (s, n) := meanOf (left - d') l
    (s + r * d', n + d')

/-- The measured rate: the mean over the last second of LOCKED time (R600, E-A1-06), or the RATE held where none has been. -/
def TimeUnit.measured (t : TimeUnit) : Int :=
  let (s, n) := meanOf 1000000000 t.locked
  if n = 0 then t.rate else s / n

/-- The parts of the last second. -/
def lastSecond : Nat → List (Nat × Int) → List (Nat × Int)
  | _, [] => []
  | left, (d, r) :: l => if left = 0 then [] else (d, r) :: lastSecond (left - d) l

/-- A step of fabric time by `by_` (2^-16 ns): it waits for the next mapping, is counted and recorded (R598). -/
def Chip.stepTime (c : Chip) (by_ : Int) : Chip :=
  let n := (c.fld TS_CTL_STEPS + 1) % 65536
  let c1 := c.onTime fun x => { x with step := x.step + by_, dirty := true }
  (c1.setFlds [(TS_CTL_STEPS, n), (TS_CTL_STEPPED, 1)]).raise 0x1A01 3 0x12 (toBytes 8 (unsigned 64 (by_.tdiv 65536)) ++ toBytes 2 n)

/-- A slew: RATE moves by at most 0.1 ppm per ms and stays within 10 ppm of the measured rate (R598); where it goes
within these limits is a free value (log entry 61). -/
def Chip.slew (c : Chip) : Chip :=
  let (f, c1) := c.free 32
  let most : Int := ((c.mono - c.time.rateAt) * 109951 / 1000000 : Nat)
  let near := clampInt (c.time.rate - most) (c.time.rate + most) (signed 32 f)
  let r := clampInt (c.time.measured - 10995116) (c.time.measured + 10995116) near
  c1.onTime fun x => { x with rate := r, rateAt := c.mono, dirty := true }

/-- The offset of a fabric time seen at a monotonic instant, once all that waits is in force, steps or slews (R598). -/
def Chip.followSource (c : Chip) (m : Nat) (truth : Int) : Chip :=
  let off := ((c.lastMap.at m : Nat) : Int) + c.time.step - truth
  if (c.fld TS_GMCFG_STEPLIM : Int) * 65536000 < off.natAbs then c.stepTime (-off) else c.slew

/-- Shows a deviation in ns and what R552 makes of it. -/
def Chip.showDeviation (c : Chip) (dev : Nat) : Chip :=
  let c1 := c.setReg TS_DEV (BitVec.ofNat 32 (Nat.min dev (2 ^ 32 - 1)))
  if dev ≤ 1000 then c1.onFab fun x => { x with within := some (x.within.getD c.mono) }
  else (c1.onFab fun x => { x with within := none }).showQuar true

/-! ## The grandmaster (R590, R591, R594 to R596) -/

/-- The rank of a candidate: the lower the better (R594). -/
def Heard.rank (h : Heard) : List Nat := [h.cls, h.prio, h.serial]

/-- Lexicographic order. -/
def listLt : List Nat → List Nat → Bool
  | _, [] => false
  | [], _ => true
  | a :: as, b :: bs => decide (a < b) || (a == b && listLt as bs)

/-- Whether some Ethernet port is usable (R602). -/
def Chip.extUsable (c : Chip) : Bool := (List.range 4).any fun p => c.flag (EN_PTPSTAT_USABLE p)

/-- This station's class (R594). -/
def Chip.ownClass (c : Chip) : Nat := if c.extUsable then 0 else if c.time.wasExt ∧ c.tqState = 2 then 1 else 2

/-- This station as a candidate. -/
def Chip.ownCandidate (c : Chip) : Heard :=
  ⟨7, c.stationId, c.ownClass, c.fld TS_GMCFG_PRIO, c.serial, c.fld TS_CTL_STEPS, 0, c.mono⟩

/-- Whether what a port heard still counts: within 375 ms, from a MEMBER (R594, R595). -/
def Chip.fresh (c : Chip) (h : Heard) : Bool :=
  decide (c.mono < h.at_ + 375000000) && h.id != 0 && decide (h.id < 4095) && c.fld (FX_MEMBER_STATE (h.id - 1)) == 1

/-- The best of some candidates. -/
def bestHeard : List Heard → Option Heard
  | [] => none
  | h :: hs => match bestHeard hs with
    | some g => if listLt g.rank h.rank then some g else some h
    | none => some h

/-- Elects the grandmaster among the candidates heard and, where it is grandmaster, this station (R594). -/
def Chip.elect (c : Chip) : Chip :=
  let own := if c.flag TS_STAT_ISGM then [c.ownCandidate] else []
  match bestHeard (own ++ c.time.heard.filter c.fresh) with
  | some g =>
    if g.hops = 0 ∧ g.port = 7 then c.setFld TS_STAT_GMCLASS c.ownClass
    else (c.onTime fun x => { x with gm := some g }).setFlds
      [(TS_STAT_ISGM, 0), (TS_STAT_GMCLASS, g.cls), (TS_STAT_GMID, g.id), (TS_STAT_GMHOPS, Nat.min 15 (g.hops + 1))]
  | none => (c.onTime fun x => { x with gm := none }).setFlds [(TS_STAT_GMCLASS, 0), (TS_STAT_GMID, 0), (TS_STAT_GMHOPS, 0)]

/-- Whether a port has been without a SYNC for 2 ms (log entry 62). -/
def Chip.silent (c : Chip) (p : Nat) : Bool := match assocGet c.time.syncAt p with
  | some t => decide (t + 2000000 ≤ c.mono)
  | none => true

/-- The time parent (R591). -/
def Chip.timeParent (c : Chip) : Option Nat :=
  match c.time.gm with
  | none => none
  | some g =>
    let on := c.time.heard.filter fun h => h.serial == g.serial && c.fresh h && c.flag (FX_PORTSTAT_UP h.port)
    let key := fun (h : Heard) => [b2n (c.silent h.port), h.hops, h.port]
    (on.foldl (fun b h => match b with
      | none => some h
      | some g => if listLt (key h) (key g) then some h else some g) none).map Heard.port

/-- An ANNOUNCE as a port hears it (R589). -/
def heardOf (p : Nat) (b : List Byte) (now : Nat) : Heard :=
  ⟨p, bytesAt b 4 2, bytesAt b 1 1, bytesAt b 2 1, bytesAt b 8 8, bytesAt b 6 2, bytesAt b 0x1E 1, now⟩

/-- What an ANNOUNCE tells the time unit (R591, R594, R595). -/
def Chip.hearAnnounce (c : Chip) (p : Nat) (pkt : Packet) : Chip :=
  let h := heardOf p pkt.payload c.mono
  if h.serial = c.serial || !c.accepts pkt.src then c
  else
    let c1 := c.onTime fun x => { x with heard := h :: x.heard.filter fun g => !(g.port == p && g.serial == h.serial) }
    let better := c1.fresh h && listLt h.rank c.ownCandidate.rank
    (if better then c1.onTime fun x => { x with betterAt := c.mono } else c1).elect

/-- ANNOUNCE (R590, R591): relayed the first time it is seen (R560), and told to the time unit. -/
def Chip.announce (c : Chip) (p : Nat) (pkt : Packet) : Chip :=
  let (seen, c1) := c.floodSeen pkt
  let c2 := if seen || pkt.hops == 0 then c1
    else c1.onChans (fun q c => c.sendOn q (relayedCopy pkt)) ((c1.portsFor pkTime).filter fun q => q != p)
  c2.hearAnnounce p pkt

/-- GM_TIMEOUT (R595, R596): a grandmaster not heard for 375 ms is dropped; a candidate that has heard nothing better for 375 ms
declares itself. -/
def Chip.gmTimeout (c : Chip) : Chip :=
  let stale := match c.time.gm with
    | some g => !(c.time.heard.any fun h => h.serial == g.serial && c.fresh h)
    | none => false
  let c1 := if stale then c.elect else c
  let better := c1.time.heard.any fun h => c1.fresh h && listLt h.rank c1.ownCandidate.rank
  if c1.flag TS_STAT_ISGM ∨ !c1.flag TS_GMCFG_CAND ∨ better ∨ c1.mono < c1.time.betterAt + 375000000 then c1
  else
    let hold := c1.ownClass == 1
    let c2 := (c1.onTime fun x => { x with gm := none, holdAt := if hold then x.holdAt else none }).setFlds
      [(TS_STAT_ISGM, 1), (TS_STAT_GMCLASS, c1.ownClass), (TS_STAT_GMID, c1.stationId), (TS_STAT_GMHOPS, 0)]
    (c2.showDeviation 0).setTq (if hold then 2 else 1) (c1.ownClass == 0) 0 hold

/-! ## TIME packets (R589, R590) -/

/-- The payload of a TIME packet; the times in 2^-16 ns. -/
def Chip.timePayload (c : Chip) (sub t t2 : Nat) : List Byte :=
  let g := match c.time.gm with
    | some g => g
    | none => c.ownCandidate
  toBytes 1 sub ++ toBytes 1 (c.fld TS_STAT_GMCLASS) ++ toBytes 1 g.prio ++ toBytes 1 (c.tqLive (c.fld TS_STAT_TQ)) ++
    toBytes 2 (c.fld TS_STAT_GMID) ++ toBytes 2 g.steps ++ toBytes 8 g.serial ++ toBytes 8 (t / 65536) ++ toBytes 2 (t % 65536) ++
    toBytes 4 (c.reg TS_DEV).toNat ++ toBytes 1 (c.fld TS_STAT_GMHOPS) ++ toBytes 1 0 ++ toBytes 8 (t2 / 65536) ++
    toBytes 2 (t2 % 65536) ++ toBytes 6 0

/-- Sends a link-local TIME packet on a port: HOPS = 1, to the neighbour, at its position in its station (R537, R590). -/
def Chip.sendLocal (c : Chip) (p sub t t2 : Nat) : Chip :=
  c.sendOn p { c.ownPacket pkTime 0 (c.fld (FX_PORTSTAT_NBR p)) (c.fld (FX_PORTSTAT_NBRPOS p) - 1) with hops := 1, len := 12, payload := c.timePayload sub t t2 }

/-- The ports that carry link-local TIME packets. -/
def Chip.timePorts (c : Chip) : List Nat :=
  if !c.fabricOpen then [] else (c.portsFor pkTime).filter fun p => c.fld (FX_PORTSTAT_NBR p) != 0

/-- Whether a period has passed since an instant. -/
def Chip.passed (c : Chip) (t : Option Nat) (period : Nat) : Bool := match t with
  | some t => decide (t + period ≤ c.mono)
  | none => true

/-- ANNOUNCE_SEND (R590). -/
def Chip.announceSend (c : Chip) : Chip :=
  if !c.flag TS_STAT_ISGM || !c.fabricOpen || !c.passed c.time.annAt 125000000 then c
  else
    let n := (c.time.annNum + 1) % 2 ^ 32
    let c1 := c.onTime fun x => { x with annNum := n, annAt := some c.mono }
    c1.flood { c1.ownPacket pkTime 0 4095 0 with seq := n, len := 12, payload := c1.timePayload 1 0 0 }

/-- SYNC_SEND (R590): the time is that at the egress pins. -/
def Chip.syncSend (c : Chip) : Chip :=
  if !c.passed c.time.sentAt 1000000 then c
  else (c.onChans (fun p c => c.sendLocal p 2 (c.fabricFracAt c.mono) 0) c.timePorts).onTime fun x => { x with sentAt := some c.mono }

/-- DREQ_SEND (R590): t1 is kept for the answer. -/
def Chip.dreqSend (c : Chip) : Chip :=
  if !c.passed c.time.askedAt 125000000 then c
  else
    let t1 := c.fabricFracAt c.mono
    (c.onChans (fun p c => (c.sendLocal p 3 0 0).onTime fun x => { x with dreqs := assocSet x.dreqs p t1 }) c.timePorts).onTime
      fun x => { x with askedAt := some c.mono }

/-- The path delay of a port: the mean of its last 16 exchanges (R590). -/
def Chip.pathDelay (c : Chip) (p : Nat) : Int :=
  let l := (assocGet c.time.delays p).getD []
  if l.isEmpty then 0 else l.foldl (· + ·) 0 / l.length

/-- A time of a TIME packet in 2^-16 ns. -/
def timeAt (b : List Byte) (o : Nat) : Nat := bytesAt b o 8 * 65536 + bytesAt b (o + 8) 2

/-- The time that has passed while LOCKED, with the RATE it ran at (R600). -/
def Chip.accountLocked (c : Chip) : Chip :=
  match c.time.goodAt with
  | some t =>
    if c.tqState = 1 then c.onTime fun x => { x with
      locked := lastSecond 1000000000 ((c.mono - t, signed 32 (c.reg TS_RATE).toNat) :: x.locked) } else c
  | none => c

/-- A good SYNC from the time parent (R591, R592, R597, R598). -/
def Chip.goodSync (c : Chip) (p : Nat) (b : List Byte) (arr : Nat) : Chip :=
  let truth := (timeAt b 0x10 : Int) + c.pathDelay p
  let off := ((c.fabricFracAt arr : Nat) : Int) - truth
  let dev := off.natAbs / 65536 + bytesAt b 0x1A 4
  let tq := bytesAt b 3 1
  let c1 := (c.accountLocked.showDeviation dev).followSource arr truth
  let c2 := (c1.onTime fun x => { x with goodAt := some c.mono, holdAt := none }).setFlds
    [(TS_STAT_GMCLASS, bytesAt b 1 1), (TS_STAT_GMID, bytesAt b 4 2), (TS_STAT_GMHOPS, Nat.min 15 (bytesAt b 0x1E 1 + 1))]
  c2.setTq 1 (bitAt tq 2) (Nat.max (errCode dev) (bitsOf tq 6 4)) (bitAt tq 7)

/-- SYNC (R591, R597, R598): `ago` ns ago its first header bit was at the ingress pins. -/
def Chip.sync (c : Chip) (p : Nat) (pkt : Packet) (ago : Nat) : Chip :=
  let b := pkt.payload
  let c1 := c.onTime fun x => { x with syncAt := assocSet x.syncAt p c.mono }
  let good := c1.timeParent == some p && (c1.time.gm.map Heard.serial) == some (bytesAt b 8 8) && bytesAt b 3 1 % 4 != 0
  if !c.accepts pkt.src then c else if good then c1.goodSync p b (c.mono - ago) else c1

/-- DREQ (R590): answered with the time it came and the time the answer leaves. -/
def Chip.dreq (c : Chip) (p : Nat) (pkt : Packet) (ago : Nat) : Chip :=
  if c.accepts pkt.src && c.timePorts.contains p then c.sendLocal p 4 (c.fabricFracAt c.mono) (c.fabricFracAt (c.mono - ago)) else c

/-- DRSP (R590): one more exchange of the port. -/
def Chip.drsp (c : Chip) (p : Nat) (pkt : Packet) (ago : Nat) : Chip :=
  match if c.accepts pkt.src then assocGet c.time.dreqs p else none with
  | none => c
  | some t1 =>
    let t4 : Int := c.fabricFracAt (c.mono - ago)
    let d := ((t4 - t1) - ((timeAt pkt.payload 0x10 : Int) - timeAt pkt.payload 0x20)) / 2
    c.onTime fun x => { x with
      dreqs := x.dreqs.filter fun q => q.1 != p
      delays := assocSet x.delays p ((d :: (assocGet x.delays p).getD []).take 16) }

/-- A TIME packet that has arrived whole (R589). -/
def Chip.timePacket (c : Chip) (p : Nat) (pkt : Packet) (ago : Nat) : Chip :=
  match bytesAt pkt.payload 0 1 with
  | 1 => c.hearAnnounce p pkt
  | 2 => c.sync p pkt ago
  | 3 => c.dreq p pkt ago
  | 4 => c.drsp p pkt ago
  | _ => c

/-! ## Holdover, the written step (R598, R600) -/

/-- Whether the external master of the Ethernet ports is lost (R600, R602). -/
def Chip.extLost (c : Chip) : Bool := (List.range 4).all fun p => match (c.eth p).master with
  | some m => decide (m.at_ + m.life ≤ c.mono)
  | none => true

/-- Marks every Ethernet port's external master as lost. -/
def Chip.dropMasters (c : Chip) : Chip :=
  c.onChans (fun p c => (c.setFlds [(EN_PTPSTAT_USABLE p, 0), (EN_PTPSTAT_STATE p, 0)]).onEth p fun x => { x with master := none, offsets := [], from_ := none })
    ((List.range 4).filter fun p => c.fld (EN_PTPSTAT_STATE p) == 2)

/-- HOLDOVER_ENTRY (R600): fabric time runs on at the last measured rate. -/
def Chip.holdoverEntry (c : Chip) : Chip :=
  let gm := c.flag TS_STAT_ISGM
  let lost := if gm then c.time.wasExt && bitAt (c.fld TS_STAT_TQ) 2 && c.extLost
    else match c.time.goodAt with
      | some t => decide (t + 5000000 ≤ c.mono)
      | none => false
  if c.tqState ≠ 1 ∨ !lost then c
  else
    let c1 := if gm then c.dropMasters else c
    let tq := c.fld TS_STAT_TQ
    let c2 := (c1.onTime fun x => { x with holdAt := some c.mono, rate := x.measured, rateAt := c.mono, dirty := true }).setTq 2
      (bitAt tq 2 && !gm) 0 (gm || bitAt tq 7)
    if gm then c2.setFld TS_STAT_GMCLASS c2.ownClass else c2

/-- TIME_SET (R598): a write of TS_CTL. -/
def Chip.timeSet (c : Chip) (v : Word) : Chip :=
  let c1 := c.setFld TS_CTL_STEPPED (c.fld TS_CTL_STEPPED * b2n (!v.getLsbD 30))
  let may := c.tqState == 0 || (c.flag TS_STAT_ISGM && c.ownClass == 2)
  if !v.getLsbD 31 || !may then c1
  else
    let want : Int := ((c.reg TS_SET_LO).toNat + (c.reg TS_SET_HI).toNat * 2 ^ 32 : Nat)
    c1.stepTime (want * 65536 - (((c.lastMap.at c.mono : Nat) : Int) + c.time.step))

/-! ## Schedules (R606 to R608) -/

/-- START of a schedule. -/
def Chip.schedStart (c : Chip) (s : Nat) : Nat := (c.reg (TS_START_LO s)).toNat + (c.reg (TS_START_HI s)).toNat * 2 ^ 32

/-- The first instance of a schedule at or after a fabric instant. -/
def Chip.schedFirst (c : Chip) (s f : Nat) : Nat :=
  let st := c.schedStart s
  let p := (c.reg (TS_PERIOD s)).toNat
  if f ≤ st then 0 else if p = 0 then 1 else (f - st + p - 1) / p

/-- A write of TS_SCHEDCTL (R606). -/
def Chip.schedCtl (c : Chip) (s : Nat) (v : Word) : Chip :=
  let was := c.flag (TS_SCHEDCTL_ENABLE s)
  let p := (c.reg (TS_PERIOD s)).toNat
  let on := v.getLsbD 31 && (was || p == 0 || decide (31250 ≤ p))
  let c1 := c.setFlds [(TS_SCHEDCTL_ENABLE s, b2n on), (TS_SCHEDCTL_CANEN s, bitsOf v.toNat 8 8), (TS_SCHEDCTL_CGMASK s, bitsOf v.toNat 7 0)]
  if on && !was then c1.onTime fun x => { x with scheds := assocSet x.scheds s (c.schedFirst s (c.fabricAt (c.mono + 200000))) }
  else if on then c1
  else c1.onTime fun x => { x with scheds := x.scheds.filter fun q => q.1 != s }

/-- A firing at the CG islands: the TIME channels that name the schedule (R368, R373). -/
def Chip.fireGroups (c : Chip) (s m : Nat) : Chip :=
  c.onChans (fun i c =>
    let e := (c.chan i).entry
    if eActive e != 0 && eSource e == 2 && eTslot e == s && (c.reg (TS_SCHEDCTL s)).getLsbD (groupOf i) then c.scheduleStamp i m else c)
    (c.chans.map Prod.fst)

/-- A firing at NX: every CAN controller keeps it until its instant (R607, R632); one that comes too late is skipped. -/
def Chip.fireCan (c : Chip) (s k m : Nat) : Chip :=
  if m < c.mono then c
  else { c with cans := (List.range 8).foldl (fun l n =>
    let x := mapGet Can.idle l n
    mapSet Can.idle l n { x with firings := x.firings ++ [(s, k, m)] }) c.cans }

/-- SCHEDULE_FIRING (R606 to R608): the next instance that has not been passed over; it goes to the CG islands through rings 14 to 21
(R588, log entry 97). -/
def Chip.scheduleFiring (c : Chip) (s : Nat) : Chip :=
  match assocGet c.time.scheds s with
  | none => c
  | some n =>
    let k := Nat.max n (c.schedFirst s (c.fabricNow + 1))
    let p := (c.reg (TS_PERIOD s)).toNat
    if p = 0 ∧ k ≠ 0 then c
    else
      let m := c.monoOf (c.schedStart s + k * p)
      c.through ((List.range 8).filterMap fun g => if (c.reg (TS_SCHEDCTL s)).getLsbD g then some (14 + g) else none) fun c =>
      let sent := (s, (c.reg (TS_SCHEDCTL s)).toNat % 256, m) :: c.time.fired.filter fun q => decide (c.mono ≤ q.2.2)
      let c1 := (c.onTime fun x => { x with scheds := assocSet x.scheds s (k + 1), fired := sent }).fireGroups s m
      if c.flag (TS_SCHEDCTL_CANEN s) then c1.fireCan s k m else c1

/-! ## Captures (R609) -/

/-- A good packet seen by the capture units: the units it meets record the time of its first header bit and disarm. -/
def Chip.capture (c : Chip) (p src arr : Nat) : Chip :=
  let ft := c.fabricFracAt arr
  c.onChans (fun n c => ((c.setFlds [(TS_CAPCFG_ARM n, 0), (TS_CAPCFG_VALID n, 1), (TS_CAP_TQ_FRAC n, ft % 65536), (TS_CAP_TQ_TQ n, c.tqNow)]).setReg
      (TS_CAP_LO n) (BitVec.ofNat 32 (ft / 65536))).setReg (TS_CAP_HI n) (BitVec.ofNat 32 (ft / 65536 / 2 ^ 32)))
    ((List.range 8).filter fun n => c.flag (TS_CAPCFG_ARM n) && (c.fld (TS_CAPCFG_PORT n) == 7 || c.fld (TS_CAPCFG_PORT n) == p) &&
      (c.fld (TS_CAPCFG_SRC n) == 0 || c.fld (TS_CAPCFG_SRC n) == src))

/-! ## IEEE 1588 on the Ethernet ports (R602) -/

/-- The data set this station compares for a port (log entry 63). -/
def Chip.ptpOwn (c : Chip) (p : Nat) : List Nat :=
  [c.fld (EN_PTPCFG_PRIO1 p), 248, 0xFE, 0xFFFF, c.fld (EN_PTPCFG_PRIO2 p), c.serial]

/-- The master a port hears, where it still counts and is better than this station. -/
def Chip.ptpMaster (c : Chip) (p : Nat) : Option PtpMaster := match (c.eth p).master with
  | some m => if c.flag (EN_PTPCFG_EN p) && decide (c.mono < m.at_ + m.life) && listLt m.rank (c.ptpOwn p) then some m else none
  | none => none

/-- The port with the best master. -/
def Chip.ptpBest (c : Chip) : Option (Nat × PtpMaster) :=
  (List.range 4).foldl (fun b p => match c.ptpMaster p with
    | none => b
    | some m => match b with
      | some (q, g) => if listLt m.rank g.rank then some (p, m) else some (q, g)
      | none => some (p, m)) none

/-- The state of a port (R602): 0 disabled, 1 MASTER, 2 SLAVE, 3 PASSIVE. -/
def Chip.ptpState (c : Chip) (p : Nat) : Nat :=
  if !c.flag (EN_PTPCFG_EN p) then 0
  else match c.ptpBest with
    | none => 1
    | some (q, g) =>
      if q = p then (if c.flag (EN_PTPCFG_MASTERONLY p) then 1 else 2)
      else match c.ptpMaster p with
        | some m => if m.gm = g.gm then 3 else 1
        | none => 1

/-- Shows the states of all ports; a port that is no slave measures nothing. -/
def Chip.showPtp (c : Chip) : Chip :=
  c.onChans (fun p c1 =>
    let st := c.ptpState p
    let c2 := c1.setFld (EN_PTPSTAT_STATE p) st
    if st = 2 then c2 else (c2.setFld (EN_PTPSTAT_USABLE p) 0).onEth p fun x => { x with offsets := [], from_ := none }) (List.range 4)

/-- The largest less the smallest of some offsets. -/
def spread (l : List Int) : Int := match l with
  | [] => 0
  | a :: l => l.foldl max a - l.foldl min a

/-- A Sync on a slave port: its offset, whether the port is usable, and what a grandmaster makes of it (R598, R602). -/
def Chip.ptpSync (c : Chip) (p origin : Nat) : Chip :=
  if c.fld (EN_PTPSTAT_STATE p) ≠ 2 then c
  else
    let x := c.eth p
    let truth := (origin : Int) + x.delay
    let off := ((c.fabricFracAt c.mono : Nat) : Int) - truth
    let l := (c.mono, off) :: x.offsets.filter fun q => decide (c.mono ≤ q.1 + 2000000000)
    let since := x.from_.getD c.mono
    let use_ := decide (since + 2000000000 ≤ c.mono) && decide (spread (l.map Prod.snd) ≤ 6553600)
    let c1 := (c.onEth p fun y => { y with offsets := l, from_ := some since }).setFld (EN_PTPSTAT_USABLE p) (b2n use_)
    if !use_ then c1
    else
      let c2 := c1.onTime fun t => { t with wasExt := true }
      if !c2.flag TS_STAT_ISGM then c2
      else
        let c3 := (c2.accountLocked.onTime fun t => { t with goodAt := some c.mono, holdAt := none }).setFld TS_STAT_GMCLASS 0
        (c3.setTq 1 true 0 false).followSource c.mono truth

/-- A Timestamp of IEEE 1588: 48 bits of seconds and 32 bits of nanoseconds, most significant byte first (R14, R602). -/
def ptpTimestamp (ns : Nat) : List Byte := (toBytes 6 (ns / 1000000000)).reverse ++ (toBytes 4 (ns % 1000000000)).reverse

/-- A port's answer to a request: its own time, inserted at egress (R602). -/
def Chip.ptpAnswer (c : Chip) (p : Nat) (peer : Bool) : Chip :=
  if peer == c.flag (EN_PTPCFG_P2P p) && (peer || c.fld (EN_PTPSTAT_STATE p) == 1) then c.sendEth p (ptpTimestamp c.fabricNow)
  else c

/-- PTP_MESSAGE (R602). -/
def Chip.ptpMessage (c : Chip) (p domain : Nat) (udp : Bool) (msg : PtpMsg) : Chip :=
  if !c.islandOn 0x13 || !c.flag (EN_PTPCFG_EN p) || udp != c.flag (EN_PTPCFG_UDP p) || domain != c.fld (EN_PTPCFG_DOMAIN p) then c
  else match msg with
    | .announce rank gm life =>
      let keep := match c.ptpMaster p with
        | some m => m.gm != gm && listLt m.rank rank
        | none => false
      (if keep then c else c.onEth p fun x => { x with master := some ⟨rank, gm, c.mono, life⟩ }).showPtp
    | .sync origin => c.showPtp.ptpSync p origin
    | .request peer => c.ptpAnswer p peer
    | .delay peer d => if peer == c.flag (EN_PTPCFG_P2P p) then c.onEth p fun x => { x with delay := d } else c
    | .other => c

/-! ## Timed transmission (R603 to R605) -/

/-- The head message of a transmit queue of an Ethernet port. -/
def Chip.ethHead (c : Chip) (p q : Nat) : Option Msg :=
  let r := c.fld (EN_TXQ_RING p q)
  if c.flag (EN_TXQ_EN p q) && decide (64 ≤ r) && (c.pool.ring r).cons == 0x13 then c.head? r else none

/-- LAUNCH_NS of a message that waits for it in its queue, or none (R604). -/
def Chip.ethLaunch (c : Chip) (p q : Nat) (m : Msg) : Option Nat :=
  if bitAt (bytesAt m.bytes 0xA 2) 0 && bitAt (c.fld (EN_LTCFG_LTEN p)) q then some (bytesAt m.bytes 0 8) else none

/-- The ns a frame takes on the wire, with preamble and FCS, at 10 Gbit/s. -/
def wireNs (len : Nat) : Nat := ((len + 12) * 4 + 4) / 5

/-- Whether a head message may start now (R604, R605). -/
def Chip.ethMayStart (c : Chip) (p q : Nat) (m : Msg) : Bool :=
  let stop := c.mono + wireNs (bytesAt m.bytes 8 2)
  let clear := (List.range 8).all fun o => match c.ethHead p o with
    | none => true
    | some h => match c.ethLaunch p o h with
      | none => true
      | some l => let t := c.monoOf l; decide (t ≤ c.mono) || decide (stop ≤ t)
  let due := match c.ethLaunch p q m with
    | none => true
    | some l => decide (c.monoOf l ≤ c.mono) && decide (c.fabricNow ≤ l + c.fld (EN_LTCFG_LATE_NS p))
  clear && due

/-- FRAME_LAUNCH (R603, R604): the port takes the frame of the highest queue that may start. -/
def Chip.frameLaunch (c : Chip) (p : Nat) : Chip :=
  if !c.islandOn 0x13 || c.mode == 6 || decide (c.mono < (c.eth p).busy) then c
  else
    let q := [7, 6, 5, 4, 3, 2, 1, 0].find? fun q => match c.ethHead p q with
      | some m => c.ethMayStart p q m
      | none => false
    match q with
    | none => c
    | some q => match c.ethHead p q with
      | none => c
      | some m =>
        let len := bytesAt m.bytes 8 2
        ((c.consume (c.fld (EN_TXQ_RING p q))).send (8 + p) ((m.bytes.drop 16).take len)).onEth p fun x => { x with
          busy := c.mono + wireNs len }

/-- LT_FRAME_DISCARD (R605). -/
def Chip.ltDiscard (c : Chip) (p q : Nat) : Chip :=
  match if c.islandOn 0x13 && c.mode != 6 then c.ethHead p q else none with
  | none => c
  | some m => match c.ethLaunch p q m with
    | none => c
    | some l =>
      let r := c.fld (EN_TXQ_RING p q)
      if l + c.fld (EN_LTCFG_LATE_NS p) < c.fabricNow then (c.consume r).bump (EN_LTLATE_LO p) 1
      else if c.fabricNow + 1000000000 < l then (c.consume r).bump (EN_LTFAR_LO p) 1
      else c

/-! ## The commands -/

/-- MAPPING_PUBLISH (R587). -/
def execMappingPublish (m : State) : Out := .next (m.onChip fun c => c.clocked 0x12 Chip.mappingPublish)

/-- ANNOUNCE_SEND (R590). -/
def execAnnounceSend (m : State) : Out := .next (m.onChip fun c => c.clocked 0x12 Chip.announceSend)

/-- SYNC_SEND (R590). -/
def execSyncSend (m : State) : Out := .next (m.onChip fun c => c.clocked 0x12 Chip.syncSend)

/-- DREQ_SEND (R590). -/
def execDreqSend (m : State) : Out := .next (m.onChip fun c => c.clocked 0x12 Chip.dreqSend)

/-- ANNOUNCE (R591). -/
def execAnnounce (port : Port) (pkt : Packet) (m : State) : Out :=
  .next (m.onChip fun c => c.clocked 0x12 fun c => c.announce port.val pkt)

/-- SYNC (R598). -/
def execSync (port : Port) (pkt : Packet) (ago : BitVec 32) (m : State) : Out :=
  .next (m.onChip fun c => c.clocked 0x12 fun c => c.sync port.val pkt ago.toNat)

/-- DREQ (R590). -/
def execDreq (port : Port) (pkt : Packet) (ago : BitVec 32) (m : State) : Out :=
  .next (m.onChip fun c => c.clocked 0x12 fun c => c.dreq port.val pkt ago.toNat)

/-- DRSP (R590). -/
def execDrsp (port : Port) (pkt : Packet) (ago : BitVec 32) (m : State) : Out :=
  .next (m.onChip fun c => c.clocked 0x12 fun c => c.drsp port.val pkt ago.toNat)

/-- GM_TIMEOUT (R595). -/
def execGmTimeout (m : State) : Out := .next (m.onChip fun c => c.clocked 0x12 Chip.gmTimeout)

/-- HOLDOVER_ENTRY (R600). -/
def execHoldoverEntry (m : State) : Out := .next (m.onChip fun c => c.clocked 0x12 Chip.holdoverEntry)

/-- TIME_SET (R598). -/
def execTimeSet (src : Island) (value : Word) (m : State) : Out :=
  .next (m.onChip fun c => c.whenOn src.val TS_CTL fun c => c.timeSet value)

/-- SCHEDULE_ENABLE (R606). -/
def execScheduleEnable (src : Island) (sched : Fin 256) (value : Word) (m : State) : Out :=
  .next (m.onChip fun c => c.whenOn src.val (TS_SCHEDCTL sched.val) fun c => c.schedCtl sched.val value)

/-- SCHEDULE_FIRING (R607). -/
def execScheduleFiring (sched : Fin 256) (m : State) : Out :=
  .next (m.onChip fun c => c.clocked 0x12 fun c => c.scheduleFiring sched.val)

/-- PTP_MESSAGE (R602). -/
def execPtpMessage (port : EthP) (domain : BitVec 8) (udp : Bool) (msg : PtpMsg) (m : State) : Out :=
  .next (m.onChip fun c => c.ptpMessage port.val domain.toNat udp msg)

/-- FRAME_LAUNCH (R604). -/
def execFrameLaunch (port : EthP) (m : State) : Out := .next (m.onChip fun c => c.frameLaunch port.val)

/-- LT_FRAME_DISCARD (R605). -/
def execLtFrameDiscard (port : EthP) (queue : Fin 8) (m : State) : Out :=
  .next (m.onChip fun c => c.ltDiscard port.val queue.val)

end Sys2Proof.Machine
end

