-- ==== Sys2Proof/Machine/Can.lean ====
section
/-!
DEFINITION. The CAN FD controllers: modes and timing, arbitration and completions, errors, launch times, cancellation, the
schedule matrix (R610 to R638).
-/

namespace Sys2Proof.Machine

/-! ## A controller -/

/-- A controller. -/
def Chip.can (c : Chip) (n : Nat) : Can := mapGet Can.idle c.cans n

/-- Changes a controller. -/
def Chip.onCan (c : Chip) (n : Nat) (f : Can → Can) : Chip := { c with cans := mapSet Can.idle c.cans n (f (c.can n)) }

/-- Whether NX is ON (R638). -/
def Chip.nxOn (c : Chip) : Bool := c.islandOn 0x13

/-- Whether a controller may offer frames (R616, R618, R637, R638, R647). -/
def Chip.canMaySend (c : Chip) (n : Nat) : Bool :=
  c.nxOn && c.fld (CN_STAT_MODE n) == 1 && decide (c.fld (CN_STAT_STATE n) < 2) && c.mode != 6 && !(c.can n).stopped &&
    (c.can n).attempt.isNone

/-- Sets bits of CN_IRQSTAT; bits that rise with their enable set give one notification, by DROP (R636). -/
def Chip.canIrq (c : Chip) (n : Nat) (mask : Word) : Chip :=
  let old := c.reg (CN_IRQSTAT n)
  let new := old ||| mask
  let c1 := c.setReg (CN_IRQSTAT n) new
  let r := c.fld (CN_RINGS1_IRQ n)
  if mask &&& ~~~old &&& c.reg (CN_IRQEN n) = 0#32 ∨ r < 64 then c1
  else c1.publishLive r 0x13 (toBytes 4 n ++ toBytes 4 new.toNat ++ toBytes 1 (c.fld (CN_ERRCNT_TEC n)) ++
    toBytes 3 (c.fld (CN_ERRCNT_REC n)) ++ toBytes 4 c.fabricNow)

/-! ## Bit timing and modes (R612, R613, R616, R617) -/

/-- Whether the timing programmed obeys R612: rates from the 80 MHz clock, the data rate at least the nominal one. -/
def Chip.canTimingOk (c : Chip) (n : Nat) : Bool :=
  let nq := 1 + (c.fld (CN_NBT_TSEG1 n) + 1) + (c.fld (CN_NBT_TSEG2 n) + 1)
  let dq := 1 + (c.fld (CN_DBT_TSEG1 n) + 1) + (c.fld (CN_DBT_TSEG2 n) + 1)
  let nb := (c.fld (CN_NBT_BRP n) + 1) * nq
  let db := (c.fld (CN_DBT_BRP n) + 1) * dq
  decide (1 ≤ c.fld (CN_NBT_TSEG1 n)) && decide (c.fld (CN_NBT_SJW n) ≤ c.fld (CN_NBT_TSEG2 n)) &&
    decide (c.fld (CN_DBT_SJW n) ≤ c.fld (CN_DBT_TSEG2 n)) && decide (80 ≤ nb) && decide (10 ≤ db) && decide (db ≤ nb)

/-- CAN_MODE_WRITE: a write of CN_CFG (R616, R617); one that would leave CONFIG with timing that breaks R612 is refused whole (R613). -/
def Chip.canCfg (c : Chip) (n : Nat) (v : Word) : Chip :=
  let old := c.fld (CN_CFG_MODE n)
  let want := getF (CN_CFG_MODE n) v
  let c1 := fun (c : Chip) => c.setFlds [(CN_CFG_FDEN n, getF (CN_CFG_FDEN n) v), (CN_CFG_TDCEN n, getF (CN_CFG_TDCEN n) v),
    (CN_CFG_PXHD n, getF (CN_CFG_PXHD n) v), (CN_CFG_AUTOREC n, getF (CN_CFG_AUTOREC n) v), (CN_CFG_TERM n, getF (CN_CFG_TERM n) v)]
  if old = 0 ∧ want ≠ 0 ∧ !c.canTimingOk n then c.setFlag (CN_STAT_TIMREF n) true
  else
    let c2 := ((c1 c).setFld (CN_CFG_MODE n) want).onCan n fun x => { x with moving := x.moving || want != old }
    if old = 0 ∧ want ≠ 0 then c2.setFld (CN_STAT_STATE n) 3 else c2

/-- BUS_INTEGRATION (R617): 11 recessive bits or bus idle; the pending mode takes effect, never inside a frame. -/
def Chip.busIntegration (c : Chip) (n : Nat) : Chip :=
  if !c.nxOn || !(c.can n).moving || (c.can n).attempt.isSome then c
  else
    let want := c.fld (CN_CFG_MODE n)
    let c1 := (c.setFld (CN_STAT_MODE n) want).onCan n fun x => { x with moving := false }
    if want = 0 then (c1.setReg (CN_ERRCNT n) 0#32).setFlds [(CN_STAT_STATE n, 0), (CN_STAT_EWTXL n, 0), (CN_STAT_EWRXL n, 0)]
    else if c.fld (CN_STAT_STATE n) = 3 then
      c1.setFld (CN_STAT_STATE n) (b2n (decide (128 ≤ c.fld (CN_ERRCNT_TEC n)) || decide (128 ≤ c.fld (CN_ERRCNT_REC n))))
    else c1

/-- BIT_TIMING_WRITE (R612). -/
def Chip.canTiming (c : Chip) (n : Nat) (data : Bool) (v : Word) : Chip :=
  if c.fld (CN_CFG_MODE n) ≠ 0 then c.setFlag (CN_STAT_TIMREF n) true
  else if data then c.setReg (CN_DBT n) (v &&& 0x1F1F0F0F#32)
  else c.setReg (CN_NBT n) (v &&& 0xFFFF7F7F#32)

/-! ## Messages (R621 to R624, R629) -/

/-- The data bytes of a message or frame (R622). -/
def canBytes (dlc : Nat) (fdf rtr : Bool) : Nat :=
  if rtr then 0 else if dlc ≤ 8 then dlc
  else if fdf then [12, 16, 20, 24, 32, 48, 64].getD (dlc - 9) 64 else 8

/-- Fields of a message's header. -/
def msgId (b : List Byte) : Nat := bytesAt b 0 4
def msgDlc (b : List Byte) : Nat := bytesAt b 4 1
def msgFlag (b : List Byte) (i : Nat) : Bool := bitAt (bytesAt b 5 1) i
def msgToken (b : List Byte) : Nat := bytesAt b 6 2
def msgTime (b : List Byte) : Nat := bytesAt b 8 8

/-- Whether the controller refuses a transmit message (R623). -/
def Chip.canInvalid (c : Chip) (n : Nat) (b : List Byte) : Bool :=
  let rtr := bitAt (msgId b) 30
  let fdf := msgFlag b 0
  bitAt (msgId b) 31 || bitsOf (bytesAt b 5 1) 7 5 != 0 || decide (15 < msgDlc b) || (rtr && fdf) || (msgFlag b 1 && !fdf) ||
    (fdf && !c.flag (CN_CFG_FDEN n)) || decide (b.length < 16 + canBytes (msgDlc b) fdf rtr)

/-- The arbitration order: the lower wins (R624). -/
def canKey (b : List Byte) : Nat :=
  let id := msgId b
  let rtr := b2n (bitAt id 30)
  if bitAt id 29 then bitsOf id 28 18 * 2 ^ 21 + 2 ^ 20 + 2 ^ 19 + bitsOf id 17 0 * 2 + rtr
  else bitsOf id 28 18 * 2 ^ 21 + rtr * 2 ^ 20

/-- A completion, by DROP (R629). -/
def Chip.canReport (c : Chip) (n : Nat) (b : List Byte) (result queue : Nat) (sof : Option Nat) : Chip :=
  let r := c.fld (CN_RINGS0_DONE n)
  if !msgFlag b 4 || decide (r < 64) then c
  else
    let (tq, ft) := match sof with
      | some m => (c.tqAt m, c.fabricAt m)
      | none => (0, 0)
    c.publishLive r 0x13 (toBytes 2 (msgToken b) ++ toBytes 1 result ++ toBytes 1 queue ++ toBytes 4 tq ++ toBytes 8 ft)

/-- Takes the head message of a ring, and with it those behind that have been cancelled (R630). -/
def Chip.takeHead (c : Chip) (r : Nat) : Nat → Chip
  | 0 => c.consume r
  | k + 1 => let c1 := c.consume r; if c1.pool.voids.contains (r, 0) then c1.takeHead r k else c1

/-- Takes a ring's head message. -/
def Chip.canTake (c : Chip) (r : Nat) : Chip := c.takeHead r (c.pool.ring r).queue.length

/-- The ring of a queue, where it is enabled and NX consumes it (R624). -/
def Chip.canRing (c : Chip) (n q : Nat) : Option Nat :=
  let r := c.fld (CN_TXQ_RING n q)
  if c.flag (CN_TXQ_EN n q) && decide (64 ≤ r) && (c.pool.ring r).cons == 0x13 then some r else none

/-- The head message of a queue. -/
def Chip.canHead (c : Chip) (n q : Nat) : Option Msg := (c.canRing n q).bind fun r => c.head? r

/-- Refuses a queue's malformed head messages (R623). -/
def Chip.refuseHeads (c : Chip) (n q : Nat) : Nat → Chip
  | 0 => c
  | k + 1 => match c.canRing n q with
    | none => c
    | some r => match c.head? r with
      | none => c
      | some m =>
        if c.canInvalid n m.bytes then
          (((c.canTake r).onCan n fun x => { x with launched := x.launched.filter fun y => y.1 != q }).canReport n m.bytes 3 q none).refuseHeads n q k
        else c

/-- Refuses the malformed head messages of every queue, and malformed slot messages. -/
def Chip.refuseAll (c : Chip) (n : Nat) : Chip :=
  let c1 := c.onChans (fun q c => c.refuseHeads n q (match c.canRing n q with
    | some r => (c.pool.ring r).queue.length
    | none => 0)) [0, 1, 2, 3]
  let bad := (c1.can n).slots.filter fun x => c1.canInvalid n x.msg
  let c2 := c1.onCan n fun x => { x with slots := x.slots.filter fun y => !c1.canInvalid n y.msg }
  bad.foldl (fun c x => c.canReport n x.msg 3 (0x40 + x.slot) none) c2

/-- The message a controller offers: the slot message that fell due first, or the head of highest priority (R624, R625,
R633). -/
def Chip.canCandidate (c : Chip) (n : Nat) : Option (Nat × List Byte) :=
  match (c.can n).slots with
  | x :: _ => some (0x40 + x.slot, x.msg)
  | [] => [0, 1, 2, 3].foldl (fun b q => match c.canHead n q with
      | none => b
      | some m =>
        if msgFlag m.bytes 3 && (assocGet (c.can n).launched q).isNone then b
        else match b with
          | none => some (q, m.bytes)
          | some (o, x) => if canKey m.bytes < canKey x then some (q, m.bytes) else some (o, x)) none

/-- CAN_ARBITRATION (R623, R624, R631): the SOF of an attempt. -/
def Chip.canArbitrate (c : Chip) (n : Nat) : Chip :=
  if !c.canMaySend n then c
  else
    let c1 := c.refuseAll n
    match c1.canCandidate n with
    | none => c1
    | some (q, b) => c1.onCan n fun x => { x with attempt := some (q, b, c.mono) }

/-! ## Errors (R618 to R620) -/

/-- Sets TEC and REC with the live thresholds, and gives the interrupt bits of thresholds crossed upwards (R620). -/
def Chip.setErr (c : Chip) (n tec rec_ : Nat) : Word × Chip :=
  let tl := c.fld (CN_EWL_TX n)
  let rl := c.fld (CN_EWL_RX n)
  let up := b2n (decide (c.fld (CN_ERRCNT_TEC n) < tl ∧ tl ≤ tec)) + 2 * b2n (decide (c.fld (CN_ERRCNT_REC n) < rl ∧ rl ≤ rec_))
  (BitVec.ofNat 32 up, c.setFlds [(CN_ERRCNT_TEC n, tec), (CN_ERRCNT_REC n, rec_), (CN_STAT_EWTXL n, b2n (decide (tl ≤ tec))),
    (CN_STAT_EWRXL n, b2n (decide (rl ≤ rec_)))])

/-- The counters after a frame without error: they fall as ISO 11898-1 prescribes (R618, log entry 65). -/
def Chip.canGood (c : Chip) (n tec rec_ : Nat) : Chip :=
  if c.fld (CN_STAT_MODE n) ≠ 1 then c
  else
    let (_, c1) := c.setErr n tec rec_
    if c.fld (CN_STAT_STATE n) = 1 ∧ tec < 128 ∧ rec_ < 128 then c1.setFld (CN_STAT_STATE n) 0 else c1

/-- CAN_ERROR (R610, R618, R619, R620): the attempt ends; a frame in transmission stays at the head of its ring. -/
def Chip.canError (c : Chip) (n : Nat) (e : CanErr) : Chip :=
  if !c.nxOn || c.fld (CN_STAT_MODE n) == 0 || decide (2 ≤ c.fld (CN_STAT_STATE n)) then c
  else
    let c0 := c.onCan n fun x => { x with attempt := none }
    let px := e == .exception && !c.flag (CN_CFG_PXHD n)
    if px then c0.canIrq n 0x40#32
    else if c.fld (CN_STAT_MODE n) ≠ 1 then c0
    else
      let tec := c.fld (CN_ERRCNT_TEC n) + (if e = .transmit then 8 else 0)
      let rec_ := Nat.min 255 (c.fld (CN_ERRCNT_REC n) + (match e with
        | .receive | .exception => 1
        | .dominant => 8
        | _ => 0))
      let off := decide (256 ≤ tec)
      let passive := !off && (decide (128 ≤ tec) || decide (128 ≤ rec_))
      let (up, c1) := c0.setErr n (Nat.min tec 256) rec_
      let was := c.fld (CN_STAT_STATE n)
      let c2 := c1.setFld (CN_STAT_STATE n) (if off then 2 else if passive then 1 else 0)
      let c3 := if off then c2.onCan n fun x => { x with recover := c.flag (CN_CFG_AUTOREC n) } else c2
      c3.canIrq n (up ||| (if off then 0x10#32 else if passive && was == 0 then 0x8#32 else 0#32))

/-- RECOVER (R619). -/
def Chip.canRecover (c : Chip) (n : Nat) (v : Word) : Chip :=
  if v.getLsbD 31 && c.fld (CN_STAT_STATE n) == 2 then c.onCan n fun x => { x with recover := true } else c

/-- RECOVERED (R619): 128 occurrences of 11 recessive bits. -/
def Chip.canRecovered (c : Chip) (n : Nat) : Chip :=
  if !c.nxOn || c.fld (CN_STAT_STATE n) != 2 || !(c.can n).recover then c
  else
    let (_, c1) := c.setErr n 0 0
    ((c1.setFld (CN_STAT_STATE n) 0).onCan n fun x => { x with recover := false }).canIrq n 0x20#32

/-! ## Frames (R626 to R628) -/

/-- CAN_FRAME_SENT (R614, R626, R629). -/
def Chip.canSent (c : Chip) (n : Nat) (measured : Option (BitVec 7)) : Chip :=
  match if c.nxOn then (c.can n).attempt else none with
  | none => c
  | some (q, b, sof) =>
    let c1 := (c.onCan n fun x => { x with attempt := none }).bump (CN_TXOK_LO n) 1
    let c2 := match measured with
      | some d => if c.flag (CN_CFG_TDCEN n) && msgFlag b 1 && decide (c.fld (CN_TDC_TDCF n) ≤ d.toNat) then c1.setFld (CN_TDC_TDCV n) d.toNat else c1
      | none => c1
    let c3 := if q < 0x40 then (match c2.canRing n q with
        | some r => (c2.canTake r).onCan n fun x => { x with launched := x.launched.filter fun y => y.1 != q }
        | none => c2)
      else c2.onCan n fun x => { x with slots := x.slots.eraseP fun y => y.slot + 0x40 == q }
    ((c3.send (16 + n) b).canGood n (c.fld (CN_ERRCNT_TEC n) - 1) (c.fld (CN_ERRCNT_REC n))).canReport n b 0 q (some sof)

/-- Whether a frame passes the acceptance filters (R628). -/
def Chip.canAccepts (c : Chip) (n : Nat) (f : CanFrame) : Bool :=
  let on := (List.range 32).filter fun j => c.flag (CN_FILT_EN n j)
  on.isEmpty || on.any fun j => c.flag (CN_FILT_XTD n j) == f.xtd &&
    f.id &&& BitVec.ofNat 29 (c.fld (CN_FMASK_MASK n j)) == BitVec.ofNat 29 (c.fld (CN_FILT_ID n j)) &&& BitVec.ofNat 29 (c.fld (CN_FMASK_MASK n j))

/-- The ring message of a received frame (R621, R626). -/
def canMessage (f : CanFrame) (tq ft : Nat) : List Byte :=
  toBytes 4 (f.id.toNat + b2n f.xtd * 2 ^ 29 + b2n f.rtr * 2 ^ 30) ++ toBytes 1 f.dlc.val ++
    toBytes 1 (b2n f.fdf + b2n f.brs * 2 + b2n f.esi * 4) ++ toBytes 2 tq ++ toBytes 8 ft ++
    f.data.take (canBytes f.dlc.val f.fdf f.rtr)

/-- REC after a frame received without error: below 128 one less, else a value of 119 to 127 that the standard leaves
open (log entry 65). -/
def Chip.recAfterGood (c : Chip) (n : Nat) : Nat × Chip :=
  let r := c.fld (CN_ERRCNT_REC n)
  if r < 128 then (r - 1, c) else let (f, c1) := c.free 32; (119 + f % 9, c1)

/-- CAN_FRAME_RECEIVE (R626 to R628): `ago` ns ago its SOF was at the RX pin; an attempt of this controller has lost. -/
def Chip.canReceive (c : Chip) (n : Nat) (f : CanFrame) (ago : Nat) : Chip :=
  if !c.nxOn || c.fld (CN_STAT_MODE n) == 0 || decide (2 ≤ c.fld (CN_STAT_STATE n)) then c
  else
    let (r, c0) := c.recAfterGood n
    let c1 := ((c0.onCan n fun x => { x with attempt := none }).bump (CN_RXOK_LO n) 1).canGood n (c.fld (CN_ERRCNT_TEC n)) r
    let ring := c.fld (CN_RINGS0_RX n)
    if !c.canAccepts n f || decide (ring < 64) then c1
    else match c1.offerLive ring ⟨canMessage f (c.tqAt (c.mono - ago)) (c.fabricAt (c.mono - ago)), false, 0x13, none⟩ with
      | (.dropped, c2) => c2.canIrq n 0x80#32
      | (_, c2) => c2

/-! ## Launch times and cancellation (R625, R630, R631) -/

/-- LAUNCH_INSTANT (R625). -/
def Chip.canLaunch (c : Chip) (n q : Nat) : Chip :=
  match c.canHead n q with
  | some m =>
    let t := c.monoOf (msgTime m.bytes)
    if c.nxOn && msgFlag m.bytes 3 && decide (t ≤ c.mono) && (assocGet (c.can n).launched q).isNone then
      c.onCan n fun x => { x with launched := assocSet x.launched q t } else c
  | none => c

/-- CAN_LATE (R625): no SOF by the launch instant plus CN_LATE.US. -/
def Chip.canLate (c : Chip) (n q : Nat) : Chip :=
  match c.canHead n q, c.canRing n q with
  | some m, some r =>
    let t := (assocGet (c.can n).launched q).getD (c.monoOf (msgTime m.bytes))
    let busy := match (c.can n).attempt with
      | some (o, _, _) => o == q
      | none => false
    if !c.nxOn || !msgFlag m.bytes 3 || busy || decide (c.mono < t + c.fld (CN_LATE_US n) * 1000) then c
    else
      let c1 := (c.canTake r).onCan n fun x => { x with launched := x.launched.filter fun y => y.1 != q }
      ((c1.bump (CN_LATECNT_LO n) 1).canReport n m.bytes 2 q none).canIrq n 0x100#32
  | _, _ => c

/-- The place of the oldest message of a ring with a TOKEN that has not been cancelled. -/
def Chip.tokenPlace (c : Chip) (r tok : Nat) : Option Nat :=
  (List.range (c.pool.ring r).queue.length).find? fun i => (match (c.pool.ring r).queue[i]? with
    | some m => msgToken m.bytes == tok
    | none => false) && !c.pool.voids.contains (r, i)

/-- Writes CN_CANCELSTAT (R630): 0 CANCELLED, 1 ARBITRATING, 2 NOTFOUND. -/
def Chip.cancelStat (c : Chip) (n tok result : Nat) : Chip :=
  c.setFlds [(CN_CANCELSTAT_VALID n, 1), (CN_CANCELSTAT_TOKEN n, tok), (CN_CANCELSTAT_RESULT n, result)]

/-- Cancels a message in a ring: `code` is its queue or slot as R629 names it, `active` whether the ring's head is on the
bus. -/
def Chip.cancelInRing (c : Chip) (n r tok code : Nat) (active : Bool) : Chip :=
  match c.tokenPlace r tok with
  | none => c.cancelStat n tok 2
  | some i =>
    if i = 0 ∧ active then c.cancelStat n tok 1
    else
      let b := match (c.pool.ring r).queue[i]? with
        | some m => m.bytes
        | none => []
      let c1 := if i = 0 then (c.canTake r).onCan n fun x => { x with launched := x.launched.filter fun y => y.1 != code }
        else { c with pool := { c.pool with voids := c.pool.voids ++ [(r, i)] } }
      (c1.cancelStat n tok 0).canReport n b 1 code none

/-- Whether the attempt on the bus has a code. -/
def Chip.canActive (c : Chip) (n code : Nat) : Bool := match (c.can n).attempt with
  | some (q, _, _) => q == code
  | none => false

/-- CAN_CANCEL (R630, R631): a write of CN_CANCEL. -/
def Chip.canCancel (c : Chip) (n : Nat) (v : Word) : Chip :=
  let i := getF (CN_CANCEL_INDEX n) v
  let tok := getF (CN_CANCEL_TOKEN n) v
  if !v.getLsbD 23 then
    let r := c.fld (CN_TXQ_RING n i)
    if 4 ≤ i ∨ r < 64 then c.cancelStat n tok 2 else c.cancelInRing n r tok i (c.canActive n i)
  else if 64 ≤ i then c.cancelStat n tok 2
  else
    let mine := (c.can n).slots.find? fun x => x.slot == i && !x.again && msgToken x.msg == tok
    match mine with
    | some x =>
      if c.canActive n (0x40 + i) then c.cancelStat n tok 1
      else ((c.onCan n fun y => { y with slots := y.slots.erase x }).cancelStat n tok 0).canReport n x.msg 1 (0x40 + i) none
    | none =>
      let r := c.fld (CN_SLOT_RING n i)
      if r < 64 then c.cancelStat n tok 2 else c.cancelInRing n r tok (0x40 + i) false

/-! ## The schedule matrix (R632 to R635) -/

/-- CAN_BASIC_CYCLE (R632, R635): the first firing whose instant has come; firings of other schedules pass. -/
def Chip.basicCycle (c : Chip) (n : Nat) : Chip :=
  if !c.nxOn then c
  else match (c.can n).firings.find? fun f => decide (f.2.2 ≤ c.mono) && c.flag (CN_TTCFG_EN n) && f.1 == c.fld (CN_TTCFG_SCHED n) with
    | none => c.onCan n fun x => { x with firings := x.firings.filter fun f => decide (c.mono < f.2.2) }
    | some (_, k, m) =>
      let num := k % 2 ^ c.fld (CN_TTCFG_NCYC n)
      (c.setFld (CN_TTSTAT_CYC n) num).onCan n fun x => { x with
        firings := x.firings.filter fun f => decide (m < f.2.2)
        cycles := ⟨m, num, []⟩ :: x.cycles.filter fun b => decide (m < b.at_ + 65536000) }

/-- Marks a slot as served in the basic cycle that began at an instant. -/
def BasicCycle.serve (m slot : Nat) (b : BasicCycle) : BasicCycle := { b with done := if b.at_ = m then slot :: b.done else b.done }

/-- Puts a slot message among those that wait, in slot-number order. -/
def insertSlot (x : SlotMsg) : List SlotMsg → List SlotMsg
  | [] => [x]
  | y :: ys => if x.slot < y.slot then x :: y :: ys else y :: insertSlot x ys

/-- A slot that has fallen due: the candidate, or one that waits behind it (R633). -/
def Can.addSlot (x : Can) (m : SlotMsg) : Can :=
  match x.slots with
  | [] => { x with slots := [m] }
  | y :: ys => { x with slots := y :: insertSlot m ys }

/-- SLOT_DUE (R632, R633): a slot whose instant has come in a basic cycle takes its message. -/
def Chip.slotDue (c : Chip) (n s : Nat) : Chip :=
  let off := c.fld (CN_SLOTT_OFFSET n s) * 1000
  match (c.can n).cycles.reverse.find? fun b => decide (b.at_ + off ≤ c.mono) && !b.done.contains s with
  | none => c
  | some b =>
    let c1 := c.onCan n fun x => { x with cycles := x.cycles.map (BasicCycle.serve b.at_ s) }
    if !c.nxOn || !c.flag (CN_SLOT_EN n s) || !bitAt (c.fld (CN_SLOTT_COLMASK n s)) b.num then c1
    else
      let r := c.fld (CN_SLOT_RING n s)
      let head := if 64 ≤ r ∧ (c.pool.ring r).cons = 0x13 then c.head? r else none
      match head with
      | some m => (c1.canTake r).onCan n fun x => ({ x with last := assocSet x.last s m.bytes }).addSlot ⟨s, b.at_ + off, m.bytes, false⟩
      | none => match if c.flag (CN_SLOT_REPEAT n s) then assocGet (c.can n).last s else none with
        | some m => c1.onCan n fun x => x.addSlot ⟨s, b.at_ + off, m, true⟩
        | none => c1

/-- SLOTMISS (R634). -/
def Chip.slotMiss (c : Chip) (n s : Nat) : Chip :=
  match (if c.canActive n (0x40 + s) then (c.can n).slots.tail else (c.can n).slots).find? fun x => x.slot == s with
  | none => c
  | some x =>
    if !c.nxOn || decide (c.mono < x.at_ + c.fld (CN_LATE_US n) * 1000) then c
    else
      let c1 := (c.onCan n fun y => { y with slots := y.slots.erase x }).bump (CN_LATECNT_LO n) 1
      (c1.canReport n x.msg 2 (0x40 + s) none).canIrq n 0x200#32

/-- A block reset of a controller (R637): error state, SOF and slot state and the TDC measurement go; it returns to its
MODE through bus integration. -/
def Chip.canReset (c : Chip) (n : Nat) : Chip :=
  let go := c.fld (CN_CFG_MODE n) != 0
  ((c.setReg (CN_ERRCNT n) 0#32).setFlds [(CN_STAT_STATE n, if go then 3 else 0), (CN_STAT_MODE n, 0), (CN_STAT_EWTXL n, 0),
    (CN_STAT_EWRXL n, 0), (CN_TDC_TDCV n, 0)]).onCan n fun _ => { Can.idle with moving := go }

/-! ## The commands -/

/-- CAN_MODE_WRITE (R613). -/
def execCanModeWrite (src : Island) (ctl : CanCtl) (value : Word) (m : State) : Out :=
  .next (m.onChip fun c => c.whenOn src.val (CN_CFG ctl.val) fun c => c.canCfg ctl.val value)

/-- BUS_INTEGRATION (R617). -/
def execBusIntegration (ctl : CanCtl) (m : State) : Out := .next (m.onChip fun c => c.busIntegration ctl.val)

/-- BIT_TIMING_WRITE (R612). -/
def execBitTimingWrite (src : Island) (ctl : CanCtl) (data : Bool) (value : Word) (m : State) : Out :=
  .next (m.onChip fun c => c.whenOn src.val (CN_NBT ctl.val) fun c => c.canTiming ctl.val data value)

/-- CAN_ARBITRATION (R624). -/
def execCanArbitration (ctl : CanCtl) (m : State) : Out := .next (m.onChip fun c => c.canArbitrate ctl.val)

/-- CAN_FRAME_SENT (R626). -/
def execCanFrameSent (ctl : CanCtl) (measured : Option (BitVec 7)) (m : State) : Out :=
  .next (m.onChip fun c => c.canSent ctl.val measured)

/-- CAN_FRAME_RECEIVE (R627). -/
def execCanFrameReceive (ctl : CanCtl) (frame : CanFrame) (ago : BitVec 32) (m : State) : Out :=
  .next (m.onChip fun c => c.canReceive ctl.val frame ago.toNat)

/-- CAN_ERROR (R618). -/
def execCanError (ctl : CanCtl) (err : CanErr) (m : State) : Out := .next (m.onChip fun c => c.canError ctl.val err)

/-- RECOVER (R619). -/
def execRecover (src : Island) (ctl : CanCtl) (value : Word) (m : State) : Out :=
  .next (m.onChip fun c => c.whenOn src.val (CN_CTL ctl.val) fun c => c.canRecover ctl.val value)

/-- RECOVERED (R619). -/
def execRecovered (ctl : CanCtl) (m : State) : Out := .next (m.onChip fun c => c.canRecovered ctl.val)

/-- LAUNCH_INSTANT (R625). -/
def execLaunchInstant (ctl : CanCtl) (queue : Fin 4) (m : State) : Out := .next (m.onChip fun c => c.canLaunch ctl.val queue.val)

/-- CAN_LATE (R625). -/
def execCanLate (ctl : CanCtl) (queue : Fin 4) (m : State) : Out := .next (m.onChip fun c => c.canLate ctl.val queue.val)

/-- CAN_CANCEL (R630). -/
def execCanCancel (src : Island) (ctl : CanCtl) (value : Word) (m : State) : Out :=
  .next (m.onChip fun c => c.whenOn src.val (CN_CANCEL ctl.val) fun c => c.canCancel ctl.val value)

/-- CAN_BASIC_CYCLE (R632). -/
def execCanBasicCycle (ctl : CanCtl) (m : State) : Out := .next (m.onChip fun c => c.basicCycle ctl.val)

/-- SLOT_DUE (R633). -/
def execSlotDue (ctl : CanCtl) (slot : Fin 64) (m : State) : Out := .next (m.onChip fun c => c.slotDue ctl.val slot.val)

/-- SLOTMISS (R634). -/
def execSlotmiss (ctl : CanCtl) (slot : Fin 64) (m : State) : Out := .next (m.onChip fun c => c.slotMiss ctl.val slot.val)

end Sys2Proof.Machine
end

