-- ==== Sys2Proof/Machine/Crypto.lean ====
section
/-!
DEFINITION. The verification of an ECDSA P-384 signature as FIPS 186 defines it, over lists of bytes (R743, R749, R758, R764). Signing uses a key that no path reads out, so a signature made is a free value.
-/

namespace Sys2Proof.Machine

/-! ## P-384 -/

/-- The field's prime. -/
def p384P : Nat := 2 ^ 384 - 2 ^ 128 - 2 ^ 96 + 2 ^ 32 - 1

/-- The order of the base point. -/
def p384N : Nat := 0xffffffffffffffffffffffffffffffffffffffffffffffffc7634d81f4372ddf581a0db248b0a77aecec196accc52973

/-- The curve's coefficient b (a is -3). -/
def p384B : Nat := 0xb3312fa7e23ee7e4988e056be3f82d19181d9c6efe8141120314088f5013875ac656398d8a2ed19d2a85c8edd3ec2aef

/-- The base point. -/
def p384G : Nat × Nat :=
  (0xaa87ca22be8b05378eb1c71ef320ad746e1d3b628ba79b9859f741e082542a385502f25dbf55296c3a545e3872760ab7,
   0x3617de4a96262c6f5d9e98bf9292dc29f8f41dbd289a147ce9da3113b5f0b8c00a60b1ce1d7e819d7a431d7c90ea0e5f)

/-- Modular power by squaring, over at most `fuel` bits of the exponent. -/
def powMod (m : Nat) : Nat → Nat → Nat → Nat
  | 0, _, _ => 1 % m
  | fuel + 1, b, e =>
    let h := powMod m fuel (b * b % m) (e / 2)
    if e % 2 = 1 then h * b % m else h

/-- The inverse modulo a prime. -/
def invMod (m x : Nat) : Nat := powMod m 384 (x % m) (m - 2)

/-- A difference modulo p. -/
def subP (a b : Nat) : Nat := (a + p384P - b % p384P) % p384P

/-- A point in Jacobian coordinates: (x, y, z) stands for (x / z², y / z³), z = 0 for the point at infinity. -/
structure JPoint where
  x : Nat
  y : Nat
  z : Nat
  deriving DecidableEq, Repr

/-- Twice a point. -/
def ptDouble (p : JPoint) : JPoint :=
  if p.z = 0 ∨ p.y = 0 then ⟨1, 1, 0⟩
  else
    let d := p.z * p.z % p384P
    let g := p.y * p.y % p384P
    let b := p.x * g % p384P
    let a := 3 * (subP p.x d) * (p.x + d) % p384P
    let x3 := subP (a * a) (8 * b)
    ⟨x3, subP (a * subP (4 * b) x3) (8 * g * g), 2 * p.y * p.z % p384P⟩

/-- The sum of two points. -/
def ptAdd (p q : JPoint) : JPoint :=
  if p.z = 0 then q
  else if q.z = 0 then p
  else
    let pz := p.z * p.z % p384P
    let qz := q.z * q.z % p384P
    let u1 := p.x * qz % p384P
    let u2 := q.x * pz % p384P
    let s1 := p.y * qz * q.z % p384P
    let s2 := q.y * pz * p.z % p384P
    if u1 = u2 then (if s1 = s2 then ptDouble p else ⟨1, 1, 0⟩)
    else
      let h := subP u2 u1
      let r := subP s2 s1
      let v := u1 * (h * h % p384P) % p384P
      let w := h * h * h % p384P
      let x3 := subP (r * r) (w + 2 * v)
      ⟨x3, subP (r * subP v x3) (s1 * w), h * p.z * q.z % p384P⟩

/-- A multiple of a point, by the lowest `fuel` bits. -/
def ptMul : Nat → Nat → JPoint → JPoint
  | 0, _, _ => ⟨1, 1, 0⟩
  | fuel + 1, k, p =>
    let h := ptDouble (ptMul fuel (k / 2) p)
    if k % 2 = 1 then ptAdd h p else h

/-- The right side of the curve's equation. -/
def curveRhs (x : Nat) : Nat := subP (x * x * x + p384B) (3 * x)

/-- Whether a pair is a point of the curve. -/
def onCurve (q : Nat × Nat) : Bool := decide (q.1 < p384P ∧ q.2 < p384P ∧ q.2 * q.2 % p384P = curveRhs q.1)

/-- Whether a signature (r then s) of a message verifies against a point (R749, R758). -/
def ecdsaOk (q : Nat × Nat) (msg sig : List Byte) : Bool :=
  let r := ofBytesBE (sig.take 48)
  let s := ofBytesBE ((sig.drop 48).take 48)
  let z := ofBytesBE (sha384 msg)
  if sig.length ≠ 96 ∨ r = 0 ∨ s = 0 ∨ p384N ≤ r ∨ p384N ≤ s ∨ !onCurve q then false
  else
    let w := invMod p384N s
    let t := ptAdd (ptMul 384 (z * w % p384N) ⟨p384G.1, p384G.2, 1⟩) (ptMul 384 (r * w % p384N) ⟨q.1, q.2, 1⟩)
    t.z != 0 && t.x * invMod p384P (t.z * t.z) % p384P % p384N == r

/-- An uncompressed public key: 0x04, X, Y (R749). -/
def pubFull (b : List Byte) : Option (Nat × Nat) :=
  if b.length = 97 ∧ b.getD 0 0#8 = 4#8 then some (ofBytesBE ((b.drop 1).take 48), ofBytesBE (b.drop 49)) else none

/-- A compressed public key: 0x02 or 0x03, then X (R764). -/
def pubShort (b : List Byte) : Option (Nat × Nat) :=
  let t := (b.getD 0 0#8).toNat
  let x := ofBytesBE (b.drop 1)
  let y := powMod p384P 384 (curveRhs x) ((p384P + 1) / 4)
  if b.length = 49 ∧ (t = 2 ∨ t = 3) then some (x, if y % 2 = t % 2 then y else p384P - y) else none

/-- Whether a signature verifies against a public key given as bytes. -/
def sigOk (pub : Option (Nat × Nat)) (msg sig : List Byte) : Bool := match pub with
  | some q => ecdsaOk q msg sig
  | none => false

end Sys2Proof.Machine
end

