-- ==== Sys2Proof/Machine/Storage.lean ====
section
/-!
DEFINITION. The internal flash, its controller in island ST, and the Breath check (R692 to R710).
-/

namespace Sys2Proof.Machine

/-! ## Pages and units -/

/-- Changes the flash. -/
def Chip.onFlash (c : Chip) (f : Flash → Flash) : Chip := { c with flash := f c.flash }

/-- A logical unit. -/
def Flash.unit (f : Flash) (u : Nat) : UnitRec := mapGet UnitRec.fresh f.units u

/-- The physical unit of a logical unit. -/
def Flash.phys (f : Flash) (u : Nat) : Nat := (f.unit u).moved.getD u

/-- The bank of a physical unit (log entry 67). -/
def bankOf (p : Nat) : Nat := Config.unitBank p % 4

/-- The bank of a logical unit. -/
def Flash.bank (f : Flash) (u : Nat) : Nat := bankOf (f.phys u)

/-- The queue of a bank. -/
def Flash.queue (f : Flash) (b : Nat) : List FlashReq := mapGet [] f.queues b

/-- Writes the queue of a bank. -/
def Flash.setQueue (f : Flash) (b : Nat) (q : List FlashReq) : Flash := { f with queues := mapSet [] f.queues b q }

/-- Writes a logical unit. -/
def Flash.setUnit (f : Flash) (u : Nat) (r : UnitRec) : Flash := { f with units := mapSet UnitRec.fresh f.units u r }

/-- The number of a page of a logical unit. -/
def Flash.pageNo (f : Flash) (u i : Nat) : Nat := f.phys u * 1024 + i

/-- A page's data. -/
def Flash.page (f : Flash) (n : Nat) : PageData := mapGet PageData.factory f.pages n

/-- Writes a page. -/
def Flash.setPage (f : Flash) (n : Nat) (p : PageData) : Flash := { f with pages := mapSet PageData.factory f.pages n p }

/-- Whether a page has been programmed since its unit's last erase (R694). -/
def Flash.programmed (f : Flash) (n : Nat) : Bool :=
  match f.page n with
  | .factory => Config.factoryProgrammed n
  | .erased => false
  | .bytes _ | .open_ => true

/-- Whether a unit is half-erased: its last erase-started marker has no erase-complete marker (R699). -/
def UnitRec.half (r : UnitRec) : Bool := r.started != r.completed && !r.erasing

/-- The bytes of a page; those of a page that is programmed but undefined, and of the unit directory, whose format the spec
does not give, are free values (R692, R710). -/
def Chip.pageBytes (c : Chip) (n : Nat) : List Byte × Chip :=
  let free := ((List.range 16384).map fun i => (Config.freeValue (c.freeCtr + i)).truncate 8, { c with freeCtr := c.freeCtr + 16384 })
  if n < 2048 then free
  else match c.flash.page n with
    | .factory => ((List.range 16384).map fun i => Config.factoryByte (n * 16384 + i), c)
    | .erased => (List.replicate 16384 0xFF#8, c)
    | .bytes cells => ((List.range 16384).map fun i => mapGet 0#8 cells i, c)
    | .open_ => free

/-- The bytes of several pages in order. -/
def Chip.pagesBytes (c : Chip) (u first : Nat) : Nat → List Byte × Chip
  | 0 => ([], c)
  | k + 1 =>
    let (b, c) := c.pageBytes (c.flash.pageNo u first)
    let (bs, c) := c.pagesBytes u (first + 1) k
    (b ++ bs, c)

/-- The bytes of a page that are not 0, by place. -/
def cellsOf : Nat → List Byte → List (Nat × Byte)
  | _, [] => []
  | i, b :: bs => if b = 0#8 then cellsOf (i + 1) bs else (i, b) :: cellsOf (i + 1) bs

/-- Programs pages with bytes, a page at a time. -/
def Flash.program (f : Flash) (u first : Nat) (bs : List Byte) : Nat → Flash
  | 0 => f
  | k + 1 => (f.setPage (f.pageNo u first) (.bytes (cellsOf 0 (bs.take 16384)))).program u (first + 1) (bs.drop 16384) k

/-- Erases the pages of a physical unit. -/
def Flash.erasePhys (f : Flash) (p : Nat) : Flash :=
  (List.range 1024).foldl (fun f i => f.setPage (p * 1024 + i) .erased) f

/-! ## Admission (R706 to R709) -/

/-- What an operation needs of the hold-up energy, in 0.1 mJ: 1.5 × W + Q (R707). -/
def needErase : Nat := 1303500
def needProgram : Nat := 1243125
def needKey : Nat := 1213800
def needFlush : Nat := 10350

/-- Whether the Breath check passes for an operation other than a flush segment (R707, R709). -/
def Chip.breath (c : Chip) (need : Nat) : Bool := decide (need ≤ c.energy) && c.power.failAt.isNone

/-- Counts an operation deferred under R708. -/
def Chip.countDeferred (c : Chip) : Chip :=
  let n := c.fld PW_HOLDUP_DEFERRED
  c.setFld PW_HOLDUP_DEFERRED (if n < 255 then n + 1 else 255)

/-- Writes BT_FLSTAT for a request that reports (R694). -/
def Chip.flashStatus (c : Chip) (tag : Option Nat) (result : Nat) : Chip :=
  match tag with
  | some t => c.setFlds [(BT_FLSTAT_VALID, 1), (BT_FLSTAT_TAG, t), (BT_FLSTAT_RESULT, result)]
  | none => c

/-- The energy an operation needs. -/
def FlashReq.need (r : FlashReq) : Nat := if r.op = 2 then needErase else needProgram

/-- A store operation is admitted: an erase writes its erase-started marker (R697). -/
def Flash.accept (f : Flash) (b : Nat) (r : FlashReq) (rest : List FlashReq) : Flash :=
  let f := f.setQueue b ({ r with admitted := true } :: rest)
  if r.op = 2 then
    let u := f.unit r.unit
    f.setUnit r.unit { u with started := u.started + 1, erasing := true }
  else f

/-- BREATH_CHECK (R707 to R709): the store operation at the head of a bank. -/
def Chip.breathCheck (c : Chip) (b : Nat) : Chip :=
  match c.flash.queue b with
  | [] => c
  | r :: rest =>
    if r.op = 0 || r.admitted || !c.islandOn 0x14 then c
    else match r.deferAt with
      | none =>
        if c.breath r.need then c.onFlash fun f => f.accept b r rest
        else ((c.onFlash fun f => f.setQueue b ({ r with deferAt := some c.mono } :: rest)).countDeferred).flashStatus r.tag 2
      | some t =>
        if c.mono < t + 10000000 then c
        else if c.breath r.need then c.onFlash fun f => f.accept b r rest
        else c.onFlash fun f => f.setQueue b ({ r with deferAt := some c.mono } :: rest)

/-- HOLDUP_ENERGY_UPDATE (R706): the bank voltage in mV; Vmin is 20.0 V. -/
def Chip.holdupEnergy (c : Chip) (mv : Nat) (charging : Bool) : Chip :=
  let e := c.test.capNow * (mv * mv - 400000000) / 160000
  let q := e / 2500
  ({ c with energy := e }).setFlds
    [(PW_HOLDUP_CHARGING, b2n charging), (PW_HOLDUP_BELOWRES, b2n (decide (e < 1200000))), (PW_HOLDUP_EAVAIL, if q < 4095 then q else 4095)]

/-! ## Requests (R692 to R696, R704) -/

/-- Whether a unit belongs to the recovery section that runs (R772): units 126 to 133 are section A, 254 to 261 section B. -/
def Chip.runsFrom (c : Chip) (u : Nat) : Bool :=
  c.mode == 1 && match c.sec.recSect with
    | some r => let first := if r = 0 then 126 else 254; decide (first ≤ u ∧ u < first + 8)
    | none => false

/-- Whether a requester may write a region now (R692, R693, R772). -/
def State.mayWriteUnit (s : State) (src u : Nat) : Bool :=
  let m := s.chip.mode
  if u < 2 || 3968 ≤ u || s.chip.runsFrom u then false
  else if u < 6 || (278 ≤ u && u < 342) then src == 0x15
  else if u < 278 then src == 0x15 && s.chip.sec.upd.isSome
  else decide (src < 8) && (m == 3 || m == 2 || m == 7 || m == 4 || m == 6) &&
    match s.cores[src]? with
    | some k => k.isX
    | none => false

/-- Whether a page will be programmed once the operations before it in its bank's queue have run. -/
def pageAfter (u i : Nat) : Bool → List FlashReq → Bool
  | p, [] => p
  | p, r :: rs =>
    pageAfter u i (if r.unit != u then p else if r.op == 2 then false else if r.op == 1 && decide (r.first ≤ i ∧ i < r.first + r.count) then true else p) rs

/-- Whether a program request would touch a page programmed since the unit's last erase (R694). -/
def Flash.notErased (f : Flash) (u first count : Nat) : Bool :=
  (List.range count).any fun i => pageAfter u (first + i) (f.programmed (f.pageNo u (first + i))) (f.queue (f.bank u))

/-- Whether bytes lie in DRAM that can be reached: in RECOVERY nothing reaches it (R844). -/
def Chip.dramSpan (c : Chip) (a n : Nat) : Bool := c.mode != 1 && inDram a n

/-- The refusal of a request, if any: BADADDR, PROTECTED, SAMEBANK, RETIRED, NOTERASED, FULL (R693 to R695, R702, R704). -/
def State.flashRefusal (s : State) (r : FlashReq) (fetch : Option Nat) : Option Nat :=
  let f := s.chip.flash
  if r.op == 3 || (r.op != 2 && (decide (1024 < r.first + r.count) || !s.chip.dramSpan r.addr (r.count * 16384))) then some 6
  else if r.op != 0 && !s.mayWriteUnit r.src r.unit then some 5
  else if r.op != 0 && (match fetch with | some p => bankOf p == f.bank r.unit | none => false) then some 3
  else if (f.unit r.unit).gone then some 4
  else if r.op == 1 && f.notErased r.unit r.first r.count then some 9
  else if 8 ≤ (f.queue (f.bank r.unit)).length then some 8
  else none

/-- A write of BT_FLREQ: the request is queued or refused (R694, R695). -/
def State.flashRequest (s : State) (src op : Nat) (v : Word) (fetch : Option Nat) : State :=
  let c := s.chip
  let len := c.reg (banked BT_FLLEN src)
  let r : FlashReq :=
    { src := src, op := op, tag := some (getF BT_FLREQ_TAG v), unit := getF BT_FLREQ_UNIT v, first := getF BT_FLLEN_FIRST len
      count := getF BT_FLLEN_PAGESM1 len + 1, addr := (c.reg (banked BT_FLADDR src)).toNat * 4096, admitted := false, deferAt := none }
  match s.flashRefusal r fetch with
  | some code => s.onChip fun c => c.flashStatus r.tag code
  | none => s.onChip fun c =>
    (c.onFlash fun f => f.setQueue (f.bank r.unit) (f.queue (f.bank r.unit) ++ [r])).flashStatus r.tag 1

/-! ## Completion (R696 to R702) -/

/-- The erase counter at which a unit is retired (R697). -/
def retireAt : Nat := 30000

/-- The first spare of a bank, else the first of any (R701). -/
def Flash.nextSpare (f : Flash) (b : Nat) : Option Nat :=
  match f.spares.find? fun p => bankOf p == b with
  | some p => some p
  | none => f.spares.head?

/-- Shows the spare units left (BT_SPARES). -/
def Chip.showSpares (c : Chip) : Chip := c.setFld BT_SPARES_N c.flash.spares.length

/-- The default capacity of a stream in units of 65,536 records (R715). -/
def defaultCap (st : Nat) : Nat :=
  if st < 16 then 2 else if st < 28 then 8 else if st = 28 then 63 else if st < 31 then 32 else 1

/-- A stream's capacity in units. -/
def Recorder.cap (r : Recorder) (st : Nat) : Nat := match mapGet 0 r.caps st with
  | 0 => defaultCap st
  | k + 1 => k

/-- Sets a stream's capacity. -/
def Recorder.setCap (r : Recorder) (st n : Nat) : Recorder := { r with caps := mapSet 0 r.caps st (n + 1) }

/-- Takes `n` units of capacity from streams in the order given (R703). -/
def Recorder.takeUnits (r : Recorder) : Nat → List Nat → Recorder
  | _, [] => r
  | n, st :: sts =>
    let k := if n < r.cap st then n else r.cap st
    (r.setCap st (r.cap st - k)).takeUnits (n - k) sts

/-- The order in which an unmapped unit of the log takes capacity: streams 15 to 0, then 27 to 16 (R703). -/
def capOrder : List Nat := (List.range 16).reverse ++ ((List.range 12).map (16 + ·)).reverse

/-- A retired unit is mapped to a spare, or stays unmapped, which shrinks the log (R701 to R703). -/
def Chip.retireUnit (c : Chip) (u : Nat) : Chip :=
  match c.flash.nextSpare (c.flash.bank u) with
  | some p =>
    (c.onFlash fun f => { (f.setUnit u { UnitRec.fresh with moved := some p }) with spares := f.spares.filter (· != p) }).showSpares
  | none =>
    let c := (c.onFlash fun f => f.setUnit u { f.unit u with gone := true }).raise 0x1603 6 0x14 (toBytes 2 u)
    if 278 ≤ u && u < 342 then { c with recorder := c.recorder.takeUnits 4 capOrder } else c

/-- The end of an erase: the pages read all ones, the erase-complete marker is written, a worn unit is retired (R697). -/
def Chip.eraseDone (c : Chip) (u : Nat) : Chip :=
  let r := c.flash.unit u
  let c := c.onFlash fun f => (f.erasePhys (f.phys u)).setUnit u { r with completed := r.started, erasing := false }
  if retireAt ≤ r.started then c.retireUnit u else c

/-- Whether a request is the controller's own erase of a half-erased unit (R699). -/
def FlashReq.again (r : FlashReq) : Bool := r.op == 2 && r.tag.isNone

/-- The operation a bank performs next: the head where it has been admitted or is a read; while the controller's own erase is
deferred, a read behind it (R699). -/
def nextOp (q : List FlashReq) : Option FlashReq :=
  match q.dropWhile fun r => r.again && !r.admitted with
  | r :: _ => if r.op = 0 || r.admitted then some r else none
  | [] => none

/-- Performs an operation and reports it; in RECOVERY one that needs DRAM finds none (R844). -/
def State.flashPerform (s : State) (b : Nat) (r : FlashReq) : State :=
  let s := s.onChip fun c => c.onFlash fun f => f.setQueue b ((f.queue b).erase r)
  if r.op != 2 && s.chip.mode == 1 then s.onChip fun c => c.flashStatus r.tag 6
  else match r.op with
  | 0 =>
    let half := (s.chip.flash.unit r.unit).half
    let (bs, c) := s.chip.pagesBytes r.unit r.first r.count
    (({ s with chip := c }).dmaPut 0x14 r.addr bs).onChip fun c => c.flashStatus r.tag (if half then 0xA else 0)
  | 1 =>
    let bs := memBytes s.mem (r.count * 16384) r.addr
    s.onChip fun c => (c.onFlash fun f => f.program r.unit r.first bs r.count).flashStatus r.tag 0
  | _ => s.onChip fun c => (c.eraseDone r.unit).flashStatus r.tag 0

/-- FLASH_OPERATION_COMPLETE, while ST has its clock (R100). -/
def State.flashComplete (s : State) (b : Nat) : State :=
  if !s.chip.islandOn 0x14 then s
  else match nextOp (s.chip.flash.queue b) with
    | none => s
    | some r => s.flashPerform b r

/-! ## The directory scan (R699, R700) and a block reset of ST (R133) -/

/-- Queues the controller's own erase of a half-erased unit first in its bank. -/
def Flash.reErase (f : Flash) (u : Nat) : Flash :=
  let b := f.bank u
  let own := fun r : FlashReq => r.again && r.unit == u
  if (f.queue b).any own then f
  else f.setQueue b (⟨0x14, 2, none, u, 0, 0, 0, false, none⟩ :: f.queue b)

/-- The scan of one unit: an erase interrupted leaves it half-erased; an erase-complete marker without its erase-started
marker is ignored. -/
def Chip.scanUnit (c : Chip) (u : Nat) : Chip :=
  let r := { c.flash.unit u with erasing := false }
  let c := c.onFlash fun f => f.setUnit u r
  if r.started < r.completed then
    (c.onFlash fun f => f.setUnit u { r with completed := r.started }).raise 0x1602 3 0x14
      (toBytes 2 u ++ [0#8, 0#8] ++ toBytes 4 r.completed)
  else if r.half then (c.onFlash fun f => f.reErase u).raise 0x1601 3 0x14 (toBytes 2 u ++ [0#8, 0#8] ++ toBytes 4 r.started)
  else c

/-- The directory scan. -/
def Chip.directoryScan (c : Chip) : Chip := (c.flash.units.map Prod.fst).foldl Chip.scanUnit c

/-- What a program or an erase that a reset or a power loss ends leaves: pages whose bits are undefined, until they are erased again (R699, R710). -/
def Flash.interrupt (f : Flash) (r : FlashReq) : Flash :=
  if r.op == 0 || !r.admitted then f
  else
    let (first, n) := if r.op = 2 then (0, 1024) else (r.first, r.count)
    (List.range n).foldl (fun f i => f.setPage (f.pageNo r.unit (first + i)) .open_) f

/-- The queues emptied with the operations in progress ended. -/
def Flash.abort (f : Flash) : Flash :=
  { ((f.queues.map Prod.snd).flatten.foldl Flash.interrupt f) with queues := [] }

/-- A block reset of ST removes the queued requests with ABANDONED (R133) and scans the directory (R699). -/
def Chip.flashReset (c : Chip) : Chip :=
  let rs := (c.flash.queues.map Prod.snd).flatten
  let c := rs.foldl (fun c r => c.flashStatus r.tag 7) c
  (c.onFlash Flash.abort).directoryScan

/-! ## Meanings -/

/-- FLASH_READ. -/
def execFlashRead (src : Island) (value : Word) (m : State) : Out :=
  .next (m.whenOn src.val BT_FLREQ fun m => m.flashRequest src.val 0 value none)

/-- FLASH_PROGRAM: `fetch` is the physical unit that the issuing core fetches from, if any. -/
def execFlashProgram (src : Island) (value : Word) (fetch : Option (BitVec 12)) (m : State) : Out :=
  .next (m.whenOn src.val BT_FLREQ fun m => m.flashRequest src.val 1 value (fetch.map BitVec.toNat))

/-- FLASH_ERASE. -/
def execFlashErase (src : Island) (value : Word) (fetch : Option (BitVec 12)) (m : State) : Out :=
  .next (m.whenOn src.val BT_FLREQ fun m => m.flashRequest src.val 2 value (fetch.map BitVec.toNat))

/-- FLASH_OPERATION_COMPLETE. -/
def execFlashOperationComplete (bank : Fin 4) (m : State) : Out := .next (m.flashComplete bank.val)

/-- BREATH_CHECK. -/
def execBreathCheck (bank : Fin 4) (m : State) : Out := .next (m.onChip fun c => c.breathCheck bank.val)

/-- HOLDUP_ENERGY_UPDATE. -/
def execHoldupEnergyUpdate (mv : BitVec 16) (charging : Bool) (m : State) : Out :=
  .next (m.onChip fun c => c.holdupEnergy mv.toNat charging)

/-- BT_RAMPGM (R705): the request is issued from the management core's local SRAM. -/
def execBtRampgm (value : Word) (m : State) : Out :=
  .next (m.whenOn 0x15 BT_FLREQ fun m => m.flashRequest 0x15 (getF BT_FLREQ_OP value) value none)

end Sys2Proof.Machine
end

