-- ==== Sys2Proof/Machine/Recorder.lean ====
section
/-!
DEFINITION. The event recorder: merging, the volatile buffer, the log and its full policies, reading and clearing, and the
alarm list (R711 to R729, R808, R809).
-/

namespace Sys2Proof.Machine

/-- Whether a sequence number is at or above another in serial-number order (R711). -/
def serialGe (a b : Nat) : Bool := decide ((a + 2 ^ 32 - b % 2 ^ 32) % 2 ^ 32 < 2 ^ 31)

/-- The 64 bytes of a record (R711). -/
def EvRec.bytes (r : EvRec) : List Byte :=
  let b := toBytes 4 r.seq ++ toBytes 1 r.stream ++ toBytes 1 r.sev ++ toBytes 2 r.code ++ toBytes 8 r.opms ++ toBytes 4 r.pwr ++
    toBytes 2 r.rep ++ toBytes 1 r.tq ++ toBytes 1 r.flags ++ toBytes 8 r.first ++ toBytes 8 r.last ++ toBytes 4 r.src ++
    (r.data ++ List.replicate 16 0#8).take 16
  b ++ toBytes 4 (crc32 b)

/-! ## The alarm list (R808, R809) -/

/-- Shows the counts of the alarm list. -/
def Chip.showAlarms (c : Chip) : Chip :=
  let l := c.recorder.alarms
  c.setFlds [(MG_ALMSTAT_UNACK, (l.filter fun a => !a.acked).length), (MG_ALMSTAT_LISTED, l.length)]

/-- Whether a record is an alarm. -/
def EvRec.isAlarm (r : EvRec) : Bool := decide (5 ≤ r.sev ∧ 16 ≤ r.stream)

/-- The list without its oldest acknowledged entry, where it has one. -/
def dropAcked : List Alarm → Option (List Alarm)
  | [] => none
  | a :: l => if a.acked then some l else (dropAcked l).map (a :: ·)

/-- A new alarm enters the list (R808). -/
def Chip.listAlarm (c : Chip) (r : EvRec) : Chip :=
  let l := c.recorder.alarms
  if !r.isAlarm then c
  else if l.length < 256 then (c.onRec fun x => { x with alarms := l ++ [⟨r, false⟩] }).showAlarms
  else match dropAcked l with
    | some l' => (c.onRec fun x => { x with alarms := l' ++ [⟨r, false⟩] }).showAlarms
    | none => c.setFlag MG_ALMSTAT_OVF true

/-- A repeat of a record (R716): a listed one becomes unacknowledged, one that is now an alarm enters the list. -/
def Chip.repeatAlarm (c : Chip) (r : EvRec) : Chip :=
  if c.recorder.alarms.any fun a => a.rec_.seq == r.seq then
    (c.onRec fun x => { x with alarms := x.alarms.map fun a => if a.rec_.seq == r.seq then ⟨r, false⟩ else a }).showAlarms
  else c.listAlarm r

/-! ## The volatile buffer (R714, R716, R722, R723) -/

/-- Shows the buffer's occupancy. -/
def Chip.showBuf (c : Chip) : Chip := c.setFld EV_RECSTAT_BUFOCC c.recorder.buf.length

/-- One record of a stream lost (R717, R723). -/
def Recorder.lose (r : Recorder) (st : Nat) : Recorder := { r with lost := mapSet 0 r.lost st ((mapGet 0 r.lost st + 1) % 2 ^ 64) }

/-- The mark of a stream that has lost a record for want of a place in the buffer, among those of the log's streams. -/
def bufGap (st : Nat) : Nat := st + 32

/-- Whether a record finds a place: 256 are kept for streams 28 to 31 (R723). -/
def Recorder.hasPlace (r : Recorder) (st : Nat) : Bool :=
  decide (r.buf.length < 8192) && (28 ≤ st || decide ((r.buf.filter fun x => x.stream < 28).length < 7936))

/-- The buffered record of a stream that an event may repeat: the latest one, where no later record of the stream has been lost
(R716). -/
def Recorder.latest (r : Recorder) (st : Nat) : Option EvRec :=
  if r.gaps.contains (bufGap st) then none else r.buf.reverse.find? fun x => x.stream == st

/-- The 16 bytes of DATA. -/
def dataOf (b : List Byte) : List Byte := (b ++ List.replicate 16 0#8).take 16

/-- A repeated record (R716): REPEAT stops at 65,535; REPSAT is not set on A1. -/
def EvRec.again (r : EvRec) (e : Event) : EvRec :=
  { r with rep := if r.rep < 65535 then r.rep + 1 else r.rep, last := e.ft, tq := e.tq, sev := if r.sev < e.sev then e.sev else r.sev }

/-- Takes the next SEQ (R711, R723). -/
def Chip.takeSeq (c : Chip) : Nat × Chip := ((c.reg EV_NEXTSEQ).toNat, c.setReg EV_NEXTSEQ (c.reg EV_NEXTSEQ + 1#32))

/-- The record an event makes. -/
def Chip.newRecord (c : Chip) (e : Event) (seq : Nat) : EvRec :=
  { seq := seq, stream := e.stream, sev := e.sev, code := e.code, opms := c.opmsNow, pwr := (c.reg EV_PWRCYC).toNat, rep := 0, tq := e.tq
    flags := if c.recorder.gaps.contains (bufGap e.stream) then 2 else 0, first := e.ft, last := e.ft, src := e.src, data := dataOf e.data }

/-- An event reaches MG: it repeats a record or makes one (R716, R723). -/
def Chip.recordEvent (c : Chip) (e : Event) : Chip :=
  let match_ := (c.recorder.latest e.stream).filter fun r => r.code == e.code && r.src == e.src && r.data == dataOf e.data
  match match_ with
  | some r =>
    let r' := r.again e
    (c.onRec fun x => { x with buf := x.buf.map fun y => if y.seq == r.seq then r' else y }).repeatAlarm r'
  | none =>
    let (seq, c) := c.takeSeq
    let r := c.newRecord e seq
    if c.recorder.hasPlace e.stream then
      let c := (c.onRec fun x => { x with buf := x.buf ++ [r], gaps := x.gaps.filter (· != bufGap e.stream) }).showBuf
      let c := if 4096 ≤ c.recorder.buf.length then { c with recWanted := true } else c
      c.listAlarm r
    else ((c.onRec fun x => { x.lose e.stream with gaps := if x.gaps.contains (bufGap e.stream) then x.gaps else bufGap e.stream :: x.gaps }).bump EV_BUFLOST_LO 1).listAlarm r

/-- EVENT_RECORD: the oldest event on its way. -/
def Chip.eventRecord (c : Chip) : Chip :=
  match c.events with
  | [] => c
  | e :: es => ({ c with events := es }).recordEvent e

/-! ## The log (R713, R717 to R719, R722) -/

/-- The records of a stream in the log: EV_STRCNT. -/
def Recorder.count (r : Recorder) (st : Nat) : Nat := (r.log.filter fun x => x.stream == st).length

/-- Whether a stream holds its capacity. -/
def Recorder.full (r : Recorder) (st : Nat) : Bool := decide (r.cap st * 65536 ≤ r.count st)

/-- Removes the first record that meets a test. -/
def dropFirst (f : EvRec → Bool) : List EvRec → List EvRec
  | [] => []
  | x :: xs => if f x then xs else x :: dropFirst f xs

/-- A record reaches the log under its stream's full policy (R717, R718). -/
def Recorder.store (r : Recorder) (x : EvRec) : Recorder :=
  let st := x.stream
  let marked := { x with flags := if r.gaps.contains st then 2 else x.flags }
  let clear := r.gaps.filter (· != st)
  let gone := { r.lose st with gaps := if r.gaps.contains st then r.gaps else st :: r.gaps }
  if !r.full st then { r with log := r.log ++ [marked], gaps := clear }
  else if st < 28 then gone
  else
    let old := fun y : EvRec => y.stream == st && decide (y.sev ≤ x.sev)
    if r.log.any old then { r with log := dropFirst old r.log ++ [marked], gaps := clear } else gone

/-- Removes the oldest `n` records of a stream. -/
def dropOldest (st : Nat) : Nat → List EvRec → List EvRec
  | 0, l => l
  | _ + 1, [] => []
  | n + 1, x :: xs => if x.stream == st then dropOldest st n xs else x :: dropOldest st (n + 1) xs

/-- A stream above its capacity loses its oldest records (R719). -/
def Recorder.trim (r : Recorder) (st : Nat) : Recorder := { r with log := dropOldest st (r.count st - r.cap st * 65536) r.log }

/-- The records of the buffer that a flush takes: those created before the store at its start (R713). -/
def Recorder.due (r : Recorder) : List EvRec := r.buf.filter fun x => serialGe r.stored.2.2 x.seq

/-- A flush segment: the oldest records that the flush takes, up to 512, leave the buffer for the log (R722). -/
def Recorder.flushSegment (r : Recorder) : Recorder :=
  let seg := r.due.take 512
  let n := seg.length
  { seg.foldl Recorder.store r with buf := r.buf.drop n }

/-- A flush starts: OPMS, PWRCYC and SEQ are stored, and streams above their capacity lose their oldest records (R713, R719). -/
def Chip.startFlush (c : Chip) : Chip :=
  (c.opmsStore.onRec fun r => (List.range 32).foldl Recorder.trim r).setFlag EV_RECSTAT_FLUSHING true

/-- A flush ends when the records it takes have been written; a buffer that has filled again meanwhile asks for the next one (R722). -/
def Chip.endFlush (c : Chip) : Chip :=
  if c.recorder.due.isEmpty then { c.setFlag EV_RECSTAT_FLUSHING false with recWanted := decide (4096 ≤ c.recorder.buf.length) } else c

/-- RECORDER_FLUSH (R708, R713, R722): one flush segment; its Breath check has no reserve (R707), and a segment that fails it is deferred. -/
def Chip.recorderFlush (c : Chip) : Chip :=
  if !c.recWanted then c
  else
    let c := if c.flag EV_RECSTAT_FLUSHING then c else c.startFlush
    if c.energy < needFlush then (if c.flag EV_RECSTAT_FLUSHDEF then c else c.countDeferred).setFlag EV_RECSTAT_FLUSHDEF true
    else ((c.onRec Recorder.flushSegment).showBuf.setFlag EV_RECSTAT_FLUSHDEF false).endFlush

/-- The segments of a whole flush, one after the other. -/
def Chip.flushSegments : Nat → Chip → Chip
  | 0, c => c
  | n + 1, c => c.recorderFlush.flushSegments n

/-! ## Application events and reading (R725, R726) -/

/-- APP_EVENT: the oldest message of the ring in EV_RINGS.APP. -/
def Chip.appEvent (c : Chip) : Chip :=
  let ring := c.fld EV_RINGS_APP
  match c.inbox ring 0x15 with
  | none => c
  | some m =>
    let c := c.consume ring
    let st := bytesAt m.bytes 4 1 % 32
    if m.poisoned || 15 < st then c.bump EV_BUFLOST_LO 1
    else c.recordEvent ⟨st, bytesAt m.bytes 5 1 % 8, bytesAt m.bytes 6 2, m.src, (m.bytes.drop 0x2C).take 16, c.fabricNow, c.tqNow⟩

/-- Puts a record among records in SEQ order from `start` on. -/
def insertRec (start : Nat) (x : EvRec) : List EvRec → List EvRec
  | [] => [x]
  | y :: ys =>
    if (x.seq + 2 ^ 32 - start) % 2 ^ 32 < (y.seq + 2 ^ 32 - start) % 2 ^ 32 then x :: y :: ys else y :: insertRec start x ys

/-- The records that a read returns (R726). -/
def Recorder.select (r : Recorder) (mask start count : Nat) : List EvRec :=
  let l := (r.log ++ r.buf).filter fun x => mask.testBit x.stream && serialGe x.seq start
  (l.foldl (fun acc x => insertRec start x acc) []).take count

/-- RECORD_READ: a request holds the mask, the starting SEQ and the count in this order (log entry 68). -/
def Chip.recordRead (c : Chip) : Chip :=
  let ring := c.fld EV_RINGS_RDREQ
  match c.inbox ring 0x15 with
  | none => c
  | some m =>
    let c := c.consume ring
    let n := bytesAt m.bytes 8 2
    if m.poisoned || n = 0 || 4096 < n then c
    else (c.recorder.select (bytesAt m.bytes 0 4) (bytesAt m.bytes 4 4) n).foldl
      (fun c r => c.publishWait (c.fld EV_RINGS1_RDRSP) 0x15 r.bytes) c

/-! ## Capacities (R719) -/

/-- The log's present capacity in units (R703). -/
def Chip.logUnits (c : Chip) : Nat := 256 - 4 * ((List.range 64).filter fun i => (c.flash.unit (278 + i)).gone).length

/-- STREAM_CAPACITY_WRITE. -/
def Chip.writeStreamCap (c : Chip) (src : Nat) (v : Word) : Chip :=
  let st := getF EV_STRSEL_STREAM (c.reg (banked EV_STRSEL src))
  let cap := getF EV_STRCFG_CAP v
  let r := c.recorder.setCap st cap
  if !c.modeLockOpen then c.rwlIgnored src EV_STRCFG
  else if st = 31 then c
  else if c.logUnits < ((List.range 32).map r.cap).foldl (· + ·) 0 then c
  else { c with recorder := r }

/-! ## Clearing (R727 to R729) -/

/-- The records that the streams of a mask hold, in the buffer and in the log. -/
def Recorder.held (r : Recorder) (mask : Nat) : Nat := ((r.log ++ r.buf).filter fun x => mask.testBit x.stream).length

/-- Whether the journal can take another record: not while it is full of severity-7 records (R729). -/
def Recorder.journalOpen (r : Recorder) : Bool := !r.full 31 || r.log.any fun x => x.stream == 31 && decide (x.sev < 7)

/-- Writes EV_CLRSTAT. -/
def Chip.clearStatus (c : Chip) (result : Nat) : Chip := c.setFlds [(EV_CLRSTAT_VALID, 1), (EV_CLRSTAT_RESULT, result)]

/-- The removal of a stream's records older than the journal record, and its lost counter (R728). -/
def Recorder.clearStreams (r : Recorder) (mask seq : Nat) : Recorder :=
  let keep := fun x : EvRec => !(mask.testBit x.stream) || serialGe x.seq seq
  { r with log := r.log.filter keep, buf := r.buf.filter keep, lost := r.lost.filter fun p => !mask.testBit p.1 }

/-- An event of MG, made at once. -/
def Chip.eventNow (c : Chip) (code sev : Nat) (data : List Byte) : Event := ⟨code / 256, sev, code, 0x15, data, c.fabricNow, c.tqNow⟩

/-- The clear itself: journal record, stream-24 records, removal (R728). -/
def Chip.clearRecords (c : Chip) (mask keyId : Nat) : Chip :=
  let total := c.recorder.held mask
  let counts := (List.range 31).filterMap fun st => if mask.testBit st then some (st, c.recorder.held (2 ^ st)) else none
  let (seq, c) := c.takeSeq
  let j := c.newRecord (c.eventNow 0x1F01 7 (toBytes 4 mask ++ toBytes 2 keyId ++ [0#8, 0#8] ++ toBytes 4 total)) seq
  let c := (c.opmsStore.onRec fun r => r.store j).listAlarm j
  let c := counts.foldl
    (fun c p => c.recordEvent (c.eventNow 0x1803 1 (toBytes 1 p.1 ++ [0#8, 0#8, 0#8] ++ toBytes 4 p.2 ++ toBytes 4 seq))) c
  ((c.onRec fun r => r.clearStreams mask seq).showBuf).clearStatus 0

/-! ## Acknowledgement (R809) -/

/-- Acknowledges the alarm of a SEQ: 0 done, 1 ALREADY, 2 NOTFOUND; `path` is 0 for the Mouthpiece and 1 for MG_ALMACK. -/
def Chip.ackAlarm (c : Chip) (seq path : Nat) : Nat × Chip :=
  match c.recorder.alarms.find? fun a => a.rec_.seq == seq with
  | none => (2, c)
  | some a =>
    if a.acked then (1, c)
    else
      let c := (c.onRec fun r => { r with alarms := r.alarms.map fun b => if b.rec_.seq == seq then { b with acked := true } else b }).showAlarms
      (0, c.raise 0x1902 1 0x15 (toBytes 4 seq ++ toBytes 1 path))

/-! ## The start of MG (R713, R724) -/

/-- The newest SEQ in the log; 0 for none. -/
def Recorder.lastLogged (r : Recorder) : Nat :=
  match r.log with
  | [] => 0
  | x :: xs => xs.foldl (fun m y => if serialGe y.seq m then y.seq else m) x.seq

/-- After a power-on reset, and at the BOOT after a system reset: the buffer is gone, records that never reached the log are
reported, and EV_NEXTSEQ continues from the stored SEQ (R724). -/
def Chip.recorderStart (c : Chip) : Chip :=
  let (_, _, seq) := c.recorder.stored
  let missing := (seq + 2 ^ 32 - c.recorder.lastLogged) % 2 ^ 32
  let c := (c.setReg EV_NEXTSEQ (BitVec.ofNat 32 (seq + 1))).showBuf
  if missing = 0 || 2 ^ 31 ≤ missing then c else c.raise 0x1E08 5 0x15 (toBytes 4 missing)

/-! ## Meanings -/

/-- EVENT_RECORD. -/
def execEventRecord (m : State) : Out := .next (m.onChip Chip.eventRecord)

/-- RECORDER_FLUSH. -/
def execRecorderFlush (m : State) : Out := .next (m.onChip Chip.recorderFlush)

/-- OPMS_STORE. -/
def execOpmsStore (m : State) : Out := .next (m.onChip Chip.opmsStore)

/-- APP_EVENT. -/
def execAppEvent (m : State) : Out := .next (m.onChip Chip.appEvent)

/-- RECORD_READ. -/
def execRecordRead (m : State) : Out := .next (m.onChip Chip.recordRead)

/-- STREAM_CAPACITY_WRITE. -/
def execStreamCapacityWrite (src : Island) (value : Word) (m : State) : Out :=
  .next (m.onChip fun c => c.whenOn src.val EV_STRCFG fun c => c.writeStreamCap src.val value)

/-- MG_ALMACK. -/
def execMgAlmack (src : Island) (value : Word) (m : State) : Out :=
  .next (m.onChip fun c => c.whenOn src.val MG_ALMACK fun c => (c.ackAlarm value.toNat 1).2)

end Sys2Proof.Machine
end

