-- ==== Sys2Proof/Machine/Historian.lean ====
section
/-!
DEFINITION. The historian: mounting, files, sealing, retention and the NVMe commands it waits for (R730 to R742).
-/

namespace Sys2Proof.Machine

/-- The bytes of a segment. -/
def segBytes : Nat := 0x4000000

/-- The LBAs of 256 TiB. -/
def maxLbas : Nat := 2 ^ 36

/-- Changes the historian. -/
def Chip.onHist (c : Chip) (f : Historian → Historian) : Chip := { c with hist := f c.hist }

/-- A mounted volume. -/
def Historian.vol? (h : Historian) (n : Nat) : Option Volume := assocGet h.vols n

/-- A volume by namespace put in its place. -/
def putVol (n : Nat) (v : Volume) : List (Nat × Volume) → List (Nat × Volume)
  | [] => [(n, v)]
  | (k, w) :: l => if n < k then (n, v) :: (k, w) :: l else if n = k then (n, v) :: l else (k, w) :: putVol n v l

/-- Shows a namespace: state, port where it is new, free segments (EV_HNS). -/
def Chip.showNs (c : Chip) (n : Nat) : Chip :=
  match c.hist.vol? n with
  | some v => c.setFlds [(EV_HNS_STATE n, 1), (EV_HNS_FREESEG n, v.count - v.segs.length)]
  | none => c

/-- Changes a mounted volume. -/
def Chip.onVol (c : Chip) (n : Nat) (f : Volume → Volume) : Chip :=
  match c.hist.vol? n with
  | none => c
  | some v => (c.onHist fun h => { h with vols := putVol n (f v) h.vols }).showNs n

/-- The bytes a file takes in its segment (R735). -/
def fileSize (f : HFile) : Nat := 64 + (f.data.length + 63) / 64 * 64

/-- The bytes used in a segment. -/
def segUsed (s : HSeg) : Nat := (s.files.map fileSize).foldl (· + ·) 0

/-! ## Shelves (R739, R740) -/

/-- A shelf entry at a physical address (log entry 69). -/
def shelfAt (m : List Host.Cell) (a : Nat) : Shelf := ⟨memRead m 2 a, memRead m 1 (a + 2), memRead m 4 (a + 4), memRead m 2 (a + 8)⟩

/-- Whether an entry is in range. -/
def Shelf.ok (s : Shelf) : Bool := s.mask == 0 || (decide (s.mode ≤ 2) && decide (1 ≤ s.max) && (s.mode != 2 || decide (1 ≤ s.age)))

/-- The sealed segments of a shelf with their namespaces that are not being freed. -/
def Historian.sealedOf (h : Historian) (sh : Nat) : List (Nat × HSeg) :=
  (h.vols.map fun p => (p.2.segs.filter fun s =>
    s.shut && s.shelf == sh && !(p.2.ops.any fun o => o == .free s.num || o == .dealloc s.num)).map fun s => (p.1, s)).flatten

/-- The fabric time of a segment's last file. -/
def segLastFt (s : HSeg) : Nat := match s.files.getLast? with
  | some f => f.ft
  | none => 0

/-- The segment whose last file is the earliest. -/
def oldestSeg : List (Nat × HSeg) → Option (Nat × HSeg)
  | [] => none
  | p :: ps => match oldestSeg ps with
    | none => some p
    | some q => if segLastFt q.2 < segLastFt p.2 then some q else some p

/-- Starts to free a segment (R741). -/
def Chip.freeSeg (c : Chip) (n seg : Nat) : Chip := c.onVol n fun v => { v with ops := v.ops ++ [.free seg] }

/-- Frees the oldest sealed segments of a shelf, at most `n`, until it holds fewer than `most` (R740). -/
def Chip.freeOldest (most sh : Nat) : Nat → Chip → Chip
  | 0, c => c
  | n + 1, c =>
    let l := c.hist.sealedOf sh
    if l.length < most then c
    else match oldestSeg l with
      | some (k, s) => (c.freeSeg k s.num).freeOldest most sh n
      | none => c

/-- What a shelf does when it holds MAXSEG sealed segments: one in MODE 1 or 2 frees its oldest (R740). -/
def Chip.retain (c : Chip) (sh : Nat) : Chip :=
  match c.hist.shelves[sh]? with
  | none => c
  | some e => if e.mode = 0 then c else c.freeOldest e.max sh (c.hist.sealedOf sh).length

/-- Every shelf keeps to its MAXSEG. -/
def Chip.retainAll (c : Chip) : Chip := (List.range 64).foldl Chip.retain c

/-- SHELF_LOAD: a write of EV_HCFG; LOAD copies the shelf table or refuses it. -/
def State.writeHcfg (s : State) (v : Word) : State :=
  let s := s.onChip fun c => c.setFlds [(EV_HCFG_EN, getF EV_HCFG_EN v), (EV_HCFG_SEALS, getF EV_HCFG_SEALS v)]
  if getF EV_HCFG_LOAD v = 0 then s
  else
    let a := (s.chip.reg EV_HSHELF).toNat * 64
    let l := (List.range 64).map fun i => shelfAt s.mem (a + 16 * i)
    if s.chip.dramSpan a 1024 && l.all Shelf.ok then s.onChip fun c => ((c.onHist fun h => { h with shelves := l }).setFlag EV_HCFG_BAD false).retainAll
    else s.onChip fun c => c.setFlag EV_HCFG_BAD true

/-! ## Mounting (R731, R733, R737) -/

/-- The LBAs of the namespaces in use. -/
def Historian.lbas (h : Historian) (n : Nat) : Nat :=
  ((h.sizes.filter fun p => p.1 != n && (h.vol? p.1).isSome).map Prod.snd).foldl (· + ·) 0

/-- Shows a namespace that is not mounted. -/
def Chip.refuseNs (c : Chip) (n st : Nat) (port : Bool) : Chip :=
  c.setFlds [(EV_HNS_STATE n, st), (EV_HNS_PORT n, b2n port), (EV_HNS_FREESEG n, 0)]

/-- What becomes of a namespace that has been found (R731, R737). -/
def Chip.mountFound (c : Chip) (n : Nat) (i : NsInfo) : Chip :=
  if i.error then c.refuseNs n 5 i.port
  else if !i.lba4k then c.refuseNs n 2 i.port
  else if maxLbas < c.hist.lbas n + i.lbas then c.refuseNs n 3 i.port
  else
    let c := c.onHist fun h => { h with sizes := mapSet 0 h.sizes n i.lbas }
    match i.volume with
    | none => c.refuseNs n 4 i.port
    | some (count, ident, gen, fseq, order) =>
      let segs := i.segs.map fun s => { s with at_ := c.mono }
      let v : Volume := ⟨count, ident, gen, fseq, order, segs, []⟩
      let c := c.onHist fun h => { h with vols := putVol n v h.vols }
      (((c.setFlag (EV_HNS_PORT n) i.port).showNs n).bump EV_HLOST_LO i.cut).retainAll

/-- ST has brought a root port up (R126). -/
def Chip.raisePort (c : Chip) (port : Bool) : Chip :=
  c.onHist fun h => if port then { h with portUp1 := true } else { h with portUp0 := true }

/-- NAMESPACE_MOUNT: the states of EV_HNS; a namespace is found only behind a root port that ST has brought up (log entry 118). -/
def Chip.mountNs (c : Chip) (n : Nat) (i : NsInfo) : Chip :=
  if !c.flag EV_HCFG_EN || (c.hist.vol? n).isSome || !c.islandOn 0x14 then c
  else c.raisePort i.port |>.mountFound n i

/-- The segments that a namespace holds (R732). -/
def volumeSegments (lbas : Nat) : Nat :=
  let s0 := (lbas - 1) / 16384
  let first := (16 + (s0 + 127) / 128 + 16383) / 16384 * 16384
  (lbas - 1 - first) / 16384

/-- A namespace is formatted as a volume (R732, R733). -/
def Chip.formatNs (c : Chip) (n : Nat) (ident : List Byte) : Chip :=
  let v : Volume := ⟨volumeSegments (mapGet 0 c.hist.sizes n), ident, 1, 0, 0, [], []⟩
  (c.onHist fun h => { h with vols := putVol n v h.vols }).showNs n

/-! ## Sealing (R736) -/

/-- Seals a segment: Flush first; the entry is written when it has completed. -/
def Chip.sealSeg (c : Chip) (n num : Nat) : Chip :=
  c.onVol n fun v => { v with
    segs := v.segs.map fun s => if s.num == num then { s with shut := true, order := v.order } else s
    order := (v.order + 1) % 2 ^ 32
    ops := v.ops ++ [.flush num] }

/-- An open segment of a volume. -/
def Volume.open? (v : Volume) (num : Nat) : Option HSeg := v.segs.find? fun s => s.num == num && !s.shut

/-- SEGMENT_SEAL: an open segment that is full or has been open for SEALS seconds. -/
def Chip.sealDue (c : Chip) (n num : Nat) : Chip :=
  match (c.hist.vol? n).bind fun v => v.open? num with
  | none => c
  | some s =>
    if !c.islandOn 0x14 then c
    else if segBytes < segUsed s + 64 || s.at_ + c.fld EV_HCFG_SEALS * 1000000000 ≤ c.mono then (c.sealSeg n num).retain s.shelf else c

/-! ## Files (R735, R742) -/

/-- The lowest number without a segment. -/
def Volume.freeNum (v : Volume) : Option Nat :=
  let used := v.segs.map HSeg.num
  if v.segs.length < v.count then (List.range (v.segs.length + 1)).find? fun i => !used.contains i else none

/-- The volumes of a shelf. -/
def Historian.volsOf (h : Historian) (mask : Nat) : List (Nat × Volume) := h.vols.filter fun p => mask.testBit p.1

/-- The segment that takes a shelf's next file of `size` bytes: its open segment where the file fits, else a free one, with the open
segment that has to be sealed first. -/
def Historian.placeFile (h : Historian) (mask sh size : Nat) : Option (Nat × Nat × Option (Nat × Nat)) :=
  let vs := h.volsOf mask
  let now := vs.findSome? fun p => (p.2.segs.find? fun s => !s.shut && s.shelf == sh).map fun s => (p.1, s)
  let fresh := vs.findSome? fun p => p.2.freeNum.map fun k => (p.1, k)
  match now with
  | some (n, s) => if segUsed s + size ≤ segBytes then some (n, s.num, none) else fresh.map fun f => (f.1, f.2, some (n, s.num))
  | none => fresh.map fun f => (f.1, f.2, none)

/-- Adds a file to a segment, opening the segment where it is new. -/
def Volume.addFile (v : Volume) (num sh now : Nat) (f : HFile) : Volume :=
  let f := { f with fseq := v.fseq }
  let segs := match v.open? num with
    | some _ => v.segs.map fun s => if s.num == num then { s with files := s.files ++ [f] } else s
    | none => v.segs ++ [⟨num, false, sh, 0, [f], now⟩]
  { v with segs := segs, fseq := v.fseq + 1 }

/-- HISTORIAN_FILE: the oldest message of a bound ring becomes one file. -/
def Chip.histFile (c : Chip) (b : Nat) : Chip :=
  let ring := c.fld (EV_HBIND_RING b)
  let sh := c.fld (EV_HBIND_SHELF b)
  if !c.flag EV_HCFG_EN || !c.flag (EV_HBIND_EN b) || c.hist.closed || !c.islandOn 0x14 then c
  else match c.inbox ring 0x14, c.hist.shelves[sh]? with
    | some m, some e =>
      if m.poisoned then (c.consume ring).bump EV_HLOST_LO 1
      else if e.mode = 0 && decide (e.max ≤ (c.hist.sealedOf sh).length) then (c.consume ring).bump EV_HLOST_LO 1
      else
        let f : HFile := ⟨0, c.fld (EV_HBIND_KIND b), b, m.src, c.fabricNow, c.tqNow, m.bytes⟩
        match c.hist.placeFile e.mask sh (fileSize f) with
        | none => c
        | some (n, num, old) =>
          let c := c.consume ring
          let c := match old with
            | some (k, s) => (c.sealSeg k s).retain sh
            | none => c
          c.onVol n fun v => v.addFile num sh c.mono f
    | _, _ => c

/-! ## Age and completion (R736, R738, R740, R741) -/

/-- SEGMENT_AGE_EXPIRY: a sealed segment of a MODE 2 shelf whose last file is older than AGE days. -/
def Chip.ageExpiry (c : Chip) (n num : Nat) : Chip :=
  match (c.hist.vol? n).bind fun v => v.segs.find? fun s => s.num == num && s.shut with
  | none => c
  | some s =>
    match c.hist.shelves[s.shelf]? with
    | none => c
    | some e =>
      if c.islandOn 0x14 && e.mode == 2 && decide (segLastFt s + e.age * 86400000000000 < c.fabricNow) && (c.hist.sealedOf s.shelf).any fun p => p.1 == n && p.2.num == num
      then c.freeSeg n num else c

/-- NVME_COMMAND_COMPLETE: the oldest command outstanding on a namespace. -/
def Chip.nvmeDone (c : Chip) (n : Nat) : Chip :=
  if !c.islandOn 0x14 then c
  else c.onVol n fun v => match v.ops with
    | [] => v
    | .flush g :: ops => { v with ops := ops ++ [.entry g] }
    | .free g :: ops => { v with ops := ops ++ [.dealloc g], segs := v.segs.filter fun s => s.num != g }
    | _ :: ops => { v with ops := ops }

/-- A logic power failure (R738): no further files, Flush to every mounted namespace. -/
def Chip.histPowerFail (c : Chip) : Chip :=
  let c := c.onHist fun h => { h with closed := true }
  (c.hist.vols.map Prod.fst).foldl (fun c n => c.onVol n fun v => { v with ops := v.ops ++ [.sync] }) c

/-- A block reset of ST takes the volumes out of use with the commands outstanding on them; NAMESPACE_MOUNT brings each back under R737
(R132; log entry 105). -/
def Chip.histReset (c : Chip) : Chip :=
  let c := c.hist.vols.foldl (fun c p => c.setFlds [(EV_HNS_STATE p.1, 0), (EV_HNS_FREESEG p.1, 0)]) c
  c.onHist fun h => { h with vols := [] }

/-! ## Meanings -/

/-- NAMESPACE_MOUNT. -/
def execNamespaceMount (ns : Fin 16) (info : NsInfo) (m : State) : Out := .next (m.onChip fun c => c.mountNs ns.val info)

/-- HISTORIAN_FILE. -/
def execHistorianFile (bind_ : Fin 32) (m : State) : Out := .next (m.onChip fun c => c.histFile bind_.val)

/-- SEGMENT_SEAL. -/
def execSegmentSeal (ns : Fin 16) (seg : BitVec 32) (m : State) : Out := .next (m.onChip fun c => c.sealDue ns.val seg.toNat)

/-- SEGMENT_AGE_EXPIRY. -/
def execSegmentAgeExpiry (ns : Fin 16) (seg : BitVec 32) (m : State) : Out :=
  .next (m.onChip fun c => c.ageExpiry ns.val seg.toNat)

/-- NVME_COMMAND_COMPLETE. -/
def execNvmeCommandComplete (ns : Fin 16) (m : State) : Out := .next (m.onChip fun c => c.nvmeDone ns.val)

/-- SHELF_LOAD. -/
def execShelfLoad (src : Island) (value : Word) (m : State) : Out :=
  .next (m.whenOn src.val EV_HCFG fun m => m.writeHcfg value)

end Sys2Proof.Machine
end

