-- ==== Sys2Proof/Machine/Redundancy.lean ====
section
/-!
DEFINITION. Double Reed, Duplex and redundant operation: heartbeats, roles, READY, comparison, the referee, handover and
failover, forwarding and resynchronisation (R639 to R684).
-/

namespace Sys2Proof.Machine

/-- Changes the redundancy unit. -/
def Chip.onRed (c : Chip) (f : Red → Red) : Chip := { c with red := f c.red }

/-- A Duplex set (R639). -/
def Chip.isDuplex (c : Chip) : Bool := c.topo % 2 == 1

/-- A Double Reed station (R639). -/
def Chip.isDoubleReed (c : Chip) : Bool := decide (2 ≤ c.topo)

/-- The role this unit has: 0 none, 1 active, 2 standby, 3 out of the set. -/
def Chip.role (c : Chip) : Nat := c.fld MG_REDSTAT_ROLE

/-- Whether the module runs from the backplane reference (R640). -/
def Chip.sharedClock (c : Chip) : Bool := c.flag MG_STRAP_CLKSEL && !c.flag MG_STRAP_CLK_FALLBACK

/-- HBLOSS in ns. -/
def Chip.hbLossNs (c : Chip) : Nat := c.fld MG_REDCFG_HBLOSS * 1000

/-- Whether no heartbeat of a neighbour has arrived for HBLOSS. -/
def Chip.silentPeer (c : Chip) (p : Peer) : Bool :=
  match p.hb with
  | some t => decide (t + c.hbLossNs ≤ c.mono)
  | none => decide (c.hbLossNs ≤ c.mono)

/-! ## Hashes and loads (R657, R667) -/

/-- What MG_APPHASH covers (R657). -/
def State.appBytes (s : State) : List Byte :=
  let part := fun k =>
    let code := s.taskRegion k 0x40
    let lit := s.taskRegion k 0x70
    memBytes s.mem 256 (s.descAddr k) ++ memBytes s.mem (16 * s.tMapCount k) (s.tMapAddr k) ++
      memBytes s.mem code.len (code.pbase * 64) ++ memBytes s.mem lit.len (lit.pbase * 64)
  let entries := (List.range 512).map fun i => ((s.chip.chan i).entry ++ List.replicate 0xB0 0#8).take 0xB0
  (s.chip.enabledTasks.map part).flatten ++ entries.flatten

/-- MG_APPHASH as words, byte 4n in bits 31:24. -/
def State.appHash (s : State) : List Word := (sha256Words s.appBytes).map fun w => BitVec.ofNat 32 w

/-- The mirror load in Mbit/s (R667). -/
def State.mirrorLoad (s : State) : Frac :=
  (s.chip.enabledTasks.map fun k => (⟨(s.taskRegion k 0x80).len * 8, s.tPeriod k⟩ : Frac)).foldl Frac.add ⟨0, 1⟩

/-- Whether the load is above the budget of 183.04 Gbit/s. -/
def State.mirrorOver (s : State) : Bool := (⟨183040, 1⟩ : Frac).lt s.mirrorLoad

/-- MG_MIRLOAD. -/
def State.mirrorWord (s : State) : Word :=
  let q := s.mirrorLoad.norm
  BitVec.ofNat 32 (b2n s.mirrorOver * 2 ^ 31 + Nat.min (q.num / q.den).toNat 0xFFFFF)

/-- TP_CFGHASH as words. -/
def Chip.cfgHash (c : Chip) : List Word := (List.range 8).map fun j => c.reg (TP_CFGHASH j)

/-! ## READY (R657) -/

/-- The conditions of R657 in order. -/
def State.readyTests (s : State) : List Bool :=
  let c := s.chip
  let p := c.red.peer
  [c.flag MG_REDSTAT_PL1UP && !c.silentPeer p,
   p.cls == c.fld FX_CLASS_MAJOR && p.mirr == c.fld FX_CLASS_MIRRFMT,
   p.app == s.appHash && !c.red.differs,
   p.cfg == c.cfgHash,
   keyAllows c.keyPos p.mode,
   c.red.resync,
   c.enabledTasks.all fun k => decide (10 ≤ (assocGet c.red.matched k).getD 0),
   c.sharedClock,
   !s.mirrorOver,
   c.topo != 3 || c.red.partner.ready]

/-- The first condition that fails, counted from 1; 0 for none. -/
def firstFailing : Nat → List Bool → Nat
  | _, [] => 0
  | n, b :: bs => if b then firstFailing (n + 1) bs else n

/-- NRREASON: 0 when READY or no standby. -/
def State.notReady (s : State) : Nat := if s.chip.role = 2 then firstFailing 1 s.readyTests else 0

/-- Whether this unit is a READY standby. -/
def State.isReady (s : State) : Bool := s.chip.role == 2 && s.notReady == 0

/-- READY and NRREASON as they are now. -/
def State.showReady (s : State) : State :=
  s.onChip fun c => c.setFlds [(MG_REDSTAT_READY, b2n s.isReady), (MG_REDSTAT_NRREASON, s.notReady)]

/-! ## Roles (R655, R656) -/

/-- Sets the role; ACTO_N is low only while this unit is active (R655). -/
def Chip.setRole (c : Chip) (r : Nat) : Chip := c.setFlds [(MG_REDSTAT_ROLE, r), (MG_REDSTAT_ACTOUT, b2n (r == 1))]

/-- Shows a new mode (MG_MODE). -/
def Chip.showMode (c : Chip) (m : Nat) : Chip := c.setFlds [(MG_MODE_PREV, c.mode), (MG_MODE_CUR, m)]

/-- The running mode of a unit that becomes active: the old active unit's, else what the key allows (log entry 70). -/
def Chip.activeMode (c : Chip) : Nat :=
  if c.red.peer.mode = 4 ∨ c.red.peer.mode = 5 then c.red.peer.mode else if keyAllows c.keyPos 4 then 4 else 5

/-- Whether the unit with the PREFACT of R656 and, failing that, the lower SERIAL is this one. -/
def Chip.preferred (c : Chip) : Bool :=
  let own := c.flag MG_REDCFG_PREFACT
  let other := c.red.peer.prefact
  if own != other then own
  else match c.red.peer.serial with
    | some n => decide (c.serial < n)
    | none => own

/-- The role at an entry to RUN, RUN-LOCKED or STANDBY, and the mode the unit enters (R656, log entry 70). -/
def Chip.decideRole (c : Chip) (target : Nat) : Nat × Chip :=
  if !c.isDuplex then (target, c)
  else
    let standby := (6, (c.setRole 2).onRed fun r => { r with resync := false, differs := false, matched := [], swapFrom := c.now })
    let pl1 := c.flag MG_REDSTAT_PL1UP
    if target = 6 then standby
    else if c.flag MG_REDSTAT_ACTIN || (pl1 && c.red.peer.role == 1) then standby
    else if pl1 then (if c.preferred then (target, (c.setRole 1).onRed fun r => { r with swapFrom := c.now }) else standby)
    else if c.flag MG_REDCFG_PREFACT then
      (target, (c.setRole 1).onRed fun r => { r with droveAt := some c.mono, swapFrom := c.now })
    else standby

/-- ACT_CHECK (R656): 50 µs after ACTO_N was driven with PL1 down; the wait before another try is random (log entry 70). -/
def Chip.actCheck (c : Chip) (low : Bool) : Chip :=
  let c := c.setFlag MG_REDSTAT_ACTIN low
  match if c.running then c.red.droveAt else none, if c.running then c.red.retryAt else none with
  | some t, _ =>
    if c.mono < t + 50000 then c
    else if !low then c.onRed fun r => { r with droveAt := none }
    else match c.red.peer.serial with
      | some n =>
        if n < c.serial then ((c.setRole 2).showMode 6).onRed fun r => { r with droveAt := none }
        else c.onRed fun r => { r with droveAt := none }
      | none =>
        let (x, c) := c.free 32
        (c.setFlag MG_REDSTAT_ACTOUT false).onRed fun r => { r with droveAt := none, retryAt := some (c.mono + 1000000 + x % 9000001) }
  | none, some t =>
    if c.mono < t then c
    else (c.setFlag MG_REDSTAT_ACTOUT true).onRed fun r => { r with droveAt := some c.mono, retryAt := none }
  | none, none => c

/-! ## Heartbeats (R641, R648, R650, R663, R792) -/

/-- The highest cycle number a task has completed (R663): the one before MG_TASKCYC, or the one before that while it runs. -/
def Chip.completed (c : Chip) (k : Nat) : Nat :=
  let n := c.counter (MG_TASKCYC_LO k) - 1
  match c.run k with
  | some r => if r.dead.isSome && !r.held then n - 1 else n
  | none => n

/-- A heartbeat as this unit sends it. -/
def State.beatBytes (s : State) : List Byte :=
  let c := s.chip
  toBytes 1 c.mode ++ toBytes 1 (c.role + 4 * b2n s.isReady + 8 * c.fld MG_REDCFG_PREFACT) ++
    (c.enabledTasks.map fun k => toBytes 1 k ++ toBytes 8 (c.completed k)).flatten ++ toBytes 4 c.red.faults ++ toBytes 4 c.red.errors

/-- The map of the stages enabled with REMOTE_SP, which the partners exchange (R653). -/
def Chip.remoteMap (c : Chip) : List Byte := (c.remoteStages.map fun s => toBytes 2 s).flatten

/-- HEARTBEAT_SEND (R640, R663): from MG to FX by ring 24 (R642). -/
def State.heartbeatSend (s : State) : State :=
  let c := s.chip
  let due := match c.red.hbSent with
    | some t => decide (t + 100000 ≤ c.mono)
    | none => true
  if !due || !c.sharedClock || c.topo == 0 then s
  else
    let b := s.beatBytes
    s.onChip fun c => c.through [24] fun c =>
      let c := c.onRed fun r => { r with hbSent := some c.mono }
      let c := if c.isDuplex then c.send linkPl1 b else c
      if c.isDoubleReed then c.send linkPl0 (b ++ c.remoteMap) else c

/-- What a heartbeat tells of a neighbour. -/
def Peer.hear (p : Peer) (h : Heartbeat) (now : Nat) : Peer :=
  { p with mode := h.mode.val, role := h.role.toNat, ready := h.ready, prefact := h.prefact, done := h.done, faults := h.faults
           cls := h.cls.toNat, mirr := h.mirr.toNat, app := h.app, cfg := h.cfg, errors := h.errors, remotes := h.remotes, hb := some now }

/-- HEARTBEAT (R641, R663, R671): from FX to MG by ring 25 (R642); new faults and errors of the active unit are evidence. -/
def State.heartbeat (s : State) (pl1 : Bool) (h : Heartbeat) (ofs : Nat) : State :=
  let put := fun (c : Chip) (f : Peer → Peer) => if pl1 then c.onRed fun r => { r with peer := f r.peer } else c.onRed fun r => { r with partner := f r.partner, lost := false }
  let old := s.chip.red.peer
  (s.onChip fun c => c.through [25] fun c =>
    let c := put c fun p => p.hear h c.mono
    let c := if pl1 && decide (old.faults < h.faults ∨ old.errors < h.errors) then c.onRed fun r => { r with evActive := true } else c
    (c.setFlag (if pl1 then MG_REDSTAT_PL1UP else MG_REDSTAT_PL0UP) true).setCounter (if pl1 then MG_PAIROFS_LO else MG_PARTOFS_LO) ofs).showReady

/-- PARTNER_LOST (R650). -/
def Chip.partnerLost (c : Chip) : Chip :=
  if !c.isDoubleReed || c.red.lost || !c.silentPeer c.red.partner then c
  else ((c.onRed fun r => { r with lost := true }).setFlag MG_REDSTAT_PL0UP false).raise 0x1C10 6 0x15 []

/-! ## Becoming active (R668, R669, R673 to R678) -/

/-- The cycles that the old unit released last fix the number of each task's first cycle (R677). -/
def Chip.numberCycles (c : Chip) (rel : Released) : Chip :=
  rel.foldl (fun c p => c.setCounter (MG_TASKCYC_LO p.1.val) ((p.2.toNat + 1) % 2 ^ 64)) c

/-- A new active unit continues each source ring 1,048,576 above the next SEQ it last received (R678). -/
def Chip.takeSeqs (c : Chip) : Chip :=
  let seqs := c.red.seqs
  c.onFab fun f => { f with lastSeq := seqs.foldl (fun l p => assocSet l p.1 ((p.2 + 1048575) % 2 ^ 32)) f.lastSeq }

/-- An output's command at once: the next link frame carries it. -/
def Chip.driveNow (c : Chip) (i : Nat) (w : Word) : Chip :=
  if (c.chan i).isOutput then c.onChan i fun x => { x with want := some w, queue := [] } else c

/-- An output item drives its channel at once. -/
def Chip.driveItem (c : Chip) (i : MapItem) (v : Word) : Chip :=
  match if i.kind = 2 then c.localChan i.index else none with
  | some j => if eMode (c.chan j).entry == 0 && eBind (c.chan j).entry then c else c.driveNow j v
  | none => c

/-- A list of items by index of a task's map drives the field. -/
def State.driveItems (s : State) (k : Nat) (items : List (Nat × Word)) : State :=
  let m := s.tMap k
  s.onChip fun c => items.foldl (fun c p => match m[p.1]? with
    | some i => c.driveItem i p.2
    | none => c) c

/-- The unit is active from now on. -/
def Chip.becomeActive (c : Chip) : Chip :=
  (((c.showMode c.activeMode).setRole 1).bump MG_TAKEOVER_LO 1).onRed fun r =>
    { r with peer := { r.peer with role := 0, ready := false }, matched := [], fight := none, want := 0, evActive := false, evOwn := false, swapFrom := c.now }

/-- A failover (R676, R677): the old unit's last items and channel words, stages preset with them. -/
def State.failover (s : State) (rel : Released) : State :=
  let s := s.onChip fun c => ((c.becomeActive).numberCycles rel).takeSeqs
  let s := s.chip.red.items.foldl (fun s p => s.driveItems p.1 p.2) s
  s.onChip fun c => (c.red.mirror.foldl (fun c p => c.driveNow p.1 p.2) c).onLoop fun l => { l with firsts := c.enabledStages }

/-- HEARTBEAT_LOSS (R668, R669): `high` is how long ACTI_N has been high. -/
def State.heartbeatLoss (s : State) (high : Nat) (rel : Released) : State :=
  let c := s.chip
  let s := s.onChip fun c => c.setFlag MG_REDSTAT_ACTIN (high == 0)
  let silent := c.silentPeer c.red.peer
  let left := c.red.peer.hb.isSome && c.red.peer.mode != 4 && c.red.peer.mode != 5
  let why := s.notReady
  if c.role != 2 || c.mode != 6 || !(silent || left) then s
  else
    let gone := s.onChip fun c => if silent then c.setFlag MG_REDSTAT_PL1UP false else c
    if high < 200000 then gone
    else
      let ready := why == 0 || (silent && why == 1 && s.chip.flag MG_REDSTAT_READY) || (left && why == 5 && s.chip.flag MG_REDSTAT_READY)
      if ready then gone.failover rel else gone.onChip fun c => c.raise 0x1C13 6 0x15 (toBytes 1 why)

/-! ## The partner's channels (R651, R652) -/

/-- An instant of a neighbour's timebase in this one's (R641): MG_PAIROFS and MG_PARTOFS hold the neighbour's minus this one's (log
entry 70). -/
def Chip.fromPeer (c : Chip) (ofsLo t : Nat) : Nat := ((t : Int) - signed 64 (c.counter ofsLo)).toNat

/-- PARTNER_SAMPLE (R651): from FX to the CG island by rings 28 to 35 (R642). -/
def Chip.partnerSample (c : Chip) (i stamp : Nat) (v : Word) (q : Nat) : Chip :=
  let t := c.fromPeer MG_PARTOFS_LO stamp + 10000
  if t < c.mono then c.bump MG_PLLATE_LO 1
  else
    let g := (if c.chanBase = 0 then 512 else 0) + i
    let old := (assocGet c.red.chans g).getD ⟨[], 3⟩
    c.onRed fun r => { r with chans := assocSet r.chans g ⟨(t, v) :: old.samples.take 1, q⟩ }

/-- PARTNER_DRAIN (R652): from FX to the CG island by rings 28 to 35 (R642); the module's own tasks win. -/
def State.partnerDrain (s : State) (i : Nat) (v : Word) : State :=
  let mine := s.chip.enabledTasks.any fun k => (mapOutputs (s.tMap k)).any fun g => s.chip.localChan g == some i
  s.onChip fun c => c.through [28 + groupOf i] fun c => if mine then c.bumpIgn i else (c.writeOutput i v c.mono none).2

/-! ## Comparison (R661, R664 to R666) -/

/-- A mismatch on channels: it waits for the referee (R664, R665, R671). -/
def Chip.mismatch (c : Chip) (chans : List Nat) : Chip :=
  (c.bump MG_MISMATCH_LO 1).onRed fun r => { r with fight := some (chans ++ r.fight.getD []) }

/-- The output items of a standby's cycle that differ from the active unit's, by index. -/
def State.itemDiffs (s : State) (k : Nat) (items : List (Nat × Word)) : List MapItem :=
  let m := s.tMap k
  items.filterMap fun p => match m[p.1]? with
    | some i => if !i.isInput && getItem s.chip.img.outF (s.tCore k) i != p.2.toNat % 2 ^ i.bits then some i else none
    | none => none

/-- The set-points among the active unit's items go to this unit's loop engine (R665). -/
def State.activeSetpoints (s : State) (k : Nat) (items : List (Nat × Word)) : State :=
  let m := s.tMap k
  s.onChip fun c => items.foldl (fun c p => match m[p.1]? with
    | some i => if i.kind = 3 then c.imageSetpoint i.index p.2 else c
    | none => c) c

/-- OUTPUT_COMPARE (R664, R665): `none` where the active unit's items have not arrived within WD_US after the boundary. -/
def State.outputCompare (s : State) (k cycle : Nat) (items : Option (List (Nat × Word))) : State :=
  match s.chip.run k with
  | none => s
  | some r =>
    if !s.chip.pairedStandby || r.cycle != cycle || r.dead.isSome then s
    else match items with
      | none =>
        if s.chip.mono < r.last + s.tWd k * 1000 then s
        else s.onChip fun c => ((c.bump MG_MIRSKIP_LO 1).setFlag MG_REDSTAT_MIRLATE true).onRed fun r => { r with matched := assocSet r.matched k 0 }
      | some l =>
        let s := (s.onChip fun c => c.onRed fun r => { r with items := assocSet r.items k l }).activeSetpoints k l
        let diffs := s.itemDiffs k l
        if diffs.isEmpty then
          (s.onChip fun c => c.onRed fun r =>
            { r with matched := assocSet r.matched k ((assocGet r.matched k).getD 0 + 1), evActive := false, evOwn := false }).showReady
        else
          (s.onChip fun c => (c.onRed fun r => { r with matched := assocSet r.matched k 0 }).mismatch
            (diffs.filterMap fun i => if i.kind = 2 then c.localChan i.index else none)).showReady

/-- One stage as the active unit sends it every 1 ms. -/
def Chip.stageBytes (c : Chip) (s : Nat) : List Byte :=
  let r := c.stageRec s
  toBytes 2 s ++ toBytes 1 (recMode r) ++ toBytes 4 (recW r 18).toNat ++ toBytes 4 (recW r 19).toNat ++
    (match (assocGet c.loop.remotes s).bind (·.applied) with
    | some (m, e) => toBytes 4 (unsigned 32 m) ++ toBytes 1 (unsigned 8 e)
    | none => [])

/-- A stage takes the active unit's control values at its next frame (R665). -/
def Chip.mirrorStage (c : Chip) (m : StageMirror) : Chip :=
  let s := m.stage.val
  let c := ((c.setFld ⟨LE_STAGE (32 * s), 6, 5⟩ m.mode.toNat).setReg (LE_STAGE (32 * s + 18)) m.sp).setReg (LE_STAGE (32 * s + 19)) m.man
  match m.remote with
  | some v => c.onRemote s fun r => { r with applied := some v }
  | none => c

/-- Compares a bound channel's word with this unit's stage (R665). -/
def Chip.compareWord (c : Chip) (i : Nat) (w : Word) : Chip :=
  let e := (c.chan i).entry
  if !(isAo (eActive e) && eBind e) then c
  else
    let r := c.stageRec (eStage e)
    let mine := (outputWord (recOutV r) (recEs r) (recOutExp r)).toInt
    let a := (convertChannel mine (recOutExp r) (recEs r)).1
    let b := (convertChannel w.toInt (recOutExp r) (recEs r)).1
    let far := decide (c.fld MG_REDTOL_LETOL * (recHi r - recLo r) < ((a - b).natAbs : Int) * 100000)
    let since := assocGet c.red.diffs i
    if !far then c.onRed fun x => { x with diffs := x.diffs.filter fun p => p.1 != i }
    else match since with
      | none => c.onRed fun x => { x with diffs := assocSet x.diffs i c.mono }
      | some t =>
        if c.mono < t + c.fld MG_REDTOL_LETIME * 1000000 then c
        else (c.onRed fun x => { x with diffs := assocSet x.diffs i c.mono }).mismatch [i]

/-- The words sent to the bound channels, by channel (R296, R665). -/
def Chip.boundWords (c : Chip) : List Byte :=
  ((c.chans.filter fun p => isAo (eActive p.2.entry) && eBind p.2.entry).map fun p => toBytes 2 p.1 ++ toBytes 4 p.2.holds.toNat).flatten

/-- The active unit's message of R665. -/
def Chip.sendMirror (c : Chip) : Chip :=
  (c.onRed fun r => { r with mirSent := some c.mono }).send linkPl1 ((c.enabledStages.map c.stageBytes).flatten ++ c.boundWords)

/-- STAGE_MIRROR (R665): the active unit sends, by ring 26; the standby, by ring 27, applies and compares (R642). -/
def Chip.stageMirror (c : Chip) (stages : List StageMirror) (words : List (Chan512 × Word)) : Chip :=
  if c.role = 1 then
    match c.red.mirSent with
    | some t => if c.mono < t + 1000000 then c else c.through [26] Chip.sendMirror
    | none => c.through [26] Chip.sendMirror
  else if c.role = 2 then c.through [27] fun c =>
    let c := (stages.filter fun m => c.enabledStages.contains m.stage.val).foldl Chip.mirrorStage c
    words.foldl (fun c p => (c.onRed fun r => { r with mirror := assocSet r.mirror p.1.val p.2 }).compareWord p.1.val p.2) c
  else c

/-- INPUT_DIVERGENCE (R666): a distributed value that has differed from this unit's own conversion for `ms`. -/
def Chip.inputDivergence (c : Chip) (i : Nat) (v : Word) (ms : Nat) : Chip :=
  let x := c.chan i
  let e := x.entry
  let far := match x.samples with
    | [] => false
    | s :: _ =>
      if isDi (eMode e) then s.value.getLsbD 0 != v.getLsbD 0 && decide (1 ≤ ms)
      else match rangeSpan (eRange e) with
        | none => false
        | some (lo, hi, _, _) =>
          let d := (commandOf e v).add ((commandOf e s.value).mul ⟨-1, 1⟩)
          let tol : Frac := ⟨c.fld MG_REDTOL_INTOL * (hi - lo), 1000000⟩
          (tol.lt d || tol.lt (d.mul ⟨-1, 1⟩)) && decide (c.fld MG_REDTOL_LETIME ≤ ms)
  if c.pairedStandby && far then (c.setFlag MG_REDSTAT_INDIV true).raise 0x1C12 4 0x15 (toBytes 2 (c.chanBase + i)) else c

/-! ## Forwarded changes (R658) -/

/-- The kind of a change in the event's data. -/
def forwardedKind : Forwarded → Nat
  | .patch .. => 0
  | .single .. => 1
  | .commit .. => 2
  | .update .. => 3

/-- A set of entries that waits for a cycle. -/
def Chip.forwardSet (c : Chip) (k tag cycle : Nat) (entries : List (Nat × List Byte)) : Chip :=
  let rel := entries.any fun p => safetyRelevant (c.chan p.1).entry p.2
  { c with sets := c.sets ++ [⟨tag, false, k, cycle, none, rel, entries⟩] }

/-- The standby holds a forwarded change for the start of its own cycle with that number. -/
def State.holdForwarded (s : State) (cycle : Nat) : Forwarded → State
  | .patch task tag addr entries =>
    let s := { s with mem := memPut s.mem addr.toNat entries }
    s.onChip fun c => (c.onCyc fun y =>
      { y with patches := y.patches ++ [⟨task.val, tag.toNat, addr.toNat, entries.length / 24, cycle, false⟩] }).countPatches
  | .single task tag chan entry => s.onChip fun c => c.forwardSet task.val tag.toNat cycle [(chan.val, entry)]
  | .commit task tag items => s.onChip fun c => c.forwardSet task.val tag.toNat cycle (items.map fun p => (p.1.val, p.2))
  | .update tag recs => s.onChip fun c => c.onLoop fun l => { l with upd := some ⟨tag.toNat, none, recs.map fun p => (p.1.val, p.2)⟩ }

/-- FORWARDED_CHANGE (R658). -/
def State.forwardedChange (s : State) (f : Forwarded) (cycle : Nat) (differs : Bool) : State :=
  if s.chip.role != 2 then s
  else
    let s := s.holdForwarded cycle f
    if differs then
      (s.onChip fun c => (c.onRed fun r => { r with differs := true }).raise 0x1C11 5 0x15 (toBytes 4 (forwardedKind f) ++ toBytes 8 cycle)).showReady
    else s

/-! ## The referee (R671, R672) -/

/-- Whether this unit shows RBDEV or RBMISMATCH on a channel. -/
def Chip.rbShown (c : Chip) (i : Nat) : Bool := let x := c.statusWord i; bitAt x stRbdev || bitAt x 4

/-- The first row that applies: `active` names channels on which the active unit newly shows RBDEV or RBMISMATCH, `own` those whose terminals match
this unit's item and differ from the active unit's. -/
def Chip.refereeRow (c : Chip) (chans active own : List Nat) : Nat :=
  let r := c.red
  if r.evActive && !r.evOwn then 1
  else if r.evOwn && !r.evActive then 2
  else if (chans.any fun i => active.contains i) && !(chans.any fun i => c.rbShown i) then 3
  else if chans.any fun i => own.contains i then 4
  else 5

/-- The unit leaves the set for SAFE-HOLD. -/
def Chip.standDown (c : Chip) : Chip := c.onCtl fun x => { x with fatal := true }

/-- REFEREE. -/
def Chip.referee (c : Chip) (active own : List Nat) : Chip :=
  match c.red.fight with
  | none => c
  | some chans =>
    let row := c.refereeRow chans active own
    let out := if row = 2 then 2 else if row = 5 then 3 else 1
    let c := (c.setFlds [(MG_REDSTAT_REFROW, row), (MG_REDSTAT_REFOUT, out)]).onRed fun r => { r with fight := none }
    if out = 1 then c.onRed fun r => { r with want := 1 }
    else (c.raise 0x1C14 5 0x15 (toBytes 1 row ++ toBytes 1 out)).standDown

/-! ## Handover (R673 to R679) -/

/-- HANDOVER_AGREEMENT (R673): X lies `lead` ns ahead; why is 1 TAKEOVER, 2 role swap, 3 power failure. -/
def Chip.agree (c : Chip) (lead why : Nat) (rel : Released) : Chip :=
  if !c.isDuplex || c.red.xAt.isSome || lead < 50000 || why = 0 || (c.role != 1 && c.role != 2) then c
  else
    let taking := c.role == 2
    let c := (c.onRed fun r => { r with xAt := some (c.mono + lead), taking := taking, why := why, want := 0, fight := none }).send linkPl1
      (toBytes 1 why ++ toBytes 8 (c.mono + lead))
    if taking then c.numberCycles rel else c

/-- This unit's own values for the outputs: the items of the last cycle it has ended, and its stages' outputs for bound channels (R674). -/
def State.driveOwn (s : State) : State :=
  let s := s.chip.enabledTasks.foldl (fun s k =>
    let n := s.tCore k
    let runs := ((s.chip.run k).bind (·.dead)).isSome
    s.onChip fun c => (s.tMap k).foldl (fun c i =>
      if i.kind = 2 then c.driveItem i (BitVec.ofNat 32 (getItem (if runs then c.img.outB else c.img.outF) n i)) else c) c) s
  s.onChip fun c => (List.range 512).foldl (fun c i =>
    let e := (c.chan i).entry
    if isAo (eActive e) && eBind e then
      let r := c.stageRec (eStage e)
      if recEnable r then c.driveNow i (outputWord (recOutV r) (recEs r) (recOutExp r)) else c
    else c) c

/-- CROSSFADE (R673, R674): X has come. -/
def State.crossfade (s : State) : State :=
  match s.chip.red.xAt with
  | none => s
  | some x =>
    if s.chip.mono < x || s.chip.flag MG_REDSTAT_XFADE || !s.chip.running then s
    else
      let s := s.onChip fun c => c.setFlag MG_REDSTAT_XFADE true
      if s.chip.red.taking then (s.onChip fun c => c.becomeActive.takeSeqs).driveOwn else s

/-- CROSSFADE_END (R276, R672, R673, R679): 200 µs after X. -/
def Chip.crossfadeEnd (c : Chip) : Chip :=
  match c.red.xAt with
  | none => c
  | some x =>
    if !c.flag MG_REDSTAT_XFADE || !c.running || decide (c.mono < x + 200000) then c
    else
      let why := c.red.why
      let taking := c.red.taking
      let c := (c.setFlag MG_REDSTAT_XFADE false).onRed fun r => { r with xAt := none, taking := false, why := 0 }
      let c := if why = 2 then c.bump MG_SWAPS_LO 1 else c
      if taking then c
      else
        let c := (c.setFlag MG_REDSTAT_ACTOUT false).onRed fun r => { r with peer := { r.peer with role := 1 }, swapFrom := c.now }
        if why = 1 then c.standDown
        else ((c.discardPatches.setRole 2).showMode 6).onRed fun r => { r with resync := true, differs := false, matched := [] }

/-- A unit that leaves the running modes takes no further part in a handover or a role decision: it comes back only by a request (R88, R683). -/
def Chip.leaveSet (c : Chip) : Chip :=
  (c.setFlag MG_REDSTAT_XFADE false).onRed fun r =>
    { r with xAt := none, taking := false, why := 0, want := 0, fight := none, droveAt := none, retryAt := none }

/-! ## Commands of MG_REDCMD (R680, R683, R684) -/

/-- Writes MG_REDCMDST. -/
def Chip.redResult (c : Chip) (v : Word) (res : Nat) : Chip :=
  c.setFlds [(MG_REDCMDST_VALID, 1), (MG_REDCMDST_TAG, getF MG_REDCMD_TAG v), (MG_REDCMDST_RESULT, res)]

/-- Whether a handover or the referee is in progress. -/
def Chip.redBusy (c : Chip) : Bool := c.red.xAt.isSome || c.red.fight.isSome || c.red.want != 0

/-- SWAP (R680). -/
def Chip.cmdSwap (c : Chip) (v : Word) : Chip :=
  if !c.isDuplex || c.role != 1 then c.redResult v 4
  else if c.redBusy then c.redResult v 3
  else if !c.red.peer.ready then c.redResult v 1
  else (c.onRed fun r => { r with want := 2 }).redResult v 0

/-- LEAVE. -/
def Chip.cmdLeave (c : Chip) (v : Word) : Chip :=
  if !c.isDuplex || (c.role != 1 && c.role != 2) then c.redResult v 4
  else if c.redBusy then c.redResult v 3
  else if c.role == 1 && !c.red.peer.ready then c.redResult v 1
  else c.standDown.redResult v 0

/-- JOIN (R683): the unit asks for STANDBY. -/
def Chip.cmdJoin (c : Chip) (v : Word) : Chip :=
  if !c.isDuplex || c.mode != 2 then c.redResult v 4
  else if c.redBusy then c.redResult v 3
  else if !keyAllows c.keyPos 6 then c.redResult v 2
  else (c.enqueueReq ⟨.partner 6, 0⟩).redResult v 0

/-- PERIODIC_SWAP (R681). -/
def Chip.periodicSwap (c : Chip) : Chip :=
  let due := c.red.swapFrom + c.fld MG_REDCFG_SWAPH * 3600000000000
  if c.topo != 3 || !c.flag MG_REDCFG_SWAPEN || c.role != 1 || c.fld FX_STATION_POS != 1 || c.redBusy || decide (c.now < due) ||
      decide (c.now < c.red.swapWait) then c
  else if c.red.peer.ready then c.onRed fun r => { r with want := 2 }
  else c.onRed fun r => { r with swapWait := c.now + 600000000000 }

/-- MG_SWAPDUE: hours to the next periodic swap. -/
def Chip.swapDue (c : Chip) : Nat :=
  let due := c.red.swapFrom + c.fld MG_REDCFG_SWAPH * 3600000000000
  if c.topo = 3 ∧ c.flag MG_REDCFG_SWAPEN then (due - c.now + 3599999999999) / 3600000000000 else 0

/-! ## Replay windows and resynchronisation (R678, R682) -/

/-- REPLAY_WINDOW_SYNC (R678): the active unit passes changes on; the standby takes them. -/
def Chip.windowSync (c : Chip) (ws : List Window) (seqs : List (Nat × Nat)) : Chip :=
  if c.role = 1 then
    c.send linkPl1 ((c.fab.windows.map windowBytes).flatten ++
      (c.fab.lastSeq.map fun p => toBytes 2 p.1 ++ toBytes 4 (c.nextSeq p.1)).flatten)
  else if c.role = 2 then
    (ws.foldl Chip.putWindow c).onRed fun r => { r with seqs := seqs.foldl (fun l p => assocSet l p.1 p.2) r.seqs }
  else c

/-- RESYNCHRONISATION (R682): the bulk copy has arrived. -/
def State.resynchronise (s : State) (copy : List (BitVec 35 × List Byte)) (ws : List Window) (seqs : List (Nat × Nat))
    (stages : List StageMirror) : State :=
  if s.chip.role != 2 || !s.chip.flag MG_REDSTAT_PL1UP then s
  else
    let s := copy.foldl (fun s p => s.dmaPut 0x15 p.1.toNat p.2) s
    (s.onChip fun c => ((stages.foldl Chip.mirrorStage (c.windowSync ws seqs))).onRed fun r => { r with resync := true, matched := [], differs := false }).showReady

/-! ## Meanings -/

/-- ACT_CHECK. -/
def execActCheck (actiLow : Bool) (m : State) : Out := .next (m.onChip fun c => c.actCheck actiLow)

/-- HEARTBEAT_SEND. -/
def execHeartbeatSend (m : State) : Out := .next m.heartbeatSend

/-- HEARTBEAT. -/
def execHeartbeat (pl1 : Bool) (beat : Heartbeat) (offset : BitVec 64) (m : State) : Out := .next (m.heartbeat pl1 beat offset.toNat)

/-- HEARTBEAT_LOSS. -/
def execHeartbeatLoss (actiHigh : BitVec 32) (released : Released) (m : State) : Out := .next (m.heartbeatLoss actiHigh.toNat released)

/-- PARTNER_LOST. -/
def execPartnerLost (m : State) : Out := .next (m.onChip Chip.partnerLost)

/-- PARTNER_MODE_REQUEST (R648): the partner's transition arrives as a request of precedence 4. -/
def execPartnerModeRequest (mode : Fin 8) (m : State) : Out :=
  .next (m.onChip fun c => if c.isDoubleReed then c.enqueueReq ⟨.partner mode.val, 0⟩ else c)

/-- PARTNER_SAMPLE. -/
def execPartnerSample (chan : Chan512) (stamp : BitVec 64) (value : Word) (quality : BitVec 2) (m : State) : Out :=
  .next (m.onChip fun c =>
    if c.isDoubleReed then c.through [28 + groupOf chan.val] fun c => c.partnerSample chan.val stamp.toNat value quality.toNat else c)

/-- PARTNER_DRAIN. -/
def execPartnerDrain (chan : Chan512) (value : Word) (m : State) : Out :=
  .next (if m.chip.isDoubleReed then m.partnerDrain chan.val value else m)

/-- OUTPUT_COMPARE. -/
def execOutputCompare (task : Task) (cycle : BitVec 64) (items : Option (List (Nat × Word))) (m : State) : Out :=
  .next (m.outputCompare task.val cycle.toNat items)

/-- STAGE_MIRROR. -/
def execStageMirror (stages : List StageMirror) (words : List (Chan512 × Word)) (m : State) : Out :=
  .next (m.onChip fun c => c.stageMirror stages words)

/-- INPUT_DIVERGENCE. -/
def execInputDivergence (chan : Chan512) (value : Word) (ms : BitVec 16) (m : State) : Out :=
  .next (m.onChip fun c => c.inputDivergence chan.val value ms.toNat)

/-- FORWARDED_CHANGE. -/
def execForwardedChange (change : Forwarded) (cycle : BitVec 64) (differs : Bool) (m : State) : Out :=
  .next (m.forwardedChange change cycle.toNat differs)

/-- REFEREE. -/
def execReferee (active own : List Chan512) (m : State) : Out :=
  .next (m.onChip fun c => c.referee (active.map Fin.val) (own.map Fin.val))

/-- HANDOVER_AGREEMENT. -/
def execHandoverAgreement (lead : BitVec 32) (why : BitVec 2) (released : Released) (m : State) : Out :=
  .next (m.onChip fun c => c.agree lead.toNat why.toNat released)

/-- CROSSFADE. -/
def execCrossfade (m : State) : Out := .next m.crossfade

/-- CROSSFADE_END. -/
def execCrossfadeEnd (m : State) : Out := .next (m.onChip Chip.crossfadeEnd)

/-- REPLAY_WINDOW_SYNC. -/
def execReplayWindowSync (windows : List Window) (seqs : List (Nat × Nat)) (m : State) : Out :=
  .next (m.onChip fun c => c.windowSync windows seqs)

/-- SWAP: a write of MG_REDCMD. -/
def execSwap (src : Island) (value : Word) (m : State) : Out :=
  .next (m.onChip fun c => c.whenOn src.val MG_REDCMD fun c => c.cmdSwap value)

/-- LEAVE: a write of MG_REDCMD. -/
def execLeave (src : Island) (value : Word) (m : State) : Out :=
  .next (m.onChip fun c => c.whenOn src.val MG_REDCMD fun c => c.cmdLeave value)

/-- JOIN_SET: a write of MG_REDCMD. -/
def execJoinSet (src : Island) (value : Word) (m : State) : Out :=
  .next (m.onChip fun c => c.whenOn src.val MG_REDCMD fun c => c.cmdJoin value)

/-- PERIODIC_SWAP. -/
def execPeriodicSwap (m : State) : Out := .next (m.onChip Chip.periodicSwap)

/-- RESYNCHRONISATION. -/
def execResynchronisation (copy : List (BitVec 35 × List Byte)) (windows : List Window) (seqs : List (Nat × Nat)) (stages : List StageMirror)
    (m : State) : Out := .next (m.resynchronise copy windows seqs stages)

end Sys2Proof.Machine
end

