-- ==== Sys2Proof/Machine/Modes.lean ====
section
/-!
DEFINITION. The mode controller at work: requests, transitions and their acknowledgements, island power states, and the
key switch (R60 to R63, R80 to R103, R648, R848, R855).
-/

namespace Sys2Proof.Machine

/-! ## Islands that requests depend on (R86, R102) -/

/-- A running mode: RUN, RUN-LOCKED or STANDBY. -/
def runs (mode : Nat) : Bool := mode == 4 || mode == 5 || mode == 6

/-- Whether a core has a task assigned: an enabled one that names it. -/
def State.coreHasTask (s : State) (n : Nat) : Bool := s.chip.enabledTasks.any fun k => s.tCore k == n

/-- Whether a group has an enabled channel. -/
def Chip.groupEnabled (c : Chip) (g : Nat) : Bool := (groupChans g).any fun i => eEnable (c.chan i).entry

/-- Whether entry to a running mode finds the islands it needs ON (R86). -/
def State.runIslandsOn (s : State) : Bool :=
  let c := s.chip
  ((List.range 8).all fun n => !s.coreHasTask n || c.islandOn n) && (c.enabledStages.isEmpty || c.islandOn 0x08) &&
    ((List.range 8).all fun g => !c.groupEnabled g || c.islandOn (cgIsland g)) && c.islandOn 0x16 && (c.topo == 0 || c.islandOn 0x12)

/-- Whether a store operation is admitted or a recorder flush in progress (R102). -/
def Chip.storeBusy (c : Chip) : Bool :=
  (c.flash.queues.any fun q => q.2.any FlashReq.admitted) || c.recWanted || c.flag EV_RECSTAT_FLUSHING

/-- Whether an island may take a power state in a mode, with the other islands in the states that `st` gives (R102). -/
def State.powerAllowed (s : State) (mode : Nat) (st : Nat → Nat) (island goal : Nat) : Bool :=
  let c := s.chip
  if goal = 0 then true
  else if island < 8 then !s.coreHasTask island || !runs mode
  else if island = 0x08 then c.enabledStages.isEmpty
  else if 0x0A ≤ island ∧ island < 0x12 then !c.groupEnabled (island - 0x0A)
  else if island = 0x12 then c.topo == 0
  else if island = 0x13 then true
  else if island = 0x14 then !c.storeBusy
  else if island = 0x16 then
    goal == 2 && ((List.range 9).all fun i => st i != 0) && (List.range 8).all fun g => st (cgIsland g) != 0
  else false

/-- The islands that a block reset's TARGET concerns. -/
def blockIsland (target : Nat) : Nat := if target < 8 then cgIsland target else if target < 10 then 0x13 else 0x14

/-- Whether an island is under block reset (R135). -/
def Chip.underReset (c : Chip) (island : Nat) : Bool :=
  match c.ctl.blk with
  | some (t, _) => blockIsland t == island
  | none => false

/-! ## The checks of a request (R83, R85, R86, R94, R102, R791) -/

/-- The modes from which the host may request a mode (R83). -/
def modeFrom (old new : Nat) : Bool :=
  match new with
  | 2 => decide (3 ≤ old ∧ old ≤ 7)
  | 3 => old == 2 || old == 4 || old == 5 || old == 7
  | 4 => old == 2 || old == 3 || old == 5 || old == 6
  | 5 => old == 2 || old == 3 || old == 4 || old == 6
  | 6 => decide (2 ≤ old ∧ old ≤ 5)
  | 7 => old == 2 || old == 3
  | _ => false

/-- What refuses a host request for a mode, in the order of R85. -/
def State.modeRefusal (s : State) (mode : Nat) : Option Nat :=
  if !modeFrom s.chip.mode mode || (runs mode && s.chip.flag MG_STSTAT_BOOTFAIL) then some ocNotAllowed
  else if !keyAllows s.chip.keyPos mode then some ocKeyDenied
  else if runs mode && !s.runIslandsOn then some ocStateRefused
  else none

/-- What refuses a power-state request (R98, R102, R135). -/
def State.powerRefusal (s : State) (island goal : Nat) : Option Nat :=
  if 24 ≤ island then some ocNotAllowed
  else if s.chip.underReset island then some ocBusy
  else if !s.powerAllowed s.chip.mode s.chip.islandState island goal then some ocStateRefused
  else none

/-! ## Power states of islands (R100, R848) -/

/-- A register's fields at their system-reset values (R25, R26). -/
def fieldsReset (sel : FieldDesc → Option Nat) : List FieldDesc → Word → Word
  | [], w => w
  | d :: ds, w => fieldsReset sel ds (match sel d with
    | some v => putF ⟨0, d.hi, d.lo⟩ w v
    | none => w)

/-- Takes the registers of the file whose place meets a test to their reset values; `sel` gives a field's value. The latches and the
staged words of counters go at every level (R687). -/
def Chip.resetRegs (c : Chip) (test : Nat → Bool) (sel : FieldDesc → Option Nat) : Chip :=
  let keys := (c.regs.map Prod.fst ++ regsAtPower.map Prod.fst).eraseDups
  keys.foldl (fun c k =>
    if 0x100000000 ≤ k then (if test (if k / 4 % 2 = 0 then SG_RINGDROP_LO else EV_STRLOST_LO) then c.setReg k 0#32 else c)
    else if 0xC0000000 ≤ k then
      let x := k - 0xC0000000
      if test (if x < 0x1800000 then x else SG_RINGDROP_LO) then c.setReg k (fieldsReset sel [⟨0, 0, .w1c, some 0, none⟩] (c.reg k)) else c
    else if 0x40000000 ≤ k then (if test (k % 0x40000000 % 0x2000000) then c.setReg k 0#32 else c)
    else match regDesc (k % 0x2000000) with
      | some d => if test (k % 0x2000000) then c.setReg k (fieldsReset sel d.fields (c.reg k)) else c
      | none => c) c

/-- What an island loses in OFF: it starts from its system-reset state (R100). -/
def State.islandLost (s : State) (i : Nat) : State :=
  let s := s.onChip fun c => c.resetRegs (fun k => islandOf k == i) FieldDesc.atS
  let s := { s with cores := Vector.ofFn fun n => if n.val = i then CoreSt.atReset else s.cores[n] }
  s.onChip fun c =>
    if i = 0x08 then { c with loop := Loop.atReset }
    else if 0x0A ≤ i ∧ i < 0x12 then
      let g := i - 0x0A
      { c with chans := c.chans.filter fun p => groupOf p.1 != g, grps := c.grps.filter fun p => p.1 != g }
    else if i = 0x12 then { c with fab := Fabric.reset, time := TimeUnit.atReset }
    else if i = 0x13 then { c with eths := [], cans := [] }
    else if i = 0x14 then { (c.onFlash Flash.abort) with hist := Historian.atReset }
    else c

/-- The clock of a core stops or runs again (R100). -/
def CoreSt.clock (c : CoreSt) (now mono : Nat) (on : Bool) : CoreSt :=
  match on, c.stopped with
  | true, some t => { c with
      start := c.start + (now - t), stopped := none
      timers := c.timers.map fun (i, x) => (i, { x with since := Nat.max x.since (mono / 1000 * 1000) }) }
  | false, none => { c.tick mono with stopped := some now }
  | _, _ => c

/-- The clock of the core that island `i` is, if it is one. -/
def State.clockCore (s : State) (i : Nat) (on : Bool) : State :=
  if h : i < 8 then s.onCore ⟨i, h⟩ fun c => c.clock s.chip.now s.chip.mono on else s

/-- An island takes a power state, as PW_ISLSTAT shows it (R100, R848); a CAN frame in progress ends when NX leaves ON (R638). -/
def State.setPower (s : State) (i st : Nat) : State :=
  let s := if st = 3 && s.chip.islandState i != 3 then s.islandLost i else s
  let s := if i = 0x13 && st != 0 then s.onChip fun c => { c with cans := c.cans.map fun p => (p.1, { p.2 with attempt := none }) } else s
  (s.clockCore i (st == 0)).onChip fun c => c.setIslandState i st

/-! ## Transitions (R63, R82, R232, R257, R261, R304, R440, R648, R656, R855) -/

/-- The outcome of a request that had a TAG. -/
def Chip.outcomeOf (c : Chip) (tag : Option Nat) (o : Nat) : Chip := match tag with
  | some t => c.modeOutcome t o
  | none => c

/-- The role of a unit that is in no running mode: out of the set in SAFE-HOLD, none in another mode. -/
def Chip.leaveRole (c : Chip) (mode : Nat) : Chip := if c.isDuplex then c.setRole (if mode = 2 then 3 else 0) else c

/-- What the end of a transition discards: what was accepted while it was under way, in the mode that the module now leaves (R96, R276, R327, R440), and a handover
(R88). -/
def Chip.leftMode (c : Chip) (goal : Nat) : Chip :=
  let old := c.mode
  let c := if old = 4 ∧ goal ≠ 4 then c.discardPatches else c
  let c := if runs old && !runs goal then c.discardUpd.leaveSet else c
  c.setsOnMode old goal

/-- The module enters a mode: role, tasks, loop engine, outputs; a Double Reed partner gets the mode (R648). -/
def State.enterMode (s : State) (goal : Nat) : State :=
  let old := s.chip.mode
  let s := s.onChip fun c => c.leftMode goal
  let first := runs goal && !runs old
  let (mode, c) := if runs goal && (first || goal == 6 || old == 6) then s.chip.decideRole goal else (goal, s.chip)
  let c := c.showMode mode
  let c := if runs mode then c else c.leaveRole mode
  let c := if c.safeMode then c.outputsSafe else c
  let s := { s with chip := c }
  let e := s.chip.nextEpoch
  let s := if first then s.startTasks.onChip fun c => c.leStart e else s
  s.onChip fun c =>
    let c := c.onCtl fun x => { x with trans := none, doneAt := c.mono }
    if c.isDoubleReed then c.send linkPl0 (toBytes 1 1 ++ toBytes 1 mode) else c

/-- What a mode transition does at its start: leaving the running modes stops tasks and the engine, leaving RUN discards patch sets
(R261, R276, R320, R440). -/
def State.beginMode (s : State) (goal : Nat) : State :=
  let old := s.chip.mode
  let s := if runs old && !runs goal then s.leaveRunning.onChip Chip.leStop
    else if old = 4 then s.onChip Chip.discardPatches else s
  s.onChip fun c => c.setsOnMode old goal

/-- A mode transition starts; every other island that is ON has to acknowledge (R63, R855). -/
def State.startMode (s : State) (goal : Nat) (tag : Option Nat) : State :=
  let s := s.beginMode goal
  let waiting := (List.range 24).filter fun i => i != 0x15 && s.chip.islandOn i
  s.onChip fun c => c.onCtl fun x => { x with trans := some ⟨goal, none, tag, waiting, c.mono, false⟩ }

/-- A change of an island's power state starts; one to the state it is in is done at once (R855). -/
def State.startPower (s : State) (island goal : Nat) (tag : Option Nat) : State :=
  s.onChip fun c =>
    if c.islandState island == goal then c.outcomeOf tag ocDone
    else c.onCtl fun x => { x with trans := some ⟨goal, some island, tag, [island], c.mono, false⟩ }

/-- The last acknowledgement has come: a mode is entered, an island leaves ON or starts its return (R63, R848). -/
def State.allAcked (s : State) (t : Trans) : State :=
  match t.island with
  | none => (s.enterMode t.goal).onChip fun c => c.outcomeOf t.tag ocDone
  | some i =>
    if t.goal = 0 then s.onChip fun c => c.onCtl fun x => { x with trans := some { t with waiting := [], back := true } }
    else (s.setPower i t.goal).onChip fun c =>
      (c.onCtl fun x => { x with trans := none, doneAt := c.mono }).outcomeOf t.tag ocDone

/-- TRANSITION_ACKNOWLEDGE (R63). -/
def State.acknowledge (s : State) (i : Nat) : State :=
  match s.chip.ctl.trans with
  | none => s
  | some t =>
    if !t.waiting.contains i then s
    else
      let t := { t with waiting := t.waiting.filter (· != i) }
      if t.waiting.isEmpty then s.allAcked t
      else s.onChip fun c => c.onCtl fun x => { x with trans := some t }

/-- ISLAND_RETURN_COMPLETE (R848). -/
def State.returned (s : State) (i : Nat) : State :=
  match s.chip.ctl.trans with
  | none => s
  | some t =>
    if !t.back || t.island != some i then s
    else (s.setPower i 0).onChip fun c => (c.onCtl fun x => { x with trans := none, doneAt := c.mono }).outcomeOf t.tag ocDone

/-- SAFE-HOLD entered without a transition of its own, after one that failed (R63); BOOT ends in SAFE-HOLD later, and RECOVERY stays
(R84, R850). -/
def State.fallSafe (s : State) : State :=
  if s.chip.mode = 1 then s
  else if s.chip.mode = 0 then s.onChip fun c => c.onCtl fun x => { x with bootSafe := true }
  else (s.beginMode 2).enterMode 2

/-- TRANSITION_TIMEOUT (R63): an island has not acknowledged within 1 ms. -/
def State.transitionTimeout (s : State) : State :=
  match s.chip.ctl.trans with
  | none => s
  | some t =>
    match t.waiting with
    | [] => s
    | i :: _ =>
      if s.chip.mono < t.since + 1000000 then s
      else
        let s := s.onChip fun c =>
          let c := c.onCtl fun x => { x with trans := none, doneAt := c.mono }
          (c.raise 0x1E01 6 0x15 (toBytes 1 i ++ toBytes 1 (b2n t.island.isSome) ++ toBytes 1 t.goal)).outcomeOf t.tag ocAckTimeout
        s.fallSafe

/-! ## The next request (R60 to R62, R85, R106, R107, R648, R850) -/

/-- The next request of precedence 4 or 5. -/
def nextReq (q : List ModeReq) : Option ModeReq :=
  match q.find? fun r => match r.kind with | .partner _ => true | _ => false with
  | some r => some r
  | none => q.head?

/-- The state that the armed profile names for an island; four islands stay ON (R107). -/
def Chip.profileState (c : Chip) (i : Nat) : Nat :=
  if i = 0x09 ∨ i = 0x14 ∨ i = 0x15 ∨ i = 0x17 then 0
  else if i < 16 then bitsOf (c.reg PW_FLUSHCFG0).toNat (2 * i + 1) (2 * i)
  else bitsOf (c.reg PW_FLUSHCFG1).toNat (2 * (i - 16) + 1) (2 * (i - 16))

/-- The profile goes on with its islands: one that is in its state already is passed over, one under block reset is waited for (R106,
R135); one whose change fails for want of an acknowledgement stays as it is and the profile goes on with the next, a choice (log entry 101); at the
end EXECUTED is set. -/
def State.flushNext (s : State) : List Nat → State
  | [] => s.onChip fun c => (c.onCtl fun x => { x with flushing := none }).setFlag PW_FLUSHCTL_EXECUTED true
  | i :: is =>
    if s.chip.islandState i == s.chip.profileState i then s.flushNext is
    else
      if s.chip.underReset i then s.onChip fun c => c.onCtl fun x => { x with flushing := some (i :: is) }
      else (s.onChip fun c => c.onCtl fun x => { x with flushing := some is }).startPower i (s.chip.profileState i) none

/-- The profile is taken: SAFE-HOLD first, but in BOOT and RECOVERY (R106, R850). -/
def State.takeFlush (s : State) : State :=
  let s := s.onChip fun c =>
    { (c.onCtl fun x => { x with flush := false, flushing := some (List.range 24) }) with power := { c.power with ran := true } }
  if s.chip.mode ≤ 2 then s else s.startMode 2 none

/-- A fatal fault is taken (R62, R850). -/
def State.takeFatal (s : State) : State :=
  let s := s.onChip fun c => c.onCtl fun x => { x with fatal := false }
  match s.chip.mode with
  | 0 => s.onChip fun c => c.onCtl fun x => { x with bootSafe := true }
  | 1 => s
  | 2 => s.onChip fun c => c.onCtl fun x => { x with doneAt := c.mono }
  | _ => s.startMode 2 none

/-- A pair partner's mode: SAFE-HOLD where this module's key or islands do not allow it (R94, R648). -/
def State.takePartner (s : State) (mode : Nat) : State :=
  let old := s.chip.mode
  if mode ≤ 1 || old ≤ 1 || mode == old then s
  else
    let allowed := keyAllows s.chip.keyPos mode && (!runs mode || (s.runIslandsOn && !s.chip.flag MG_STSTAT_BOOTFAIL))
    if allowed then s.startMode mode none else if old = 2 then s else s.startMode 2 none

/-- A request of precedence 4 or 5 is taken (R85, R98). -/
def State.takeReq (s : State) (r : ModeReq) : State :=
  match r.kind with
  | .partner mode => s.takePartner mode
  | .host mode => match s.modeRefusal mode with
    | some o => s.onChip fun c => c.modeOutcome r.tag o
    | none => s.startMode mode (some r.tag)
  | .power island goal => match s.powerRefusal island goal with
    | some o => s.onChip fun c => c.modeOutcome r.tag o
    | none => s.startPower island goal (some r.tag)

/-- MODE_TRANSITION: the next request by precedence; a key change that is next is the command KEY_CHANGE's (R60, R62). -/
def State.modeTransition (s : State) : State :=
  let x := s.chip.ctl
  if x.trans.isSome then s
  else match x.flushing with
    | some l => s.flushNext l
    | none =>
      if x.flush then s.takeFlush
      else if x.fatal then s.takeFatal
      else if x.key.isSome then s
      else match nextReq x.queue with
        | none => s
        | some r => (s.onChip fun c => c.onCtl fun y => { y with queue := y.queue.erase r }).takeReq r

/-! ## The key switch (R89 to R97) -/

/-- Changes the key switch. -/
def Chip.onKey (c : Chip) (f : Key → Key) : Chip := { c with key := f c.key }

/-- The position a pattern of contacts shows (R89). -/
def keyPattern (a b : Nat) : Option Nat :=
  if a ≠ b then none else if a = 1 then some 0 else if a = 2 then some 1 else if a = 4 then some 2 else if a = 8 then some 3 else none

/-- The pattern of the contacts now. -/
def Chip.keyShown (c : Chip) : Option Nat := keyPattern (c.fld MG_KEYSW_CONTACT_A) (c.fld MG_KEYSW_CONTACT_B)

/-- All eight contacts are open. -/
def Chip.keyOpen (c : Chip) : Bool := c.fld MG_KEYSW_CONTACT_A == 0 && c.fld MG_KEYSW_CONTACT_B == 0

/-- MOVING: all contacts open, or a pattern that is not yet a key fault (R90, R91). -/
def Chip.showMoving (c : Chip) : Chip :=
  c.setFlag MG_KEYSW_MOVING (c.keyOpen || (c.keyShown.isNone && !c.flag MG_KEYSW_FAULT))

/-- KEY_CONTACT_CHANGE (R89 to R91). Where the valid position's pattern comes back for less than 20 ms and ends again, the 500 ms count from that end, a choice (log
entry 102). -/
def Chip.keyContacts (c : Chip) (a b : Nat) : Chip :=
  if c.fld MG_KEYSW_CONTACT_A == a && c.fld MG_KEYSW_CONTACT_B == b then c
  else
    let inForce := c.key.valid && !c.flag MG_KEYSW_FAULT && c.keyShown == some c.keyPos
    let c := c.setFlds [(MG_KEYSW_CONTACT_A, a), (MG_KEYSW_CONTACT_B, b)]
    let unexplained := c.keyShown.isNone && !c.keyOpen
    (c.onKey fun k => { k with
      since := c.now, odd := if unexplained then (if k.odd.isSome then k.odd else some c.now) else none
      ended := if inForce then some c.now else k.ended }).showMoving

/-- An instant since which something stands, counted from the rise of internal reset at the earliest (R93). -/
def Chip.fromRise (c : Chip) (t : Nat) : Nat := if t < c.monoBase then c.monoBase else t

/-- KEY_POSITION_VALID (R89, R92, R93): a valid pattern has been stable for 20 ms. -/
def Chip.keyValid (c : Chip) : Chip :=
  match c.keyShown with
  | none => c
  | some p =>
    if c.power.reset.isSome || decide (c.now < c.fromRise c.key.since + 20000000) then c
    else
      let same := c.key.valid && !c.flag MG_KEYSW_FAULT && c.keyPos == p
      let c := ((c.setFlds [(MG_KEYSW_FAULT, 0), (MG_KEYSW_POS, p)]).onKey fun k =>
        { k with odd := none, ended := none, valid := true }).showMoving
      if same then c else c.keyRequest p

/-- Whether a key fault is due (R91, R93). -/
def Chip.keyFaultDue (c : Chip) : Bool :=
  let late := fun (t : Option Nat) (n : Nat) => match t with
    | some x => decide (c.fromRise x + n ≤ c.now)
    | none => false
  c.power.reset.isNone && !c.flag MG_KEYSW_FAULT &&
    (late c.key.odd 20000000 || (if c.key.valid then late c.key.ended 500000000 else decide (c.monoBase + 500000000 ≤ c.now)))

/-- KEY_FAULT (R91): the module acts as if the key were in LOCK. -/
def Chip.keyFault (c : Chip) : Chip :=
  if !c.keyFaultDue then c
  else
    let c := ((c.setFlds [(MG_KEYSW_FAULT, 1), (MG_KEYSW_POS, 0)]).onKey fun k => { k with ended := none }).showMoving
    (c.raise 0x1D02 4 0x15 (toBytes 1 (c.fld MG_KEYSW_CONTACT_A) ++ toBytes 1 (c.fld MG_KEYSW_CONTACT_B))).keyRequest 0

/-- The mode a key change moves the module to, if any (R95). -/
def keyMoves (mode pos : Nat) : Option Nat :=
  match mode with
  | 3 => if pos ≤ 1 then some 2 else none
  | 4 => if pos = 0 then some 5 else none
  | 7 => if pos = 3 then none else some 2
  | _ => none

/-- KEY_CHANGE (R95, R96). -/
def State.keyChange (s : State) : State :=
  let x := s.chip.ctl
  match x.key with
  | none => s
  | some p =>
    if x.trans.isSome || x.flushing.isSome || x.flush || x.fatal then s
    else
      let s := s.onChip fun c => c.onCtl fun y => { y with key := none }
      match keyMoves s.chip.mode p with
      | none => s
      | some 5 => (s.onChip fun c => c.raise 0x1D03 3 0x15 (toBytes 1 c.cyc.patches.length)).startMode 5 none
      | some m => s.startMode m none

/-! ## Meanings -/

/-- MODE_REQUEST (R61, R98). -/
def execModeRequest (src : Island) (value : Word) (m : State) : Out :=
  .next (m.onChip fun c => c.whenOn src.val MG_MODEREQ fun c =>
    c.enqueueReq ⟨.host (getF MG_MODEREQ_TARGET value), getF MG_MODEREQ_TAG value⟩)

/-- MODE_TRANSITION (R85). -/
def execModeTransition (m : State) : Out := .next m.modeTransition

/-- TRANSITION_ACKNOWLEDGE (R63). -/
def execTransitionAcknowledge (island : Island) (m : State) : Out := .next (m.acknowledge island.val)

/-- TRANSITION_TIMEOUT (R63). -/
def execTransitionTimeout (m : State) : Out := .next m.transitionTimeout

/-- POWER_STATE_REQUEST (R98, R101). -/
def execPowerStateRequest (src : Island) (value : Word) (m : State) : Out :=
  .next (m.onChip fun c => c.whenOn src.val PW_ISLREQ fun c =>
    c.enqueueReq ⟨.power (getF PW_ISLREQ_ISLAND value) (getF PW_ISLREQ_STATE value), getF PW_ISLREQ_TAG value⟩)

/-- ISLAND_RETURN_COMPLETE (R848). -/
def execIslandReturnComplete (island : Island) (m : State) : Out := .next (m.returned island.val)

/-- KEY_CONTACT_CHANGE (R89): contacts A and B of LOCK, RUN, PROG and SERVICE in bits 0 to 3. -/
def execKeyContactChange (contactA contactB : BitVec 4) (m : State) : Out :=
  .next (m.onChip fun c => c.keyContacts contactA.toNat contactB.toNat)

/-- KEY_POSITION_VALID (R89). -/
def execKeyPositionValid (m : State) : Out := .next (m.onChip Chip.keyValid)

/-- KEY_FAULT (R91). -/
def execKeyFault (m : State) : Out := .next (m.onChip Chip.keyFault)

/-- KEY_CHANGE (R95). -/
def execKeyChange (m : State) : Out := .next m.keyChange

end Sys2Proof.Machine
end

