-- ==== Sys2Proof/Machine/Power.lean ====
section
/-!
DEFINITION. Logic power, the hold-up bank and the FLUSH profile, stores of the configuration block, straps, pins, the ramp of a range
change and the field buffer (R104 to R112, R125, R126, R128, R129, R528, R777, R819, R824, R828, R847, R849).
-/

namespace Sys2Proof.Machine

/-- Changes the state of logic power. -/
def Chip.onPower (c : Chip) (f : Power → Power) : Chip := { c with power := f c.power }

/-! ## Logic power (R104, R105, R108, R109, R819, R846, R847) -/

/-- LOGIC_INPUTS_LOW: the store takes the load over once internal reset has risen (R847); before that the power-up is abandoned (R846). -/
def Chip.inputsLow (c : Chip) : Chip :=
  c.onPower fun p => { p with onStore := p.risen, dropped := p.dropped || !p.risen, lowAt := if p.lowAt.isSome then p.lowAt else some c.now }

/-- LOGIC_INPUT_RECOVER: an input is above 17.0 V again. -/
def Chip.inputRecover (c : Chip) : Chip := c.onPower fun p => { p with onStore := false, lowAt := none }

/-- POWER_FAILURE (R104, R105, R670, R713, R738): both inputs have been below 17.0 V for 200 µs. -/
def Chip.powerFailure (c : Chip) : Chip :=
  match c.power.lowAt with
  | none => c
  | some t =>
    if !c.power.risen || c.power.failAt.isSome || decide (c.now < t + 200000) then c
    else
      let ms := c.opmsNow
      let c := (c.onRec fun r => { r with opms := ms, opmsAt := c.now }).onPower fun p => { p with failAt := some t, ran := false }
      let c := (c.wantFlush.setFlag PW_FLUSHCTL_PFAIL true).histPowerFail
      if c.role = 1 && c.red.peer.ready then c.onRed fun r => { r with want := 3 } else c

/-- POWER_RESTORED (R104, R108, R109): an input rose above 18.0 V `ago` ns ago and has stayed above. -/
def Chip.powerRestored (c : Chip) (ago : Nat) : Chip :=
  match c.power.failAt with
  | none => c
  | some t =>
    if ago < 100000000 || c.power.lowAt.isSome || decide (c.now < t + ago) then c
    else
      let len := c.now - ago - t
      let c := if c.power.ran then c.raise 0x1E03 5 0x15 (toBytes 4 (len / 1000000)) else c.raise 0x1E02 4 0x15 (toBytes 4 (len / 1000))
      let c := (c.setFlag PW_FLUSHCTL_PFAIL false).onPower fun p => { p with failAt := none, ran := false }
      let c := (c.onRec fun r => { r with opmsAt := c.now }).onHist fun h => { h with closed := false }
      c.onCtl fun x => { x with flush := false }

/-- LOGIC_INPUT_LOST (R819): one input has been below 17.0 V for 200 µs, the other has not. -/
def Chip.inputLost (c : Chip) (b : Bool) : Chip :=
  let was := if b then c.power.lostB else c.power.lostA
  if was || c.power.lowAt.isSome then c
  else (c.onPower fun p => if b then { p with lostB := true } else { p with lostA := true }).raise 0x1E09 4 0x15 (toBytes 1 (b2n b))

/-- LOGIC_INPUT_RESTORED (R819): it has been above 18.0 V for 100 ms. -/
def Chip.inputRestored (c : Chip) (b : Bool) : Chip :=
  c.onPower fun p => if b then { p with lostB := false } else { p with lostA := false }

/-- BANK_DISCONNECT (R824): the bank has fallen to Vmin, where E is 0. -/
def Chip.bankDisconnect (c : Chip) : Chip :=
  if c.power.lowAt.isNone && c.power.failAt.isNone then c
  else ({ c.onPower fun p => { p with bankOpen := true } with energy := 0 }).setFlds
    [(PW_HOLDUP_CHARGING, 0), (PW_HOLDUP_BELOWRES, 1), (PW_HOLDUP_EAVAIL, 0)]

/-! ## The FLUSH profile (R106, R110 to R112) -/

/-- Whether the profile's states are such that R102 allows them in SAFE-HOLD; four islands are accepted whatever it names (R111). -/
def State.profileAllowed (s : State) : Bool :=
  (List.range 24).all fun i =>
    i == 0x09 || i == 0x14 || i == 0x15 || i == 0x17 || s.powerAllowed 2 s.chip.profileState i (s.chip.profileState i)

/-- A write of PW_FLUSHCTL but for ARM: the W1C bits, and RIDE_MS while ARM reads 0 (R112). -/
def Chip.writeFlushctl (c : Chip) (v : Word) : Chip :=
  let c := if getF PW_FLUSHCTL_EXECUTED v = 1 then c.setFlag PW_FLUSHCTL_EXECUTED false else c
  let c := if getF PW_FLUSHCTL_ARMREF v = 1 then c.setFlag PW_FLUSHCTL_ARMREF false else c
  if c.flag PW_FLUSHCTL_ARM then c else c.setFld PW_FLUSHCTL_RIDE_MS (getF PW_FLUSHCTL_RIDE_MS v)

/-- FLUSH_ARM (R111). -/
def State.flushArm (s : State) (v : Word) : State :=
  let s := s.onChip fun c => c.writeFlushctl v
  if s.chip.flag PW_FLUSHCTL_ARM then s
  else if s.chip.fld PW_FLUSHCTL_RIDE_MS ≤ 2000 && s.profileAllowed then s.onChip fun c => c.setFlag PW_FLUSHCTL_ARM true
  else s.onChip fun c => c.setFlag PW_FLUSHCTL_ARMREF true

/-- FLUSH_DISARM. -/
def Chip.flushDisarm (c : Chip) (v : Word) : Chip :=
  ((c.writeFlushctl v).setFlag PW_FLUSHCTL_ARM false).onCtl fun x => { x with flush := false }

/-- FLUSH_PROFILE_EXECUTE (R106): the ride-through time, from the declaration of the failure, has passed; a handover agreed for the failure ends first (R670). -/
def Chip.flushExecute (c : Chip) : Chip :=
  match c.power.failAt with
  | none => c
  | some t =>
    if !c.flag PW_FLUSHCTL_ARM || c.power.ran || c.ctl.flushing.isSome || (c.red.xAt.isSome && c.red.why == 3) || decide (c.now < t + 200000 + c.fld PW_FLUSHCTL_RIDE_MS * 1000000) then c
    else c.onCtl fun x => { x with flush := true }

/-! ## Stores of the configuration block (R528, R777, R849) -/

/-- What waits to be stored: the result of a migration (R776). -/
def storeMigrated : Nat := 2

/-- The format version that the running main image writes (CFGFMT, R764). -/
def Chip.imageFmt (c : Chip) : Nat := bytesAt c.sec.image 0x0B 1

/-- Stores one thing in the area in use: the safety configuration with TP_HASHREF, a migrated area, or one register. -/
def Chip.storeOne (c : Chip) (what : Nat) : Chip :=
  let put := fun (c : Chip) (ks : List Nat) => c.onArea fun a => { a with words := ks.foldl (fun m k => mapSet 0#32 m k (c.reg k)) a.words }
  if what = storeSafety then
    ((put c (activeKeys ++ (List.range 8).map fun j => TP_HASHREF j)).onArea fun a =>
      { a with words := mapSet 0#32 a.words storeSafety 1#32 }).showStored
  else if what = storeMigrated then
    let old := if c.flag MG_BOOTSTAT_CFGAREA then c.area0 else c.area1
    { (c.onArea fun _ => ⟨c.imageFmt, old.words⟩).showStored with sec := { c.sec with migSaved := true } }
  else put c [what]

/-- CONFIG_STORE: the first store that waits, as the Breath check admits it; a deferred one is retried every 10 s (R708). -/
def Chip.configStore (c : Chip) : Chip :=
  let early := match c.storeDef with
    | some t => decide (c.now < t + 10000000)
    | none => false
  match c.toStore with
  | [] => c
  | w :: ws =>
    if early then c
    else if c.breath needProgram then { c.storeOne w with toStore := ws, storeDef := none }
    else { (if c.storeDef.isSome then c else c.countDeferred) with storeDef := some c.now }

/-- AUTOSTART_WRITE (R23, R24, R849). -/
def Chip.writeStartcfg (c : Chip) (src : Nat) (v : Word) : Chip :=
  if !c.modeLockOpen then c.rwlIgnored src MG_STARTCFG
  else (c.setFld MG_STARTCFG_AUTOSTART (getF MG_STARTCFG_AUTOSTART v)).wantStore MG_STARTCFG

/-! ## Clock, pins, ramps, field buffers -/

/-- CLOCK_FALLBACK (R125): the backplane reference has not locked within 10 ms of the sampling edge. -/
def Chip.clockFallback (c : Chip) : Chip :=
  if !c.flag MG_STRAP_CLKSEL || c.flag MG_STRAP_CLK_FALLBACK || c.power.reset.isSome || decide (c.mono < 10000000) then c
  else (c.setFlag MG_STRAP_CLK_FALLBACK true).raise 0x1E04 5 0x15 []

/-- PIN_RELEASE (R126): a write of 0 after 1 is ignored. -/
def Chip.pinRelease (c : Chip) (v : Word) : Chip :=
  if getF MG_PINREL_RELEASE v = 1 then c.setFlag MG_PINREL_RELEASE true else c

/-- A backplane logic output as its function drives it: high-impedance until software has written RELEASE (R126). -/
def Chip.gated (c : Chip) (d : Drive) : Drive := if c.flag MG_PINREL_RELEASE then d else .highZ

/-- ACTO_N: an open drain, low while this unit claims to be the active one (R126, R655, R812). -/
def Chip.actoPin (c : Chip) : Drive := c.gated (if c.flag MG_REDSTAT_ACTOUT then .low else .highZ)

/-- PE0_PERST_N and PE1_PERST_N: low until ST has brought the root port up, whatever RELEASE reads (R126, R812). -/
def Chip.perstPin (c : Chip) (port : Bool) : Drive := if (if port then c.hist.portUp1 else c.hist.portUp0) then .high else .low

/-- RANGE_RAMP_END (R128, R129). -/
def Chip.rampEnd (c : Chip) (i : Nat) : Chip :=
  match (c.chan i).ramp with
  | none => c
  | some r => if c.mono / 25 ≤ r.stop / 25 then c else (c.onChan i fun x => x.endRamp c.mono).pushReadback i

/-- FIELD_BUFFER_CHARGED (R828): the buffer has reached 18.0 V. -/
def Chip.bufferCharged (c : Chip) (g : Nat) : Chip := c.onGrp g fun x => { x with filling := false }

/-! ## Meanings -/

/-- LOGIC_INPUTS_LOW (R847). -/
def execLogicInputsLow (m : State) : Out := .next (m.onChip Chip.inputsLow)

/-- LOGIC_INPUT_RECOVER (R847). -/
def execLogicInputRecover (m : State) : Out := .next (m.onChip Chip.inputRecover)

/-- POWER_FAILURE (R104). -/
def execPowerFailure (m : State) : Out := .next (m.onChip Chip.powerFailure)

/-- POWER_RESTORED (R108). -/
def execPowerRestored (ago : BitVec 64) (m : State) : Out := .next (m.onChip fun c => c.powerRestored ago.toNat)

/-- FLUSH_PROFILE_EXECUTE (R106). -/
def execFlushProfileExecute (m : State) : Out := .next (m.onChip Chip.flushExecute)

/-- FLUSH_ARM (R111): a write of PW_FLUSHCTL with ARM = 1. -/
def execFlushArm (src : Island) (value : Word) (m : State) : Out :=
  .next (m.whenOn src.val PW_FLUSHCTL fun m => m.flushArm value)

/-- FLUSH_DISARM (R111): a write of PW_FLUSHCTL with ARM = 0. -/
def execFlushDisarm (src : Island) (value : Word) (m : State) : Out :=
  .next (m.onChip fun c => c.whenOn src.val PW_FLUSHCTL fun c => c.flushDisarm value)

/-- AUTOSTART_WRITE (R849). -/
def execAutostartWrite (src : Island) (value : Word) (m : State) : Out :=
  .next (m.onChip fun c => c.whenOn src.val MG_STARTCFG fun c => c.writeStartcfg src.val value)

/-- CONFIG_STORE (R528, R849). -/
def execConfigStore (m : State) : Out := .next (m.onChip Chip.configStore)

/-- CLOCK_FALLBACK (R125). -/
def execClockFallback (m : State) : Out := .next (m.onChip Chip.clockFallback)

/-- PIN_RELEASE (R126). -/
def execPinRelease (src : Island) (value : Word) (m : State) : Out :=
  .next (m.onChip fun c => c.whenOn src.val MG_PINREL fun c => c.pinRelease value)

/-- RANGE_RAMP_END (R128). -/
def execRangeRampEnd (chan : Chan512) (m : State) : Out := .next (m.onChip fun c => c.rampEnd chan.val)

/-- FIELD_BUFFER_CHARGED (R828). -/
def execFieldBufferCharged (group : Group) (m : State) : Out := .next (m.onChip fun c => c.bufferCharged group.val)

/-- LOGIC_INPUT_LOST (R819): input A or B. -/
def execLogicInputLost (inputB : Bool) (m : State) : Out := .next (m.onChip fun c => c.inputLost inputB)

/-- LOGIC_INPUT_RESTORED (R819). -/
def execLogicInputRestored (inputB : Bool) (m : State) : Out := .next (m.onChip fun c => c.inputRestored inputB)

/-- BANK_DISCONNECT (R824). -/
def execBankDisconnect (m : State) : Out := .next (m.onChip Chip.bankDisconnect)

end Sys2Proof.Machine
end

