-- ==== Sys2Proof/Machine/Security.lean ====
section
/-!
DEFINITION. The anchor store: commit words, key sets, the key store's state, key staging and commit, zeroisation and the anti-rollback
counter (R743 to R756, R779 to R781, R799 to R801).
-/

namespace Sys2Proof.Machine

/-- Changes security's state. -/
def Chip.onSec (c : Chip) (f : Security → Security) : Chip := { c with sec := f c.sec }

/-- Changes the anchor store. -/
def Chip.onAnchor (c : Chip) (f : Anchor → Anchor) : Chip := c.onSec fun x => { x with anchor := f x.anchor }

/-! ## Commit words (R744, R746, R747) -/

/-- CRC-8, polynomial 0x07, over `n` bits of a word from the highest. -/
def crc8 : Nat → Nat → Nat → Nat
  | 0, _, x => x
  | n + 1, w, x =>
    let y := x ^^^ (if w.testBit n then 0x80 else 0)
    crc8 n w (if y.testBit 7 then (y * 2 ^^^ 0x07) % 256 else y * 2 % 256)

/-- A commit word: bits 23:0 with their CHECK (R747). -/
def commitWord (low : Nat) : Word := BitVec.ofNat 32 (low % 2 ^ 24 + crc8 24 low 0 * 2 ^ 24)

/-- Whether a word's CHECK agrees. -/
def checkOk (w : Word) : Bool := commitWord (w.toNat % 2 ^ 24) == w

/-- The latest word of a log (R744). -/
def latestWord (l : List (Word × Bool)) : Option Word := (l.reverse.find? fun p => p.2 && checkOk p.1).map Prod.fst

/-- Whether a log is full (R746). -/
def logFull (l : List (Word × Bool)) : Bool := decide (4096 ≤ l.length)

/-- Shows the free words of both logs. -/
def Chip.showLogs (c : Chip) : Chip :=
  c.setFlds [(MG_KSSTAT_KEYFREE, 4096 - c.sec.anchor.keyLog.length), (MG_BOOTLOG_FREE, 4096 - c.sec.anchor.bootLog.length)]

/-- Programs a key word. -/
def Chip.addKeyWord (c : Chip) (low : Nat) : Chip := (c.onAnchor fun a => { a with keyLog := a.keyLog ++ [(commitWord low, true)] }).showLogs

/-- Programs a boot word. -/
def Chip.addBootWord (c : Chip) (low : Nat) : Chip := (c.onAnchor fun a => { a with bootLog := a.bootLog ++ [(commitWord low, true)] }).showLogs

/-- A zeroisation word's bits (R800). -/
def zeroWord : Nat := 0xFFFFFF

/-! ## Key sets (R749, R750) -/

/-- An entry of a key set. -/
structure KeyEntry where
  id    : Nat
  roles : Nat
  smin  : Nat
  smax  : Nat
  pub   : List Byte
  deriving DecidableEq, Repr

/-- The roles of R750, as bits. -/
def roleRead : Nat := 0
def roleOperate : Nat := 1
def roleEngineer : Nat := 2
def roleSafety : Nat := 3
def roleUpdate : Nat := 4
def roleRecorder : Nat := 5
def roleKeys : Nat := 6
def roleLocal : Nat := 15

/-- Bytes of a list by offset and length. -/
def cut (b : List Byte) (o n : Nat) : List Byte := (b.drop o).take n

/-- Whether a range of bytes is all zeros. -/
def zeros (b : List Byte) (o n : Nat) : Bool := (cut b o n).all fun x => x == 0#8

def setGen (b : List Byte) : Nat := bytesAt b 4 4
def setCount (b : List Byte) : Nat := bytesAt b 8 2
def setSigner (b : List Byte) : Nat := bytesAt b 10 2

/-- Entry i of a key set. -/
def setEntry (b : List Byte) (i : Nat) : KeyEntry :=
  let o := 0x40 + 0x80 * i
  ⟨bytesAt b o 2, bytesAt b (o + 2) 2, bytesAt b (o + 4) 2, bytesAt b (o + 6) 2, cut b (o + 0x1F) 97⟩

/-- The entries of a key set. -/
def setEntries (b : List Byte) : List KeyEntry := (List.range (if setCount b < 32 then setCount b else 32)).map fun i => setEntry b i

/-- The first KEY-ADMIN entry. -/
def firstAdmin (l : List KeyEntry) : Option KeyEntry := l.find? fun e => e.roles.testBit roleKeys

/-- A key set's fields are well formed: FORMAT, COUNT, KEYIDs, stations, roles, reserved bytes. -/
def setShape (b : List Byte) : Bool :=
  let es := setEntries b
  b.length == 8192 && bytesAt b 0 4 == 1 && decide (1 ≤ setGen b ∧ 1 ≤ setCount b ∧ setCount b ≤ 32) && zeros b 0x0C 52 && zeros b 0x10A0 3932 &&
    es.all (fun e => decide (1 ≤ e.id ∧ e.id ≤ 65534 ∧ e.smin ≤ e.smax ∧ e.roles % 128 + e.roles / 32768 * 32768 = e.roles)) &&
    ((List.range es.length).all fun i => zeros b (0x40 + 0x80 * i + 8) 23) && (es.map KeyEntry.id).eraseDups.length == es.length

/-- VALID has been programmed. -/
def setValid (b : List Byte) : Bool := bytesAt b 0x1FFC 4 == 0x5A5A

/-- Whether a key signs a set. -/
def setSigned (b : List Byte) (e : KeyEntry) : Bool := sigOk (pubFull e.pub) (b.take 0x1040) (cut b 0x1040 96)

/-- Whether a set's SIGNER is a KEY-ADMIN entry of another set whose key verifies SIG (R752). -/
def signedBy (b active : List Byte) : Bool :=
  (setEntries active).any fun e => e.id == setSigner b && e.roles.testBit roleKeys && setSigned b e

/-- Whether an enrolment set is signed by its own first KEY-ADMIN entry (R756). -/
def selfSigned (b : List Byte) : Bool := setSigner b == 0 && match firstAdmin (setEntries b) with
  | some e => setSigned b e
  | none => false

/-! ## The key store (R751, R752, R755, R756, R800) -/

/-- The contents of a slot: false A, true B. -/
def Anchor.slot (a : Anchor) (b : Bool) : List Byte := if b then a.slotB else a.slotA

/-- Whether SIG agrees at BOOT: against its signer where the set that holds it is still there (log entry 72). -/
def Anchor.sigAgrees (a : Anchor) (b : Bool) : Bool :=
  let x := a.slot b
  let other := a.slot !b
  if setSigner x = 0 then selfSigned x
  else !(setValid other && setShape other && setGen other + 1 == setGen x) || signedBy x other

/-- The state of the key store at BOOT: 0 EMPTY, 1 KSFAULT, 2 active in slot A, 3 active in slot B (R751, R800). -/
def Anchor.state (a : Anchor) : Nat :=
  let erased := a.slotA.isEmpty && a.slotB.isEmpty
  match latestWord a.keyLog with
  | none => if a.keyLog.isEmpty && erased then 0 else 1
  | some w =>
    let low := w.toNat % 2 ^ 24
    if low = zeroWord then (if erased then 0 else 1)
    else
      let b := low.testBit 23
      let x := a.slot b
      if setValid x && setShape x && setGen x % 2 ^ 23 == low % 2 ^ 23 && a.sigAgrees b then (if b then 3 else 2) else 1

/-- Whether the inactive slot is STAGED (R752, R756). -/
def Chip.isStaged (c : Chip) : Bool :=
  let a := c.sec.anchor
  if c.flag MG_KSSTAT_KSFAULT then false
  else if c.flag MG_KSSTAT_EMPTY then setValid a.slotA && setShape a.slotA && setGen a.slotA == 1 && selfSigned a.slotA
  else
    let act := c.flag MG_KSSTAT_ACTSLOT
    let x := a.slot !act
    setValid x && setShape x && setGen x == setGen (a.slot act) + 1 && signedBy x (a.slot act)

/-- Shows STAGED. -/
def Chip.showStaged (c : Chip) : Chip := c.setFlag MG_KSSTAT_STAGED c.isStaged

/-- BOOT takes the active set (R751). -/
def Chip.loadKeys (c : Chip) : Chip :=
  let a := c.sec.anchor
  let st := a.state
  let c := c.setFlds [(MG_KSSTAT_EMPTY, b2n (st == 0)), (MG_KSSTAT_KSFAULT, b2n (st == 1)), (MG_KSSTAT_ACTSLOT, b2n (st == 3)),
    (⟨MG_KSGEN, 31, 0⟩, if st < 2 then 0 else setGen (a.slot (st == 3)))]
  let c := if st = 1 then c.raise 0x1D08 6 0x15 [] else c
  (c.onSec fun x => { x with used := [], stage := none, keyWait := none }).showStaged.showLogs

/-- The entries that commands are checked against: those of the active set. -/
def Chip.activeKeys (c : Chip) : List KeyEntry :=
  if c.flag MG_KSSTAT_EMPTY || c.flag MG_KSSTAT_KSFAULT then [] else setEntries (c.sec.anchor.slot (c.flag MG_KSSTAT_ACTSLOT))

/-- Writes the inactive slot, or slot A of an empty store: erase, write, read back, verify, VALID (R753). -/
def Chip.writeSlot (c : Chip) (x : List Byte) : Chip :=
  let b := if c.flag MG_KSSTAT_EMPTY then false else !c.flag MG_KSSTAT_ACTSLOT
  let x := x.take 0x1FFC ++ toBytes 4 0x5A5A
  (c.onAnchor fun a => if b then { a with slotB := x } else { a with slotA := x }).showStaged

/-- Whether a set received may be written: what R752 asks of the inactive slot, or R756 of an enrolment. -/
def Chip.stageOk (c : Chip) (x : List Byte) : Bool :=
  if c.flag MG_KSSTAT_EMPTY then setGen x == 1 && selfSigned x
  else
    let act := c.sec.anchor.slot (c.flag MG_KSSTAT_ACTSLOT)
    setGen x == setGen act + 1 && signedBy x act

/-- KEY-COMMIT's effect (R754): the key word, the new active set, fresh counters. -/
def Chip.commitKeys (c : Chip) : Chip :=
  let b := if c.flag MG_KSSTAT_EMPTY then false else !c.flag MG_KSSTAT_ACTSLOT
  let gen := setGen (c.sec.anchor.slot b)
  let c := c.addKeyWord (b2n b * 2 ^ 23 + gen % 2 ^ 23)
  ((c.setFlds [(MG_KSSTAT_EMPTY, 0), (MG_KSSTAT_ACTSLOT, b2n b), (⟨MG_KSGEN, 31, 0⟩, gen)]).onSec fun x => { x with used := [] }).showStaged

/-- Zeroisation (R799 to R801): an event, both slots erased, a zeroisation word, the counters, and test access. -/
def Chip.zeroise (c : Chip) : Chip :=
  let c := (c.raise 0x1D0A 7 0x15 []).onAnchor fun a => { a with slotA := [], slotB := [] }
  let c := if logFull c.sec.anchor.keyLog then c else c.addKeyWord zeroWord
  c.onSec fun x => { x with used := [], testOpen := true }

/-! ## Anti-rollback (R779 to R781) -/

/-- The latest anti-rollback target (SVNT). -/
def Anchor.svnt (a : Anchor) : Nat := match latestWord a.bootLog with
  | some w => bitsOf w.toNat 20 12
  | none => 0

/-- Shows the count, ROLLEND and, given whether BOOT found the count below the target, PENDING until it is reached (R780, R781). -/
def Chip.showFuses (c : Chip) (pending : Bool) : Chip :=
  let n := c.sec.anchor.fuses
  c.setFlds [(MG_ROLLBACK_COUNT, n), (MG_ROLLBACK_ROLLEND, b2n (n == 256)), (MG_ROLLBACK_PENDING, b2n (pending && decide (n < c.sec.anchor.svnt)))]

/-- What BOOT shows of the anti-rollback counter (R780). -/
def Chip.showRollback (c : Chip) : Chip := c.showFuses true

/-- What a boot word or a group of fuse bits changes of it: PENDING is set by BOOT alone (R780). -/
def Chip.keepRollback (c : Chip) : Chip := c.showFuses (c.flag MG_ROLLBACK_PENDING)

/-- One group of up to 8 fuse bits towards the target, where the Breath check admits it, once the runtime has started (R745, R780). -/
def Chip.rollbackAdvance (c : Chip) : Chip :=
  let a := c.sec.anchor
  let goal := Nat.min a.svnt 256
  if goal ≤ a.fuses || !c.breath needKey || decide (c.mode ≤ 1) then c
  else (c.onAnchor fun a => { a with fuses := Nat.min goal (a.fuses + 8) }).keepRollback

/-- ROLLBACK_ADVANCE (R780). -/
def execRollbackAdvance (m : State) : Out := .next (m.onChip Chip.rollbackAdvance)

end Sys2Proof.Machine
end

