-- ==== Sys2Proof/Machine/Boot.lean ====
section
/-!
DEFINITION. Images and BOOT: verification, loading, the configuration areas, the channel-firmware package, recovery and the tests of BOOT
(R529, R764 to R777, R791).
-/

namespace Sys2Proof.Machine

/-! ## Image headers (R764) -/

/-- A segment of an image: body offset, length, destination address, kind of destination. -/
structure Seg where
  off  : Nat
  len  : Nat
  dest : Nat
  kind : Nat
  deriving DecidableEq, Repr

/-- The SVN of a header. -/
def hdrSvn (h : List Byte) : Nat := bytesAt h 6 2

/-- CHCLASS of a header. -/
def hdrChClass (h : List Byte) : Nat := bytesAt h 0x0D 1

/-- The length of the body that a header names. -/
def hdrLength (h : List Byte) : Nat := bytesAt h 0x10 8

/-- The segments that a header names. -/
def hdrSegs (h : List Byte) : List Seg :=
  (List.range (Nat.min (bytesAt h 0x20 2) 32)).map fun i =>
    let o := 0x80 + 16 * i
    ⟨bytesAt h o 4, bytesAt h (o + 4) 4, bytesAt h (o + 8) 4, bytesAt h (o + 12) 1⟩

/-- Whether segments in ascending offset cover the body from `at_` to `stop` without gaps. -/
def segsCover : Nat → Nat → List Seg → Bool
  | at_, stop, [] => at_ == stop
  | at_, stop, g :: gs => g.off == at_ && decide (g.kind ≤ 3) && segsCover (at_ + g.len) stop gs

/-- Whether the level-X region table lies where R764 asks: within one segment with DEST 1; a package has none. -/
def xmapOk (h : List Byte) (type : Nat) : Bool :=
  let n := bytesAt h 0x22 2
  let o := bytesAt h 0x24 4
  if type = 2 then n == 0 && o == 0
  else decide (1 ≤ n ∧ n ≤ 16 ∧ o % 16 = 0) && (hdrSegs h).any fun g => g.kind == 1 && decide (g.off ≤ o ∧ o + 16 * n ≤ g.off + g.len)

/-- Whether a header is well formed for an image of a type: 1 main image, 2 package. -/
def hdrShape (h : List Byte) (type : Nat) : Bool :=
  h.length == 1024 && bytesAt h 0 4 == 1 && bytesAt h 4 2 == type && decide (1 ≤ bytesAt h 0x20 2 ∧ bytesAt h 0x20 2 ≤ 32) &&
    zeros h 0x0F 1 && zeros h 0x28 24 && zeros h 0x70 16 && zeros h 0x372 14 && zeros h 0x3E0 32 &&
    ((List.range (bytesAt h 0x20 2)).all fun i => zeros h (0x80 + 16 * i + 13) 3) && segsCover 0 (hdrLength h) (hdrSegs h) && xmapOk h type

/-- Checks 1 to 3 of R765: the root, the certificate, the header's signature. -/
def hdrSigned (h : List Byte) : Bool :=
  let signer := cut h 0x280 97
  let root := cut h 0x341 49
  sha384 root == Config.vRootHash && sigOk (pubShort root) signer (cut h 0x2E1 96) && sigOk (pubFull signer) (h.take 0x380) (cut h 0x380 96)

/-- Check 5 of R765: the body's hash. -/
def bodyOk (h body : List Byte) : Bool := sha384 body == cut h 0x40 48

/-- What checks 1 to 4 and the header's form give: 0, 0x0C BADIMAGE or 0x0D ROLLBACK (R763, R765, R779). -/
def hdrResult (h : List Byte) (type count : Nat) : Nat :=
  if !hdrShape h type || !hdrSigned h then 0x0C else if hdrSvn h < count then 0x0D else 0

/-! ## Where images stand in the flash (R772, R774) -/

/-- The first unit of a main-image slot: 0 A, 1 B. -/
def slotUnit (slot : Nat) : Nat := if slot = 0 then 6 else 134

/-- The units of a main image: a slot but for its recovery section. -/
def slotUnits : Nat := 120

/-- The first unit of the recovery section of a slot. -/
def recUnit (slot : Nat) : Nat := if slot = 0 then 126 else 254

/-- The first unit of a half of the staging area. -/
def halfUnit (half : Nat) : Nat := if half = 0 then 262 else 270

/-- The units of a recovery section and of a half of the staging area. -/
def smallUnits : Nat := 8

/-- Pages from page `p` on, counted across units from unit `u`. -/
def Chip.imagePages (c : Chip) (u : Nat) : Nat → Nat → List Byte × Chip
  | 0, _ => ([], c)
  | n + 1, p =>
    let (b, c) := c.pageBytes (c.flash.pageNo (u + p / 1024) (p % 1024))
    let (bs, c) := c.imagePages u n (p + 1)
    (b ++ bs, c)

/-- The header of the image at a unit. -/
def Chip.imageHeader (c : Chip) (u : Nat) : List Byte × Chip :=
  let (b, c) := c.imagePages u 1 0
  (b.take 1024, c)

/-- The body of the image at a unit that holds `cap` units; none where it would not fit. -/
def Chip.imageBody (c : Chip) (u cap : Nat) (h : List Byte) : Option (List Byte) × Chip :=
  let n := (1024 + hdrLength h + 16383) / 16384
  if cap * 1024 < n then (none, c)
  else
    let (b, c) := c.imagePages u n 0
    (some (cut b 1024 (hdrLength h)), c)

/-- The check of a stored image without loading it (R778): its result code and its header. -/
def Chip.checkStored (c : Chip) (u cap type : Nat) : Nat × List Byte × Chip :=
  let (h, c) := c.imageHeader u
  match hdrResult h type c.sec.anchor.fuses with
  | 0 => match c.imageBody u cap h with
    | (some b, c) => (if bodyOk h b then 0 else 0x0C, h, c)
    | (none, c) => (0x0C, h, c)
  | r => (r, h, c)

/-! ## Loading (R766) -/

/-- The write lock of a segment in DRAM. -/
def Seg.lock (g : Seg) : Lock := ⟨g.dest, g.len, 16⟩

/-- The stream writes the segments that go to DRAM. -/
def State.putSegs (s : State) (body : List Byte) : List Seg → State
  | [] => s
  | g :: gs => (if g.kind = 1 then { s with mem := memPut s.mem g.dest (cut body g.off g.len) } else s).putSegs body gs

/-- Zeroes the destinations in DRAM. -/
def State.zeroSegs (s : State) : List Seg → State
  | [] => s
  | g :: gs => (if g.kind = 1 then { s with mem := memPut s.mem g.dest (List.replicate g.len 0#8) } else s).zeroSegs gs

/-- Loads an image whose header has passed: locks, one stream, then check 5. -/
def State.stream (s : State) (src : Nat) (h body : List Byte) : Bool × State :=
  let segs := hdrSegs h
  let before := s.chip.locks
  let s := s.onChip fun c => { c with locks := c.locks ++ (segs.filter fun g => g.kind == 1).map Seg.lock }
  if bodyOk h body then (true, s.putSegs body segs)
  else (false, (s.zeroSegs segs).onChip fun c =>
    { c with locks := before }.raise 0x1801 6 0x15 (toBytes 4 src ++ toBytes 4 (segs.length - 1)))

/-- Loads the image of a type at a unit; `src` is the source as IMAGE_REJECTED names it. -/
def State.loadStored (s : State) (src u cap type : Nat) (also : List Byte → Bool) : Option (List Byte) × State :=
  let (h, c) := s.chip.imageHeader u
  let s := { s with chip := c }
  if hdrResult h type c.sec.anchor.fuses ≠ 0 || !also h then (none, s)
  else match s.chip.imageBody u cap h with
    | (none, c) => (none, { s with chip := c })
    | (some b, c) => match ({ s with chip := c } : State).stream src h b with
      | (true, s) => (some h, s)
      | (false, s) => (none, s)

/-- Loads the main image that the boot server sent (R770). -/
def State.loadSent (s : State) (img : Option (List Byte)) : Option (List Byte) × State :=
  match img with
  | none => (none, s)
  | some b =>
    let h := b.take 1024
    if hdrResult h 1 s.chip.sec.anchor.fuses ≠ 0 then (none, s)
    else match s.stream 2 h (cut b 1024 (hdrLength h)) with
      | (true, s) => (some h, s)
      | (false, s) => (none, s)

/-- What a main image's header gives the machine: entry, level-X region table, class (R143, R231, R764). -/
def State.useHeader (s : State) (h : List Byte) : State :=
  let o := bytesAt h 0x24 4
  let base := match (hdrSegs h).find? fun g => g.kind == 1 && decide (g.off ≤ o ∧ o < g.off + g.len) with
    | some g => g.dest + (o - g.off)
    | none => 0
  let map := (List.range (bytesAt h 0x22 2)).map fun i => regionAt s.mem (base + 16 * i)
  s.onChip fun c =>
    let c := { c with entry := BitVec.ofNat 32 (bytesAt h 0x1C 4), xmap := map }
    (c.setFlds [(FX_CLASS_MAJOR, bytesAt h 9 1), (FX_CLASS_MINOR, bytesAt h 8 1), (FX_CLASS_MIRRFMT, bytesAt h 0x0A 1),
      (MG_BOOTSTAT_SVN, hdrSvn h)]).onSec fun x => { x with image := h }

/-! ## The configuration areas (R776) and the stored safety configuration (R529) -/

/-- The registers loaded from the configuration block, with the bits loaded. -/
def flashRegs : List (Nat × Word) :=
  [(FX_STATION, 0x3FFF#32), (FX_PLANHASH_LO, 0xFFFFFFFF#32), (FX_PLANHASH_HI, 0xFFFFFFFF#32), (FX_SEQBASE, 0xFFFFFFFF#32),
   (FX_SEQSLOTS, 0xFFFF#32), (TS_GMCFG, 0x80FFFFFF#32), (MG_STARTCFG, 1#32), (MG_REDCFG, 0xFFFFFFFF#32)] ++
    ((List.range 4).map fun p => (EN_PTPCFG p, 0xF0FFFFFF#32)) ++ (List.range 4094).map fun d => (FX_RTE d, 0xC0000077#32)

/-- The registers a write of which takes effect at the next system reset. -/
def effRegs : List Nat := [FX_STATION, FX_SEQBASE, FX_SEQSLOTS, MG_REDCFG]

/-- Loads the registers of the configuration block. -/
def Chip.loadFlashRegs (c : Chip) (words : List (Nat × Word)) : Chip :=
  let c := flashRegs.foldl (fun c p => c.setReg p.1 ((c.reg p.1 &&& ~~~p.2) ||| (mapGet 0#32 words p.1 &&& p.2))) c
  { c with eff := effRegs.foldl (fun m k => mapSet 0#32 m k (c.reg k)) [] }

/-- Loads the stored safety configuration and TP_HASHREF; where none is stored TM starts with an empty one (R529). -/
def Chip.loadSafety (c : Chip) (words : List (Nat × Word)) : Chip :=
  let c := (List.range 8).foldl (fun c j => c.setReg (TP_HASHREF j) (mapGet 0#32 words (TP_HASHREF j))) c
  if mapGet 0#32 words storeSafety = 1#32 then
    (((Sys2Proof.Machine.activeKeys.foldl (fun c k => c.setReg k (mapGet 0#32 words k)) c).setFlag TP_STAT_CFGVALID true).startHash).showStored
  else (c.startHash.setFlag TP_STAT_CFGVALID false).raise 0x1C0E 6 0x09 []

/-- What the area `b` gives the running image: 0 nothing, 1 used as it stands, 2 migrated (R776). -/
def Chip.areaUse (c : Chip) (b : Bool) : Nat :=
  let fmt := (if b then c.area1 else c.area0).fmt
  if fmt = c.imageFmt then 1 else if bytesAt c.sec.image 0x0C 1 ≤ fmt ∧ fmt < c.imageFmt then 2 else 0

/-- Uses an area, or its migration, which goes to the other area as the Breath check admits it. -/
def Chip.useArea (c : Chip) (b : Bool) : Chip :=
  let words := (if b then c.area1 else c.area0).words
  let mig := c.areaUse b == 2
  let c := c.setFlds [(MG_BOOTSTAT_NOCFG, 0), (MG_BOOTSTAT_MIGRATED, b2n mig), (MG_BOOTSTAT_CFGAREA, b2n (b != mig))]
  let c := (c.loadFlashRegs words).loadSafety words
  if mig then (c.onSec fun x => { x with migSaved := false }).wantStore storeMigrated else c

/-- BOOT reads the configuration area: the one of the latest boot word, then the other, else NOCFG. -/
def Chip.loadConfig (c : Chip) : Chip :=
  let b := match latestWord c.sec.anchor.bootLog with
    | some w => w.getLsbD 22
    | none => false
  if c.areaUse b ≠ 0 then c.useArea b
  else if c.areaUse (!b) ≠ 0 then c.useArea (!b)
  else
    let c := c.setFlds [(MG_BOOTSTAT_NOCFG, 1), (MG_BOOTSTAT_MIGRATED, 0), (MG_BOOTSTAT_CFGAREA, b2n b)]
    let none_ := [(TS_GMCFG, 1#32), (MG_REDCFG, 0x1803E8#32)]
    (c.loadFlashRegs none_).loadSafety none_

/-! ## The channel-firmware package (R774, R775) -/

/-- The half that holds the installed package. -/
def Anchor.half (a : Anchor) : Nat := match latestWord a.bootLog with
  | some w => b2n (w.getLsbD 21)
  | none => 0

/-- Whether the running main image accepts a package's class. -/
def Chip.packageFits (c : Chip) (h : List Byte) : Bool :=
  decide (hdrChClass c.sec.image ≤ hdrChClass h ∧ hdrChClass h ≤ bytesAt c.sec.image 0x0E 1)

/-- Loads the staged package where a trial of it is armed and it carries its pending mark, else the installed one. -/
def State.loadPackage (s : State) (staged : Bool) : State :=
  let half := s.chip.sec.anchor.half
  let fits := fun h => s.chip.packageFits h
  let use := fun (s : State) (h : List Byte) (new : Bool) =>
    s.onChip fun c => (c.setFlag MG_BOOTSTAT_CHFWNEW new).onSec fun x => { x with package := h }
  let old := fun (s : State) => match s.loadStored 4 (halfUnit half) smallUnits 2 fits with
    | (some h, s) => use s h false
    | (none, s) => s.onChip fun c => ((c.setFlag MG_BOOTSTAT_CHFWNEW false).onSec fun x => { x with package := [] }).raise 0x1802 6 0x15 []
  if staged then match s.loadStored 3 (halfUnit (1 - half)) smallUnits 2 fits with
    | (some h, s) => use s h true
    | (none, s) => old s
  else old s

/-! ## BOOT (R768 to R773) -/

/-- The attempt count, as it is shown too. -/
def Chip.setAttempts (c : Chip) (n : Nat) : Chip := (c.onAnchor fun a => { a with attempts := n }).setFld MG_BOOTSTAT_ATTEMPTS n

/-- RECOVERY: the first recovery section that verifies runs; where neither does, the module halts (R771, R772). -/
def Chip.enterRecovery (c : Chip) : Chip :=
  let (a, _, c) := c.checkStored (recUnit 0) smallUnits 1
  let (b, _, c) := if a = 0 then (0, [], c) else c.checkStored (recUnit 1) smallUnits 1
  let c := c.setFlds [(MG_BOOTSTAT_SRC, 3), (MG_BOOTSTAT_TRIAL, 0), (MG_BOOTSTAT_CHFWNEW, 0)]
  (c.showMode 1).onSec fun x => { x with image := [], package := [], recSect := if a = 0 then some 0 else if b = 0 then some 1 else none }

/-- Shows CANDIDATE: a verified main image awaits a trial. -/
def Chip.showCandidate (c : Chip) : Chip := c.setFlag MG_BOOTSTAT_CANDIDATE (c.sec.cand && !c.flag MG_BOOTSTAT_TRIAL)

/-- A main image has been loaded: its header, the configuration, the package. A trial runs where `trial` names this image or the staged package has
been loaded. -/
def State.booted (s : State) (h : List Byte) (src : Nat) (trial staged : Bool) : State :=
  let s := s.useHeader h
  let s := (s.onChip fun c => (c.setFld MG_BOOTSTAT_SRC src).loadConfig).loadPackage staged
  s.onChip fun c => (c.setFlag MG_BOOTSTAT_TRIAL (trial || c.flag MG_BOOTSTAT_CHFWNEW)).showCandidate

/-- Tries the slots in order (R768). -/
def State.trySlots (s : State) (trial : Option Nat) (staged : Bool) : List Nat → State
  | [] => s.onChip Chip.enterRecovery
  | k :: ks => match s.loadStored k (slotUnit k) slotUnits 1 (fun _ => true) with
    | (some h, s) => s.booted h k (trial == some k) staged
    | (none, s) => s.trySlots none staged ks

/-- The committed slot (R768). -/
def Chip.committedSlot (c : Chip) : Nat := match latestWord c.sec.anchor.bootLog with
  | some w => b2n (w.getLsbD 23)
  | none => if c.fld MG_STRAP_BOOTSEL = 1 then 1 else 0

/-- BOOT as R768 and R770 give it; `img` is what the boot server sent. -/
def State.boot (s : State) (img : Option (List Byte)) : State :=
  let c := s.chip
  let x := c.sec
  if c.fld MG_STRAP_BOOTSEL = 3 || 3 ≤ x.anchor.attempts then s.onChip fun c => (c.setAttempts x.anchor.attempts).enterRecovery
  else
    let staged := x.trial.testBit 1 && x.mark
    let s := s.onChip fun c => (c.setAttempts (x.anchor.attempts + 1)).onSec fun y => { y with trial := 0 }
    if c.fld MG_STRAP_BOOTSEL = 2 then match s.loadSent img with
      | (some h, s) => s.booted h 2 false staged
      | (none, s) => s.onChip Chip.enterRecovery
    else
      let k := c.committedSlot
      if x.trial.testBit 0 then s.trySlots (some (1 - k)) staged [1 - k, k] else s.trySlots none staged [k, 1 - k]

/-! ## The tests of BOOT (R788, R791) -/

/-- Shows ANYFAIL and ANYSTARVE. -/
def Chip.showTests (c : Chip) : Chip :=
  c.setFlds [(MG_STSTAT_ANYFAIL, b2n (c.reg MG_STFAILED != 0#32)), (MG_STSTAT_ANYSTARVE, b2n (c.reg MG_STSTARVE != 0#32))]

/-- One mismatch or FAILED result more for the referee (R792). -/
def Chip.countEvidence (c : Chip) : Chip := { c with red := { c.red with evOwn := true, faults := c.red.faults + 1 } }

/-- A test has FAILED: its bit, an event, and evidence for the referee (R788, R792). -/
def Chip.testFailed (c : Chip) (t slice sig : Nat) : Chip :=
  let c := c.countEvidence.setReg MG_STFAILED (c.reg MG_STFAILED ||| BitVec.ofNat 32 (2 ^ t))
  (c.raise 0x1502 6 0x15 (toBytes 4 t ++ toBytes 4 slice ++ toBytes 4 sig)).showTests

/-- The tests that BOOT runs. -/
def bootTests : List Nat := (List.range 10).map (1 + ·) ++ (List.range 8).map (0x0C + ·)

/-- The full pass of BOOT: the tests named fail, the others complete a pass. -/
def Chip.bootPass (c : Chip) (failing : List (Nat × Nat × Nat)) : Chip :=
  let bad := failing.filter fun p => bootTests.contains p.1
  let c := bad.foldl (fun c p => c.testFailed p.1 p.2.1 p.2.2) c
  let c := if bad.isEmpty then c else c.setFlag MG_STSTAT_BOOTFAIL true
  let good := bootTests.filter fun t => !(bad.any fun p => p.1 == t)
  { c with test := { c.test with passAt := good.foldl (fun l t => assocSet l t c.mono) c.test.passAt } }

/-! ## The front indicator -/

/-- What the indicator shows (R526, R772, R773): a recovery section that runs (REC-A, REC-B), that neither verifies (REC-NONE), or the eight
digits of the configuration hash, which flash while SW1 is on. -/
inductive Shown where
  | recovery (sectionB : Bool)
  | noRecovery
  | hash (digits : Word) (flashing : Bool)
  deriving DecidableEq, Repr

/-- The indicator, a function of the state. -/
def Chip.indicator (c : Chip) : Shown :=
  if c.mode = 1 then match c.sec.recSect with
    | some k => .recovery (k == 1)
    | none => .noRecovery
  else .hash (c.reg (TP_CFGHASH 0)) (c.flag TP_SWBANK_SW1)

/-- Whether the module has halted: neither recovery section verified (R772). -/
def Chip.halted (c : Chip) : Bool := c.mode == 1 && c.sec.recSect.isNone

end Sys2Proof.Machine
end

