-- ==== Sys2Proof/Machine/Resets.lean ====
section
/-!
DEFINITION. Resets of the three levels, the rise of internal reset, the end of BOOT, and block resets (R64, R87, R99, R113 to R122,
R132 to R136, R262, R275, R321, R486, R798, R825).
-/

namespace Sys2Proof.Machine

/-! ## The reset cause (R119 to R121) -/

/-- Shows a power-on reset's source: everything else of MG_RSTCAUSE is 0. -/
def Chip.powerCause (c : Chip) (source : Nat) : Chip :=
  c.setFlds [(MG_RSTCAUSE_LAST_LVL, 1), (MG_RSTCAUSE_LAST_SRC, source), (MG_RSTCAUSE_SRC, 2 ^ source)]

/-- Sets a source's sticky bit. -/
def Chip.causeBit (c : Chip) (source : Nat) : Chip := c.setFld MG_RSTCAUSE_SRC (c.fld MG_RSTCAUSE_SRC ||| 2 ^ source)

/-- Records a system (2) or core (3) reset; COUNT saturates. -/
def Chip.cause (c : Chip) (source level : Nat) : Chip :=
  (c.causeBit source).setFlds [(MG_RSTCAUSE_LAST_LVL, level), (MG_RSTCAUSE_LAST_SRC, source),
    (MG_RSTCAUSE_COUNT, Nat.min 0xFFFF (c.fld MG_RSTCAUSE_COUNT + 1))]

/-- What a reset that comes during a reset of its own or a higher level leaves: in a system reset the source's bit, else nothing. -/
def Chip.absorbed (c : Chip) (source : Nat) : Chip := match c.power.reset with
  | some (2, _) => c.causeBit source
  | _ => c

/-- Draws a new epoch (R550). -/
def Chip.redrawEpoch (c : Chip) : Chip :=
  let prev := c.fld FX_STATION_EPOCH
  let (x, c) := c.free 64
  c.setEpoch (drawEpoch x prev)

/-! ## Power-on reset (R113, R120, R798, R799) -/

/-- The registers that show something outside the module whatever is reset. -/
def livePins : List Fld :=
  [MG_KEYSW_CONTACT_A, MG_KEYSW_CONTACT_B, TP_SWBANK_SW1A, TP_SWBANK_SW1B, TP_SWBANK_POS, PW_HOLDUP_CHARGING, PW_HOLDUP_BELOWRES,
   PW_HOLDUP_EAVAIL, PW_THERM_TEMP, MG_REDSTAT_ACTIN] ++ (List.range 8).map fun g => CG_FPSTAT_MV g

/-- Everything of the chip but what a power-on reset keeps: the flash, the recorder's log, the anchor store, the configuration areas, the
bank's energy and what is seen of the outside (R113). -/
def Chip.powerOn (c : Chip) (source : Nat) : Chip :=
  let (ms, cyc, _) := c.recorder.stored
  let p := c.power
  let n : Chip := { Chip.atPower with
    now := c.now, monoBase := c.now, freeCtr := c.freeCtr
    flash := c.flash.abort
    recorder := { c.recorder with buf := [], alarms := [], gaps := [], lost := [], opms := ms, opmsAt := c.now }
    sec := { Security.factory with anchor := c.sec.anchor, cand := c.sec.cand, mark := c.sec.mark }
    test := { SelfTest.atReset with capSaved := c.test.capSaved }
    key := { Key.atReset with since := c.key.since, odd := c.key.odd }
    power := { Power.atReset with
      lowAt := if source = 0 then none else p.lowAt, dropped := decide (source ≠ 0) && p.lowAt.isSome
      lostA := p.lostA, lostB := p.lostB, reset := some (1, c.now), rstHigh := p.rstHigh }
    energy := c.energy, area0 := c.area0, area1 := c.area1 }
  let n := (n.setReg FX_STATION (c.reg FX_STATION)).redrawEpoch
  let n := n.setFlds ((livePins.map fun f => (f, c.fld f)) ++ [(FX_STATION_POS, 0), (FX_STATION_ID, 0)])
  (n.setReg EV_PWRCYC (BitVec.ofNat 32 (Nat.min 0xFFFFFFFF (cyc + 1)))).powerCause source

/-- Whether a power-on reset opens test access (R798): position 8 of the sealed bank is on and the key shows SERVICE. -/
def Chip.testWanted (c : Chip) : Bool := bitAt (c.fld TP_SWBANK_POS) 6 && c.keyShown == some 3

/-- A power-on reset; one in progress absorbs it, but where the power-up was abandoned an input at 18 V starts its timing again (R846). -/
def State.powerOnReset (s : State) (source : Nat) : State :=
  match s.chip.power.reset with
  | some (1, _) =>
    if source = 0 && s.chip.power.dropped then
      s.onChip fun c => { c with power := { c.power with dropped := false, lowAt := none, reset := some (1, c.now) } }
    else s
  | _ =>
    let c := s.chip.powerOn source
    let c := if c.testWanted then c.zeroise else c
    { s with cores := Vector.replicate 8 CoreSt.atReset, mem := [], chip := c }

/-! ## System reset (R118, R119, R121) -/

/-- The links at the start of a system reset: each CG island has three frames with the de-energise command still to send (R118, R486). -/
def Chip.linksAtReset (c : Chip) : List (Nat × Grp) :=
  (List.range 8).map fun g =>
    let x := c.grp g
    (g, { Grp.unused with frame := x.frame, goodDown := x.goodDown, tmo := x.tmo, deenLeft := 3 })

/-- The chip after a system reset: registers by their tables, the parts of every unit at rest; what a system reset spares is kept, and the field sides
hold what they have until a de-energise frame or their time-out reaches them (R118, R483, R486). -/
def Chip.systemReset (c : Chip) : Chip :=
  let ms := c.opmsNow
  let rest := c.resetRegs (fun _ => true) FieldDesc.atS
  let n : Chip := { Chip.atPower with
    now := c.now, monoBase := c.monoBase, freeCtr := c.freeCtr, regs := rest.regs
    chans := c.chans, grps := c.linksAtReset
    flash := c.flash.abort
    recorder := { c.recorder with buf := [], alarms := [], gaps := [], opms := ms, opmsAt := c.now }
    sec := { Security.factory with anchor := c.sec.anchor, cand := c.sec.cand, mark := c.sec.mark, trial := c.sec.trial, testOpen := c.sec.testOpen }
    test := { SelfTest.atReset with cap := c.test.cap, capSaved := c.test.capSaved, huAt := c.test.huAt }
    key := { Key.atReset with since := c.key.since, odd := c.key.odd }
    power := { c.power with failAt := none, ran := false, reset := some (2, c.now), coreAt := none }
    energy := c.energy, area0 := c.area0, area1 := c.area1, eff := c.eff }
  n.redrawEpoch

/-- A system reset: the recorder's flush window, then the reset; one in progress absorbs it (R119). -/
def State.systemReset (s : State) (source : Nat) : State :=
  if s.chip.power.reset.isSome then s.onChip fun c => c.absorbed source
  else
    let c := s.chip.wantFlush.flushSegments 18
    { s with cores := Vector.replicate 8 CoreSt.atReset, mem := [], chip := c.systemReset.cause source 2 }

/-! ## Core reset (R99, R115 to R117, R262, R321) -/

/-- Every pending host request gets DISCARDED. -/
def Chip.discardRequests (c : Chip) : Chip :=
  let c := match c.ctl.trans with
    | some t => c.outcomeOf t.tag ocDiscarded
    | none => c
  let c := c.ctl.queue.foldl (fun c r => match r.kind with
    | .partner _ => c
    | _ => c.modeOutcome r.tag ocDiscarded) c
  c.onCtl fun x => { ModeCtl.atReset with warm := true, flushing := x.flushing, doneAt := x.doneAt, blk := x.blk }

/-- The words of stage memory that the engine writes, cleared (R321). -/
def Chip.clearStages (c : Chip) : Chip :=
  { c with regs := c.regs.filter fun p => !(decide (0x840000 ≤ p.1 ∧ p.1 < 0x880000) && decide (23 ≤ (p.1 - 0x840000) / 4 % 32)) }

/-- The chip after a core reset; `broken`: the patch sets whose application it interrupts, beside those that an earlier one did and BOOT has still to roll
back (R275). -/
def Chip.coreReset (c : Chip) (broken : List PatchSet) : Chip :=
  let c := c.discardRequests.discardPatches.setsOnReset
  let c := ((c.stopTasks []).onCyc fun y => { y with broken := y.broken ++ broken }).clearStages
  let c := (List.range 9).foldl (fun c i => (c.dropAcks i).muteWrites i) (c.resetRegs (fun _ => true) FieldDesc.atC)
  { c with loop := Loop.atReset, img := Images.empty, answers := c.answers.filter fun p => 9 ≤ p.1
           dispatchIrq := [], doorbellIrq := [], impErrs := [], litOpen := [] }

/-- Whether a core reset is in progress: the cores and LE are in reset for 2 µs (reset timing; log entry 103). -/
def Chip.inCoreReset (c : Chip) : Bool := match c.power.coreAt with
  | some t => decide (c.now < t + 2000)
  | none => false

/-- A core reset; a reset in progress absorbs it, which sets the source's bit alone (R119). -/
def State.coreReset (s : State) (source : Nat) : State :=
  if s.chip.power.reset.isSome then s.onChip fun c => c.absorbed source
  else if s.chip.inCoreReset then s.onChip fun c => c.causeBit source
  else { s with
    cores := Vector.replicate 8 CoreSt.atReset
    chip := { ((s.chip.coreReset s.applying).cause source 3) with power := { s.chip.power with coreAt := some s.chip.now } } }

/-! ## The rise of internal reset (R27, R93, R122, R581, R713, R724, R751, R768, R791) -/

/-- The straps as sampled. -/
def Chip.sampleStraps (c : Chip) (bootsel : Nat) (clksel : Bool) : Chip :=
  c.setFlds [(MG_STRAP_BOOTSEL, bootsel), (MG_STRAP_CLKSEL, b2n clksel)]

/-- Whether internal reset may rise: in a power-on reset that was not abandoned, 20 ms after its beginning at the earliest (reset timing, R846); never while
RST_N is low (R119), nor while the inputs are. -/
def Chip.mayRise (c : Chip) : Bool :=
  !c.power.dropped && c.power.lowAt.isNone && decide (c.power.rstHigh ≤ c.now) && match c.power.reset with
    | none => false
    | some (1, t) => decide (t + 20000000 ≤ c.now)
    | some _ => true

/-- The links initialised at the rise (R486): every channel behaves as an applied entry of all zeros (R434), and LINKSAFE is clear. -/
def Chip.linksAtRise (c : Chip) : Chip :=
  ({ c with chans := [], grps := [] }).setFlds (((List.range 8).map fun g => [(CG_LINKSTAT_SAFE g, 0), (CG_LINKSTAT_UP g, 0), (CG_LINKSTAT_TMO g, 0)]).flatten)

/-- INTERNAL_RESET_RISE: the conditions outside are met; `img` is what the boot server sends, `failing` the tests of BOOT that fail with
slice and signature. -/
def State.rise (s : State) (bootsel : Nat) (clksel : Bool) (img : Option (List Byte)) (failing : List (Nat × Nat × Nat)) : State :=
  let c := s.chip
  if !c.mayRise then s
  else
    let c := { (c.onPower fun p => { p with risen := true, reset := none }) with monoBase := c.now }
    let c := ((c.linksAtRise.showMoving.sampleStraps bootsel clksel).directoryScan.recorderStart.loadKeys).showRollback
    if c.sec.testOpen then { s with chip := c }
    else
      let s := ({ s with chip := c } : State).boot img
      if s.chip.mode = 1 then s else s.onChip fun c => c.bootPass failing

/-! ## The end of BOOT (R87, R117, R262, R518, R529, R768, R775, R776, R790, R791, R850) -/

/-- Whether AUTOSTART acts as 1. -/
def Chip.autostart (c : Chip) : Bool :=
  c.flag MG_STARTCFG_AUTOSTART && !c.flag MG_BOOTSTAT_NOCFG && !c.sec.package.isEmpty &&
    !(c.fld MG_RSTCAUSE_LAST_SRC == 5 && c.fld MG_RSTCAUSE_LAST_LVL == 2)

/-- The mode that R87's table gives. -/
def Chip.startMode (c : Chip) : Nat :=
  match c.keyPos with
  | 0 => if c.autostart then 5 else 2
  | 1 => if c.autostart then 4 else 2
  | 2 => 3
  | _ => 7

/-- BOOT_COMPLETE: with no image to run, BOOT ends in RECOVERY; else evaluation starts and the module enters its mode, SAFE-HOLD after a fatal fault (R850). BOOT
does not end while an island's power state is changing (R98; log entry 104). -/
def State.bootComplete (s : State) : State :=
  let c := s.chip
  if c.mode ≠ 0 || c.power.reset.isSome || c.sec.testOpen || c.ctl.trans.isSome then s
  else if c.sec.image.isEmpty then s.onChip Chip.enterRecovery
  else
    let s := s.rollBacks.onChip fun c => (c.startMatrix).setAttempts 0
    let goal := s.chip.startMode
    let goal := if s.chip.flag MG_STSTAT_BOOTFAIL || s.chip.ctl.bootSafe || s.chip.ctl.fatal || (runs goal && !s.runIslandsOn) then 2 else goal
    let s := s.onChip fun c => c.onCtl fun x => { x with bootSafe := false, fatal := false }
    ((s.beginMode goal).enterMode goal).onChip fun c => c.onCtl fun x => { x with warm := false }

/-! ## Block reset (R132 to R136, R434, R486, R637, R699) -/

/-- What refuses a block reset: 2 busy, 3 not ON or changing, 4 reserved. -/
def Chip.blockRefusal (c : Chip) (target : Nat) : Option Nat :=
  if 0xB ≤ target then some 4
  else if c.flag MG_BLKSTAT_BUSY then some 2
  else
    let i := blockIsland target
    let changing := match c.ctl.trans with
      | some t => t.island == some i
      | none => false
    if !c.islandOn i || changing then some 3 else none

/-- The CAN controllers that a target covers. -/
def blockCans (target : Nat) : List Nat := if target = 8 ∨ target = 9 then List.range 8 else []

/-- BLOCK_RESET_REQUEST. -/
def Chip.blockRequest (c : Chip) (v : Word) : Chip :=
  let t := getF MG_BLKRST_TARGET v
  match c.blockRefusal t with
  | some r => c.setFlds [(MG_BLKSTAT_LAST_TARGET, t), (MG_BLKSTAT_LAST_RESULT, r)]
  | none =>
    let c := (c.setFlds [(MG_BLKSTAT_BUSY, 1), (MG_BLKSTAT_PHASE, 1), (MG_BLKSTAT_LAST_TARGET, t)]).onCtl fun x =>
      { x with blk := some (t, c.mono) }
    (blockCans t).foldl (fun c n => c.onCan n fun x => { x with stopped := true }) c

/-- The reset of a block; registers keep their values. -/
def State.blockReset (s : State) (target : Nat) : State :=
  if target < 8 then
    let s := s.onChip fun c => ((c.initLink target).deenergise (groupChans target)).discardGroup target
    s.onChip fun c => (groupChans target).foldl (fun c i => c.load s.mem (c.chanBase + i) 0) c
  else if target = 8 then s.onChip fun c => (List.range 8).foldl Chip.canReset c
  else if target = 9 then s.onChip fun c => { (List.range 8).foldl Chip.canReset c with eths := [] }
  else s.onChip fun c => c.flashReset.histReset

/-- The end of a block reset: 0 idle reached, 1 timeout. -/
def State.blockDone (s : State) (target result : Nat) : State :=
  (s.blockReset target).onChip fun c =>
    (c.setFlds [(MG_BLKSTAT_BUSY, 0), (MG_BLKSTAT_PHASE, 0), (MG_BLKSTAT_LAST_RESULT, result)]).onCtl fun x => { x with blk := none }

/-- BLOCK_IDLE: a CAN controller is idle once the frame in progress on its bus has ended. -/
def State.blockIdle (s : State) : State :=
  match s.chip.ctl.blk with
  | none => s
  | some (t, _) => if (blockCans t).any fun n => (s.chip.can n).attempt.isSome then s else s.blockDone t 0

/-- Whether a message of a system ring carries an access from or to an island. -/
def Msg.touches (m : Msg) (i : Nat) : Bool := match m.acc with
  | some a => a.src == i || islandOf a.key == i
  | none => false

/-- Whether a message of a ring is to or from an island: an access of its registers or by it, one that it produced, or one that waits for it (R133). -/
def Chip.concerns (c : Chip) (r : Nat) (m : Msg) (i : Nat) : Bool :=
  if r < 6 then m.touches i else m.src % 0x100 == i || (c.pool.ring r).cons == i

/-- The ring whose head message a CAN controller has taken and not sent yet. -/
def Chip.canTaken (c : Chip) (n : Nat) : List Nat := match (c.can n).attempt with
  | some (q, _) => if q < 4 then (c.canRing n q).toList else []
  | none => []

/-- The messages in flight to or from a block: those of every ring that concern its island, those its producers hold, and the slot messages and flash requests
it has taken; of the CAN controllers alone, what they have taken from a ring and not sent (R133, R637). -/
def Chip.inFlight (c : Chip) (target : Nat) : Nat :=
  let cans := ((blockCans target).map fun n => (c.canTaken n).length + (c.can n).slots.length).foldl (· + ·) 0
  if target = 8 then cans
  else
    let i := blockIsland target
    let msgs := ((c.pool.rings.map Prod.fst).map fun r => ((c.pool.ring r).queue.filter fun m => c.concerns r m i).length).foldl (· + ·) 0
    let flash := if target = 10 then ((c.flash.queues.map fun q => q.2.length).foldl (· + ·) 0) else 0
    let slots := ((blockCans target).map fun n => (c.can n).slots.length).foldl (· + ·) 0
    slots + msgs + flash + (c.pool.held.filter fun h => c.concerns h.ring h.msg i).length

/-- Those messages abandoned, their buffers back in the pool. -/
def Chip.abandon (c : Chip) (target : Nat) : Chip :=
  let n := c.inFlight target
  let c :=
    if target = 8 then ((blockCans target).map c.canTaken).flatten.foldl (fun c r => c.canTake r) c
    else
      let i := blockIsland target
      let clear := fun (p : Pool) (r : Nat) =>
        let (gone, kept) := (p.ring r).queue.partition fun m => c.concerns r m i
        let p := { p with retired := p.retired + (gone.filter Msg.poisoned).length, voids := if gone.isEmpty then p.voids else p.voids.filter fun v => v.1 != r }
        if gone.isEmpty then p else p.setRing r { p.ring r with queue := kept }
      let p := (c.pool.rings.map Prod.fst).foldl clear c.pool
      let (gone, kept) := p.held.partition fun h => c.concerns h.ring h.msg i
      { c with pool := ({ p with held := kept, retired := p.retired + (gone.filter fun h => h.msg.poisoned).length } : Pool).settle }
  c.bump MG_BLKABAN_LO n

/-- BLOCK_RESET_TIMEOUT. -/
def State.blockTimeout (s : State) : State :=
  match s.chip.ctl.blk with
  | none => s
  | some (t, since) =>
    if s.chip.mono < since + s.chip.fld MG_BLKCFG_TIMEOUT * 1000 then s else (s.onChip fun c => c.abandon t).blockDone t 1

/-! ## Meanings -/

/-- POWER_ON_RESET (R113): positions 2 to 8 of the sealed switch bank as they stand. -/
def execPowerOnReset (positions : BitVec 7) (m : State) : Out :=
  .next ((m.onChip fun c => c.setFld TP_SWBANK_POS positions.toNat).powerOnReset 0)

/-- BROWN_OUT (R113). -/
def execBrownOut (m : State) : Out := .next (m.powerOnReset 1)

/-- RST_N_ASSERT (R114): held low for `ns`; internal reset does not rise before it is high again (R119). -/
def execRstNAssert (ns : BitVec 32) (m : State) : Out :=
  .next (if ns.toNat < 2000 then m
    else (m.systemReset 2).onChip fun c => c.onPower fun p => { p with rstHigh := Nat.max p.rstHigh (c.now + ns.toNat) })

/-- HARDWARE_WATCHDOG (R113). -/
def execHardwareWatchdog (m : State) : Out := .next (m.systemReset 3)

/-- SYSTEM_RESET (R118): sources 2 to 6. -/
def execSystemReset (source : Fin 7) (m : State) : Out := .next (if source.val < 2 then m else m.systemReset source.val)

/-- CORE_RESET (R115): sources 4 and 6. -/
def execCoreReset (source : Fin 7) (m : State) : Out :=
  .next (if source.val = 4 ∨ source.val = 6 then m.coreReset source.val else m)

/-- INTERNAL_RESET_RISE (R825). -/
def execInternalResetRise (bootsel : BitVec 2) (clksel : Bool) (image : Option (List Byte))
    (failing : List (Fin 20 × BitVec 32 × BitVec 32)) (m : State) : Out :=
  .next (m.rise bootsel.toNat clksel image (failing.map fun p => (p.1.val, p.2.1.toNat, p.2.2.toNat)))

/-- BOOT_COMPLETE (R87). -/
def execBootComplete (m : State) : Out := .next m.bootComplete

/-- BLOCK_RESET_REQUEST (R132). -/
def execBlockResetRequest (src : Island) (value : Word) (m : State) : Out :=
  .next (m.onChip fun c => c.whenOn src.val MG_BLKRST fun c => c.blockRequest value)

/-- BLOCK_IDLE (R132). -/
def execBlockIdle (m : State) : Out := .next m.blockIdle

/-- BLOCK_RESET_TIMEOUT (R133). -/
def execBlockResetTimeout (m : State) : Out := .next m.blockTimeout

end Sys2Proof.Machine
end

