-- ==== Sys2Proof/Machine/Islands.lean ====
section
/-!
DEFINITION. The registers of the islands as a reader and a writer meet them: registers that show live values, counters
and their latches, registers kept for each island, and registers whose write starts an action; every other register
follows its access codes alone (R15 to R24, R53, R686 to R691).
-/

namespace Sys2Proof.Machine

/-! ## Registers kept for each requesting island (R53) -/

/-- Whether a register is kept separately for each requesting island. -/
def isBanked (k : Nat) : Bool :=
  k == SG_RINGSEL || k == EV_STRSEL || k == EV_CNTSEL || k == BT_UNITSEL || k == BT_FLADDR || k == BT_FLLEN

/-- The stream an island has selected. -/
def Chip.streamSel (c : Chip) (src : Nat) : Nat := getF EV_STRSEL_STREAM (c.reg (banked EV_STRSEL src))

/-- The counter an island has named in EV_CNTSEL: the register counters of the islands, and OVLWAIT of a program core. -/
def Chip.counterSel (c : Chip) (src : Nat) : Option Nat :=
  let w := c.reg (banked EV_CNTSEL src)
  let k := getF EV_CNTSEL_ISLAND w * 0x100000 + getF EV_CNTSEL_OFFSET w
  if k < 0x800000 then (if k % 0x100000 = 0x18 ∨ k % 0x100000 = 0x30 then some k else none)
  else match counterAt k with
    | some (lo, false) => some lo
    | _ => none

/-- The sticky overflow of the counter at a place: of a selected counter, the one the island has selected. -/
def Chip.ovfPlace (c : Chip) (src k : Nat) : Nat :=
  if k = SG_RINGDROP_LO then ovfKey (k + 0x100 * c.ringSel src)
  else if k = EV_STRLOST_LO then ovfKey (k + 0x100 * c.streamSel src)
  else ovfKey k

/-- Whether some counter has overflowed. -/
def Chip.anyOverflow (c : Chip) : Bool := c.regs.any fun p => decide (0xC0000000 ≤ p.1 ∧ p.1 < 0x100000000)

/-! ## Live values -/

/-- BT_UNITINFO of a unit. -/
def Flash.unitWord (f : Flash) (u : Nat) : Word :=
  let r := f.unit u
  let st := if r.gone then 3 else if r.erasing then 2 else if r.half then 1 else 0
  BitVec.ofNat 32 (st * 2 ^ 30 + f.bank u * 2 ^ 28 + r.started % 2 ^ 15)

/-- EV_STRCFG of a stream. -/
def Recorder.streamWord (r : Recorder) (st : Nat) : Word :=
  BitVec.ofNat 32 (b2n (r.full st) * 2 ^ 31 + (if st = 31 then 1 else r.cap st % 256))

/-- A word of a pair kept as one number. -/
def halfOf (hi : Bool) (x : Nat) : Word := BitVec.ofNat 32 (if hi then x / 2 ^ 32 else x)

/-- What a register of the chip shows now to an island, before its read has any effect. -/
def Chip.wordAt (c : Chip) (src k : Nat) : Word :=
  let w := c.reg k
  let ring := c.pool.ring (c.ringSel src)
  if isBanked k then c.reg (banked k src)
  else match islandOf k with
  | 0x17 =>
    if k = SG_POOLSTAT then BitVec.ofNat 32 c.pool.free
    else if k = SG_RESVSUM then BitVec.ofNat 32 c.pool.resvSum
    else if k = SG_RINGCTL then ring.ctlWord
    else if k = SG_RINGRES then BitVec.ofNat 32 ring.resv
    else if k = SG_RINGMAX then BitVec.ofNat 32 ring.max
    else if k = SG_RINGOCC then BitVec.ofNat 32 (c.pool.occ (c.ringSel src))
    else w
  | 0x15 =>
    if k = EV_STRCFG then c.recorder.streamWord (c.streamSel src)
    else if k = EV_STRCNT then BitVec.ofNat 32 (c.recorder.count (c.streamSel src))
    else if k = EV_CNTOVF then
      putF EV_CNTOVF_ANY (match c.counterSel src with
        | some lo => c.reg (c.ovfPlace src lo)
        | none => 0#32) (b2n c.anyOverflow)
    else if k = MG_SWAPDUE then BitVec.ofNat 32 c.swapDue
    else if k = MG_IRSTAT then
      putF MG_IRSTAT_ACTIVE w (b2n (match c.mouth.goodAt with
        | some t => decide (c.now < t + 10000000000)
        | none => false))
    else w
  | 0x14 =>
    if k = BT_UNITINFO then c.flash.unitWord (getF BT_UNITSEL_UNIT (c.reg (banked BT_UNITSEL src)))
    else if k = BT_SPARES then BitVec.ofNat 32 c.flash.spares.length
    else w
  | 0x12 =>
    if k = TS_NOW_LO then BitVec.ofNat 32 c.fabricNow
    else if k = TS_MONO_LO then BitVec.ofNat 32 c.mono
    else if k = TS_NOW_HI ∨ k = TS_NOW_FRAC ∨ k = TS_MONO_HI then c.reg (latchKey k src)
    else if k = TS_STAT then putF TS_STAT_TQ w (c.tqLive (getF TS_STAT_TQ w))
    else w
  | 0x08 =>
    if k = LE_STAT then putF LE_STAT_MODELFLT w (b2n ((List.range 64).any fun j => c.reg (LE_MODELFLT j) != 0#32))
    else if k = LE_TRCSTAT then putF LE_TRCSTAT_STREAMING w (b2n c.streaming)
    else w
  | 0x0A =>
    if k = CT_SETSTAT then putF CT_SETSTAT_PENDING w c.sets.length
    else w
  | _ => w

/-- What a register shows: MG_APPHASH, MG_MIRLOAD and READY follow what the tasks are (R657, R667). -/
def State.wordAt (s : State) (src k : Nat) : Word :=
  if MG_APPHASH 0 ≤ k ∧ k ≤ MG_APPHASH 7 then s.appHash.getD ((k - MG_APPHASH 0) / 4) 0#32
  else if k = MG_MIRLOAD then s.mirrorWord
  else if k = MG_REDSTAT then
    putF MG_REDSTAT_NRREASON (putF MG_REDSTAT_READY (s.chip.reg k) (b2n s.isReady)) s.notReady
  else s.chip.wordAt src k

/-! ## Counters (R687 to R690) -/

/-- The latch of a counter that a selection register chooses: one for each selection and reading island. -/
def selLatch (which sel src : Nat) : Nat := 0x100000000 + ((sel * 32 + src) * 2 + which) * 4

/-- The present value of a counter and the place of its latch. -/
def Chip.counterNow (c : Chip) (src lo : Nat) : Nat × Nat :=
  if lo = SG_RINGDROP_LO then ((c.pool.ring (c.ringSel src)).drops, selLatch 0 (c.ringSel src) src)
  else if lo = EV_STRLOST_LO then (mapGet 0 c.recorder.lost (c.streamSel src), selLatch 1 (c.streamSel src) src)
  else (if lo = EV_OPMS_LO then c.opmsNow else c.counter lo, latchKey lo src)

/-- A read of a counter word: _LO latches the high word of the same value, _HI returns the latch. -/
def Chip.readCounterAt (c : Chip) (src lo : Nat) (hi : Bool) : Word × Chip :=
  let (v, latch) := c.counterNow src lo
  if hi then (c.reg latch, c) else (halfOf false v, c.setReg latch (halfOf true v))

/-! ## Reads -/

/-- A read of an island's register: what it returns and what it leaves (R20, R21, R687; a place that no row of the map covers is reserved
and reads 0, R18). -/
def State.readReg (s : State) (src k : Nat) : Word × State :=
  match counterAt k with
  | some (lo, hi) =>
    let (v, c) := s.chip.readCounterAt src lo hi
    (v, { s with chip := c })
  | none =>
    match regDesc k with
    | none => (0#32, s)
    | some d =>
      let w := s.wordAt src k
      let c := s.chip
      let c := if k = TS_NOW_LO then
          (c.setReg (latchKey TS_NOW_HI src) (halfOf true c.fabricNow)).setReg (latchKey TS_NOW_FRAC src)
            (BitVec.ofNat 32 (c.fabricFracAt c.mono % 65536))
        else if k = TS_MONO_LO then c.setReg (latchKey TS_MONO_HI src) (halfOf true c.mono)
        else if d.fields.any fun f => f.acc == .rc then c.setReg k (readCleared d.fields (c.reg k))
        else c
      (readShown d.fields w, { s with chip := c })

/-! ## Writes -/

/-- The registers of MG. -/
def State.writeMg (s : State) (src k : Nat) (v : Word) : State :=
  let onC := fun (f : Chip → Chip) => s.onChip f
  if k = MG_MODEREQ then onC fun c => c.enqueueReq ⟨.host (getF MG_MODEREQ_TARGET v), getF MG_MODEREQ_TAG v⟩
  else if k = PW_ISLREQ then
    onC fun c => c.enqueueReq ⟨.power (getF PW_ISLREQ_ISLAND v) (getF PW_ISLREQ_STATE v), getF PW_ISLREQ_TAG v⟩
  else if k = PW_FLUSHCTL then (if v.getLsbD 31 then s.flushArm v else onC fun c => c.flushDisarm v)
  else if k = PW_FLUSHCFG0 ∨ k = PW_FLUSHCFG1 then onC fun c => if c.flag PW_FLUSHCTL_ARM then c else c.writePlain src k v
  else if k = MG_STARTCFG then onC fun c => c.writeStartcfg src v
  else if k = MG_PINREL then onC fun c => c.pinRelease v
  else if k = MG_BLKRST then onC fun c => c.blockRequest v
  else if k = MG_BLKCFG then onC fun c =>
    let x := getF MG_BLKCFG_TIMEOUT v
    c.setFld MG_BLKCFG_TIMEOUT (if x = 0 then 1 else Nat.min x 1000000)
  else if MG_TASKDESC 0 ≤ k ∧ k ≤ MG_TASKDESC 15 ∧ k % 32 = 0 then
    (if v.getLsbD 31 then s.taskEnable src ((k - MG_TASKDESC 0) / 32) v else s.taskDisable src ((k - MG_TASKDESC 0) / 32) v)
  else if k = MG_TASKEND then s.taskEnd src v
  else if k = MG_PATCHREQ then onC fun c => c.patchRequest v
  else if k = MG_PATCHDONE then s.patchDone src v
  else if k = MG_REDCFG then onC fun c =>
    if !c.modeLockOpen then c.rwlIgnored src k
    else
      let h := getF MG_REDCFG_SWAPH v
      let b := getF MG_REDCFG_HBLOSS v
      (c.setReg k (putF MG_REDCFG_SWAPH (putF MG_REDCFG_HBLOSS v (Nat.max b 200)) (Nat.max h 1))).wantStore k
  else if k = MG_REDTOL then onC fun c => c.setReg k (putF MG_REDTOL_LETIME v (Nat.max (getF MG_REDTOL_LETIME v) 1))
  else if k = MG_REDCMD then onC fun c =>
    if getF MG_REDCMD_SWAP v = 1 then c.cmdSwap v else if getF MG_REDCMD_LEAVE v = 1 then c.cmdLeave v
    else if getF MG_REDCMD_JOIN v = 1 then c.cmdJoin v else c
  else if k = EV_STRCFG then onC fun c => c.writeStreamCap src v
  else if k = EV_CNTOVF then onC fun c => match c.counterSel src with
    | some lo => if v.getLsbD 0 then c.setReg (c.ovfPlace src lo) 0#32 else c
    | none => c
  else if k = MG_STCFG then onC fun c =>
    if !c.modeLockOpen then c.rwlIgnored src k
    else
      let en := getF MG_STCFG_ENABLE v
      let c1 := c.setFlds [(MG_STCFG_ENABLE, en), (MG_STCFG_BUDGET, Nat.max (getF MG_STCFG_BUDGET v) 10)]
      if en = c.fld MG_STCFG_ENABLE then c1 else c1.raise 0x1504 1 0x15 (toBytes 4 (c1.reg k).toNat)
  else if k = MG_STFAILED then onC fun c => (c.writePlain src k v).showTests
  else if k = MG_ALMACK then onC fun c => (c.ackAlarm v.toNat 1).2
  else onC fun c => c.writePlain src k v

/-- The registers of the pool. -/
def Chip.writePool (c : Chip) (src k : Nat) (v : Word) : Chip :=
  if k = SG_RINGCTL then c.writeRingCtl src v
  else if k = SG_RINGRES then c.writeRingRes src v
  else if k = SG_RINGMAX then c.writeRingMax src v
  else c.writePlain src k v

/-- The registers of the loop engine. -/
def Chip.writeLe (c : Chip) (src k : Nat) (v : Word) : Chip :=
  if k = LE_UPDCOMMIT then c.updCommit v
  else if k = LE_DISABLE then c.leDisable v
  else if k = LE_TRCCTL then c.writeTrcctl v
  else if LE_TAPSEL 0 ≤ k ∧ k ≤ LE_TAPSEL 63 ∧ k % 16 = 0 then c.writeTapsel ((k - LE_TAPSEL 0) / 16) v
  else if LE_STAGE 0 ≤ k ∧ k ≤ LE_STAGE 65535 then
    c.directWrite ((k - LE_STAGE 0) / 128) ((k - LE_STAGE 0) / 4 % 32) v
  else c.writePlain src k v

/-- The registers of the trip matrix; its staging memory is open while SW1 is on (R523). -/
def Chip.writeTm (c : Chip) (src k : Nat) (v : Word) : Chip :=
  if TP_HASHREF 0 ≤ k ∧ k ≤ TP_HASHREF 7 then c.hashrefWrite src ((k - TP_HASHREF 0) / 4) v
  else if k = TP_CFGCOMMIT then c.cfgCommit v
  else if k = TP_TRIPRST then c.tripRst v
  else if TP_STAGE_TERM 0 ≤ k ∧ k ≤ TP_STAGE_OUT 1535 then
    match regDesc k with
    | none => c
    | some _ => if c.flag TP_SWBANK_SW1 then c.setReg k v else c.rwlIgnored src k
  else c.writePlain src k v

/-- The registers of the CG islands; those of the channel table are in the first. -/
def State.writeCg (s : State) (src k : Nat) (v : Word) : State :=
  let g := islandOf k - 0x0A
  if k = CT_BASE then s.ctBase src v s.chip.modeLockOpen
  else if k = CT_INVAL then s.ctInval v
  else if k = CT_COMMIT then s.ctCommit v
  else s.onChip fun c =>
    if k = CT_STATCLR then c.statClr v
    else if k = CG_CALCTL g then c.writeCalctl g v
    else if k = CG_SWTRIG0 g then c.swTrig g false v
    else if k = CG_SWTRIG1 g then c.swTrig g true v
    else if k = CG_SVCCAL g then c.svcCal g v
    else if k = CG_LINKCFG g then c.writeLinkcfg g v
    else c.writePlain src k v

/-- A write of a register that the configuration block holds: it is stored (R849). -/
def Chip.writeStored (c : Chip) (src k : Nat) (v : Word) : Chip :=
  let c1 := c.writePlain src k v
  if c.modeLockOpen then c1.wantStore k else c1

/-- The registers of the fabric switch and of the time unit. -/
def State.writeFx (s : State) (src k : Nat) (v : Word) : State :=
  if k = FX_EXPCTL then s.exportLoad v
  else s.onChip fun c =>
    if FX_RTE 0 ≤ k ∧ k ≤ FX_RTE 4093 then c.routeWrite ((k - FX_RTE 0) / 4 + 1) v
    else if k = FX_TMOCFG then
      let h := getF FX_TMOCFG_HOPLIMIT v
      let t := getF FX_TMOCFG_TMO_US v
      c.setReg k (putF FX_TMOCFG_HOPLIMIT (putF FX_TMOCFG_TMO_US (v &&& 0xEFFFFFFF#32) (Nat.max 10 (Nat.min t 1000000))) (Nat.max h 1))
    else if k = TS_CTL then c.timeSet v
    else if k = TS_SET_LO ∨ k = TS_SET_HI then c.setReg k v
    else if TS_SCHEDCTL 0 ≤ k ∧ k ≤ TS_SCHEDCTL 255 ∧ k % 16 = 12 then c.schedCtl ((k - TS_SCHEDCTL 0) / 16) v
    else if TS_START_LO 0 ≤ k ∧ k < TS_SCHEDCTL 255 ∧ c.flag (TS_SCHEDCTL_ENABLE ((k - TS_START_LO 0) / 16)) then c
    else if k = TS_GMCFG then
      c.writeStored src k (putF TS_GMCFG_STEPLIM v (Nat.max (getF TS_GMCFG_STEPLIM v) 1))
    else if k = FX_PLANHASH_LO ∨ k = FX_PLANHASH_HI then
      (c.writeStored src k v).onChans (fun d c => c.showMember d) (c.fab.joins.map Prod.fst)
    else if flashRegs.any fun p => p.1 == k then c.writeStored src k v
    else c.writePlain src k v

/-- The registers of a CAN controller. -/
def Chip.writeCan (c : Chip) (src n k : Nat) (v : Word) : Chip :=
  if k = CN_CFG n then c.canCfg n v
  else if k = CN_NBT n then c.canTiming n false v
  else if k = CN_DBT n then c.canTiming n true v
  else if k = CN_CTL n then c.canRecover n v
  else if k = CN_CANCEL n then c.canCancel n v
  else if k = CN_EWL n then
    c.setFlds [(CN_EWL_TX n, Nat.max (getF (CN_EWL_TX n) v) 1), (CN_EWL_RX n, Nat.max (getF (CN_EWL_RX n) v) 1)]
  else if k = CN_LATE n then c.setFld (CN_LATE_US n) (Nat.max (getF (CN_LATE_US n) v) 1)
  else if k = CN_TTCFG n then
    let cyc := getF (CN_TTCFG_NCYC n) v
    c.writePlain src k (putF (CN_TTCFG_NCYC n) v (if 4 < cyc then 4 else cyc))
  else c.writePlain src k v

/-- The registers of the Ethernet ports and the CAN controllers. -/
def Chip.writeNx (c : Chip) (src k : Nat) (v : Word) : Chip :=
  if CN_CFG 0 ≤ k then c.writeCan src ((k - CN_CFG 0) / 0x800) k v
  else
    let p := (k - EN_PTPCFG 0) / 0x100
    if k = EN_PTPCFG p then c.writeStored src k (if p = 3 then putF (EN_PTPCFG_UDP 3) v 0 else v)
    else if k = EN_LTCFG p then
      c.writePlain src k (putF (EN_LTCFG_LATE_NS p) v (Nat.max (getF (EN_LTCFG_LATE_NS p) v) 100))
    else c.writePlain src k v

/-- The registers of storage and historian. A flash operation that a register write asks for comes from a core whose own fetches are not
in question; code 3 is refused. -/
def State.writeSt (s : State) (src k : Nat) (v : Word) : State :=
  if k = BT_FLREQ then s.flashRequest src (getF BT_FLREQ_OP v) v none
  else if k = EV_HCFG then s.writeHcfg v
  else s.onChip fun c => c.writePlain src k v

/-- A write of an island's register takes effect (R20 to R24). -/
def State.writeReg (s : State) (src k : Nat) (v : Word) : State :=
  if isBanked k then
    match regDesc k with
    | some d => s.onChip fun c => c.setReg (banked k src) (writeWord true 0#32 v d.fields 0#32)
    | none => s
  else match islandOf k with
  | 0x15 => s.writeMg src k v
  | 0x17 => s.onChip fun c => c.writePool src k v
  | 0x08 => s.onChip fun c => c.writeLe src k v
  | 0x09 => s.onChip fun c => c.writeTm src k v
  | 0x12 => s.writeFx src k v
  | 0x13 => s.onChip fun c => c.writeNx src k v
  | 0x14 => s.writeSt src k v
  | 0x0A | 0x0B | 0x0C | 0x0D | 0x0E | 0x0F | 0x10 | 0x11 => s.writeCg src k v
  | _ => s.onChip fun c => c.writePlain src k v

/-- The bytes of an access. -/
def sizeBytes : Size → Nat
  | .byte => 1
  | .half => 2
  | .word => 4
  | .dword => 8

/-- Whether an access to the register window has the width and alignment that registers have (R16, R17). -/
def regAccessOk (size : Nat) (a : Word) : Bool := size == 4 && a.toNat % 4 == 0 && inRegWindow a

/-- A register access of an island at an address: a bus error where it has the wrong form or its island is not ON (R17, R71). One of the right form
waits behind the island's earlier writes there and for room in its ring (R66, R69, R74). -/
def State.regAccess (s : State) (src size : Nat) (a : Word) (eff : State → Nat → State) : State :=
  let k := keyOfAddr a
  if !regAccessOk size a then s.onChip fun c => c.answer src .busError
  else if !s.chip.writeClear src (islandOf k) then s
  else if s.chip.islandOn (islandOf k) then eff s k else s.onChip fun c => c.answer src .busError

/-- The oldest write under way from one island to another takes effect (R65, R66, R68, R71); one that a core reset has muted has no acknowledgement (R115). -/
def State.writeArrives (s : State) (src dst : Nat) : State :=
  match s.chip.takeWrite src dst with
  | (none, _) => s
  | (some a, c) =>
    let s := { s with chip := c }
    if c.islandOn dst then
      let s1 := s.writeReg src a.key a.value
      if a.mute then s1 else s1.onChip fun c => c.sendAck src dst
    else if a.mute then s else s.onChip fun c => c.writeFailed src a.key

/-- A read's response (R69, R72): it returns once the issuing island's earlier writes to that island have taken effect, and where the rings both ways
have room (R74). -/
def State.readResponse (s : State) (src size : Nat) (a : Word) : State :=
  if regAccessOk size a && !s.chip.pathRoom (islandOf (keyOfAddr a)) src then s
  else s.regAccess src size a fun s k =>
    let (v, s) := s.readReg src k
    s.onChip fun c => c.answer src (.data v)

/-- An access of a core to a counter of its own: nothing where the core executes nothing (R100, R218), ACCESS where its level does not permit the
access (R220), which the core raises before anything else; a bus error for an island that has no such registers. -/
def State.ownCounter (s : State) (src : Nat) (a : Word) (allowed : CoreSt → Bool) (eff : Core → State → State) : State :=
  if h : src < 8 then
    let n : Core := ⟨src, h⟩
    let c := s.core n
    if c.run != .running || c.wait.isSome || !s.chip.islandOn src then s
    else if !allowed c then s.setCore n (c.enter excAccess false false c.pc a)
    else eff n s
  else s.onChip fun c => c.answer src .busError

/-- COUNTER_WRITE_HI and COUNTER_WRITE_LO (R689): of a core, its counter OVLWAIT at level X (R220), the only counter that software loads; a counter of
an island's register is read-only, and the write changes nothing (R20). -/
def State.counterWrite (s : State) (src : Nat) (a v : Word) (hi : Bool) : State :=
  let own := a == (if hi then 0xF0000034#32 else 0xF0000030#32)
  if own then s.ownCounter src a CoreSt.isX fun n s => s.onCore n fun c => c.writeLocal (if hi then 0x34 else 0x30) v
  else s.regAccess src 4 a fun s _ => s

/-- COUNTER_READ_LO (R687, R688): of a core, CYCLE at either level and OVLWAIT at level X (R220). -/
def State.counterReadLo (s : State) (src : Nat) (a : Word) : State :=
  let give := fun (r : Word × State) => r.2.onChip fun c => c.answer src (.data r.1)
  if a == 0xF0000018#32 || a == 0xF0000030#32 then
    s.ownCounter src a (fun c => c.isX || a == 0xF0000018#32) fun n s => give (s.readLocal n (a.toNat - 0xF0000000))
  else if regAccessOk 4 a && !s.chip.pathRoom (islandOf (keyOfAddr a)) src then s
  else s.regAccess src 4 a fun s k => match counterAt k with
    | some (lo, false) =>
      let (v, c) := s.chip.readCounterAt src lo false
      give (v, { s with chip := c })
    | _ => s

/-- The largest value of a counter. -/
def counterTop : Nat := 2 ^ 64 - 1

/-- COUNTER_WRAP (R691): a counter at 2^64 − 1 counts once more; `sel` is the ring or the stream of a counter that a selection register
chooses. CYCLE, which counts by itself, wraps once 2^64 clocks have passed, which are 5 × 2^61 ns. -/
def State.counterWrap (s : State) (a : Word) (sel : Nat) : State :=
  let k := keyOfAddr a
  let c := s.chip
  let wrapped := fun (c : Chip) => (c.setReg (ovfKey k) 1#32).raise 0x1B01 2 (islandOf k)
    (toBytes 2 (islandOf k) ++ toBytes 2 (offsetOf k % 65536))
  if h : k / 0x100000 < 8 then
    let n : Core := ⟨k / 0x100000, h⟩
    if k % 0x100000 = 0x30 ∧ (s.core n).ovlwait = counterTop then (s.onCore n fun x => { x with ovlwait := 0 }).onChip wrapped
    else if k % 0x100000 = 0x18 ∧ counterTop < s.clocks n then (s.onCore n fun x => { x with start := x.start + 5 * 2 ^ 61 }).onChip wrapped
    else s
  else if counterAt k ≠ some (k, false) then s
  else if k = SG_RINGDROP_LO then if (c.pool.ring sel).drops = counterTop then s.onChip fun c => c.ringDrop sel else s
  else if k = EV_STRLOST_LO then
    if sel < 32 ∧ mapGet 0 c.recorder.lost sel = counterTop then s.onChip fun c =>
      let c := (c.onRec fun r => r.lose sel).setReg (ovfKey (k + 0x100 * sel)) 1#32
      c.raise 0x1B01 2 0x15 (toBytes 2 0x15 ++ toBytes 2 (offsetOf k))
    else s
  else if k = EV_OPMS_LO then
    if c.opmsNow = counterTop then s.onChip fun c => wrapped (c.onRec fun r => { r with opms := 0, opmsAt := c.now }) else s
  else if c.counter k = counterTop then s.onChip fun c => c.bump k 1
  else s

/-! ## Commands -/

/-- REGISTER_WRITE (R16, R17, R20 to R24, R71): the write reaches its island. -/
def execRegisterWrite (src : Island) (size : Size) (addr value : Word) (m : State) : Out :=
  .next (m.regAccess src.val (sizeBytes size) addr fun m k => m.writeReg src.val k value)

/-- CROSS_ISLAND_WRITE_EFFECT (R65, R66). -/
def execCrossIslandWriteEffect (src dst : Island) (m : State) : Out := .next (m.writeArrives src.val dst.val)

/-- CROSS_PLANE_MESSAGE (R72 to R74). -/
def execCrossPlaneMessage (src : Island) (addr value : Word) (m : State) : Out :=
  .next (m.onChip fun c => if regAccessOk 4 addr then c.crossPlaneMessage src.val (keyOfAddr addr) value else c.answer src.val .busError)

/-- READ_RESPONSE (R69). -/
def execReadResponse (src : Island) (size : Size) (addr : Word) (m : State) : Out := .next (m.readResponse src.val (sizeBytes size) addr)

/-- FENCE_ACKNOWLEDGE (R68). -/
def execFenceAcknowledge (src dst : Island) (m : State) : Out := .next (m.onChip fun c => c.takeAck src.val dst.val)

/-- Whether a producer may offer a message to a ring: ring 48 takes the messages of a program core at level X (R757). -/
def State.mayOffer (s : State) (ring src : Nat) : Bool :=
  ring != 48 || match s.cores[src]? with
    | some k => k.isX
    | none => true

/-- PUBLISH_MESSAGE (R48, R49). -/
def execPublishMessage (ring : Fin 16384) (producer : Producer) (bytes : List Byte) (ecc : Ecc) (m : State) : Out :=
  .next (if m.mayOffer ring.val producer.island.val then m.onChip fun c => c.publishMessage ring.val producer.island.val bytes ecc (producer.rival.map Fin.val) else m)

/-- BUFFER_RELEASE (R47). -/
def execBufferRelease (ring : Fin 16384) (ecc : Ecc) (m : State) : Out := .next (m.onChip fun c => (c.bufferRelease ring.val ecc).sendUnsent)

/-- RING_RESERVATION_WRITE (R55): a write of SG_RINGRES. -/
def execRingReservationWrite (src : Island) (value : Word) (m : State) : Out :=
  .next (m.onChip fun c => c.whenOn src.val SG_RINGRES fun c => c.writeRingRes src.val value)

/-- RING_MAXIMUM_WRITE (R55): a write of SG_RINGMAX. -/
def execRingMaximumWrite (src : Island) (value : Word) (m : State) : Out :=
  .next (m.onChip fun c => c.whenOn src.val SG_RINGMAX fun c => c.writeRingMax src.val value)

/-- RING_CONTROL_WRITE (R58): a write of SG_RINGCTL. -/
def execRingControlWrite (src : Island) (value : Word) (m : State) : Out :=
  .next (m.onChip fun c => c.whenOn src.val SG_RINGCTL fun c => c.writeRingCtl src.val value)

/-- COUNTER_READ_LO (R687). -/
def execCounterReadLo (src : Island) (addr : Word) (m : State) : Out := .next (m.counterReadLo src.val addr)

/-- COUNTER_WRITE_HI (R689). -/
def execCounterWriteHi (src : Island) (addr value : Word) (m : State) : Out := .next (m.counterWrite src.val addr value true)

/-- COUNTER_WRITE_LO (R689). -/
def execCounterWriteLo (src : Island) (addr value : Word) (m : State) : Out := .next (m.counterWrite src.val addr value false)

/-- COUNTER_WRAP (R691). -/
def execCounterWrap (addr : Word) (sel : Fin 16384) (m : State) : Out := .next (m.counterWrap addr sel.val)

end Sys2Proof.Machine
end

