-- ==== Sys2Proof/Machine/Commands.lean ====
section
/-!
DEFINITION. Management commands: the Ethernet frames and rings that carry them, the checks of R759, and what each command does (R727,
R728, R752 to R763, R773, R778).
-/

namespace Sys2Proof.Machine

/-! ## Received Ethernet frames (R51, R603, R757) -/

/-- A number of network byte order within a frame. -/
def netAt (b : List Byte) (o n : Nat) : Nat := ofBytes (cut b o n).reverse

/-- The bytes of a number in network byte order. -/
def netBytes (n x : Nat) : List Byte := (toBytes n x).reverse

/-- The sum of the 16-bit words of a list, as the Internet checksum adds them. -/
def wordSum : List Byte → Nat
  | [] => 0
  | [a] => a.toNat * 256
  | a :: b :: r => a.toNat * 256 + b.toNat + wordSum r

/-- Carries folded in. -/
def foldSum (x : Nat) : Nat := let y := x % 65536 + x / 65536; y % 65536 + y / 65536

/-- Whether bytes sum to all ones. -/
def sumOk (b : List Byte) : Bool := foldSum (wordSum b) == 65535

/-- An IPv4 packet without fragments or options, to this module's address, with a good header (R757; log entry 75). -/
def ipForMe (f : List Byte) : Bool :=
  netAt f 12 2 == 0x0800 && netAt f 14 1 == 0x45 && netAt f 20 2 % 0x4000 == 0 && sumOk (cut f 14 20) &&
    netAt f 30 4 == Config.ipAddress.toNat && decide (20 ≤ netAt f 16 2 ∧ netAt f 16 2 + 14 ≤ f.length)

/-- The payload of an IPv4 packet. -/
def ipData (f : List Byte) : List Byte := cut f 34 (netAt f 16 2 - 20)

/-- The payload of a datagram for UDP port 7411. -/
def commandData (f : List Byte) : Option (List Byte) :=
  let u := ipData f
  let len := netAt u 4 2
  let pseudo := cut f 26 8 ++ netBytes 2 17 ++ netBytes 2 len
  if ipForMe f && netAt f 23 1 == 17 && netAt u 2 2 == 7411 && decide (8 ≤ len ∧ len ≤ u.length) &&
      (netAt u 6 2 == 0 || sumOk (pseudo ++ u.take len)) then some (cut u 8 (len - 8))
  else none

/-- The answer to an ICMP echo request: the same packet back with type 0 and its checksum. -/
def echoReply (f : List Byte) : Option (List Byte) :=
  let d := ipData f
  if ipForMe f && netAt f 23 1 == 1 && netAt d 0 2 == 0x0800 && sumOk d then
    let body := [0#8, 0#8] ++ d.drop 4
    let sum := 65535 - foldSum (wordSum body)
    some (cut f 6 6 ++ netBytes 6 Config.ethAddress.toNat ++ cut f 12 14 ++ cut f 30 4 ++ cut f 26 4 ++ [0#8, 0#8] ++ netBytes 2 sum ++ d.drop 4)
  else none

/-- The answer to an ARP request for this module's address. -/
def arpReply (f : List Byte) : Option (List Byte) :=
  if netAt f 12 2 == 0x0806 && netAt f 14 8 == 0x0001080006040001 && netAt f 38 4 == Config.ipAddress.toNat then
    let me := netBytes 6 Config.ethAddress.toNat
    some (cut f 6 6 ++ me ++ cut f 12 8 ++ [0#8, 2#8] ++ me ++ netBytes 4 Config.ipAddress.toNat ++ cut f 22 10 ++ List.replicate 18 0#8)
  else none

/-- A frame in the layout of R603: arrival time of its first bit, length, and TQ in bits 15:8 of FLAGS. -/
def Chip.frameMessage (c : Chip) (f : List Byte) (at_ : Nat) : List Byte :=
  toBytes 8 (c.fabricAt at_) ++ toBytes 2 f.length ++ [0#8] ++ toBytes 1 (c.tqAt at_) ++ toBytes 4 0 ++ f

/-- A frame goes to its receive ring, whose producer NX is, by DROP (R51). -/
def Chip.frameToRing (c : Chip) (ring : Nat) (f : List Byte) (at_ : Nat) : Chip :=
  if decide (64 ≤ ring) && (c.pool.ring ring).prod == 0x13 then c.publishLive ring 0x13 (c.frameMessage f at_) else c

/-- The sender of a datagram, as the ring of commands keeps it: Ethernet and IPv4 address and UDP port. -/
def datagramPeer (f : List Byte) : Nat := netAt f 6 6 * 2 ^ 48 + netAt f 26 4 * 2 ^ 16 + netAt (ipData f) 0 2

/-- ETHERNET_RECEIVE: `ago` ns have passed since the frame's first bit; port 3 serves ARP, ICMP echo and UDP port 7411 itself. -/
def Chip.ethernetReceive (c : Chip) (p ring : Nat) (f : List Byte) (ago : Nat) : Chip :=
  let at_ := c.mono - ago
  if !c.islandOn 0x13 || decide (f.length < 60) || decide (1518 < f.length) then c
  else if c.flag (EN_PTPCFG_EN p) && netAt f 12 2 == 0x88F7 then c
  else if p ≠ 3 then c.frameToRing ring f at_
  else match commandData f with
    | some d => (c.offer 46 ⟨d, false, 0x13 + 0x100 * datagramPeer f, none⟩).2
    | none => match echoReply f <|> arpReply f with
      | some r => c.sendEth 3 r
      | none => c.frameToRing ring f at_

/-- ETHERNET_RECEIVE (R603, R757). -/
def execEthernetReceive (port : EthP) (ring : Fin 16384) (frame : List Byte) (ago : BitVec 32) (m : State) : Out :=
  .next (m.onChip fun c => c.ethernetReceive port.val ring.val frame ago.toNat)

/-! ## Paths (R757) -/

/-- The path's code (MG_AUTHSTAT.PATH), the ring of its commands and the ring of its responses. -/
def pathCode : MgmtPath → Nat
  | .port => 0
  | .fabric => 1
  | .core => 2

def pathRing : MgmtPath → Nat
  | .port => 46
  | .fabric => 44
  | .core => 48

def pathReply : MgmtPath → Nat
  | .port => 47
  | .fabric => 45
  | .core => 49

/-- The station a fabric command came from. -/
def Msg.station (m : Msg) : Nat := m.src / 0x100 % 4096

/-! ## The layout of a command (R758) -/

def cmdCode (b : List Byte) : Nat := bytesAt b 0 1
def cmdKey (b : List Byte) : Nat := bytesAt b 2 2
def cmdEpoch (b : List Byte) : Nat := bytesAt b 4 2
def cmdLen (b : List Byte) : Nat := bytesAt b 6 2
def cmdSerial (b : List Byte) : Nat := bytesAt b 8 8
def cmdCounter (b : List Byte) : Nat := bytesAt b 0x10 8
def cmdArg (b : List Byte) : Nat := bytesAt b 0x18 8
def cmdPayload (b : List Byte) : List Byte := cut b 0x40 (cmdLen b)

/-- The results of R763. -/
def mrOk : Nat := 0x00
def mrFormat : Nat := 0x01
def mrSerial : Nat := 0x02
def mrEpoch : Nat := 0x03
def mrUnknownKey : Nat := 0x04
def mrBadSig : Nat := 0x05
def mrReplay : Nat := 0x06
def mrRole : Nat := 0x07
def mrKeyPos : Nat := 0x08
def mrMode : Nat := 0x09
def mrHoldupLow : Nat := 0x0A
def mrLogFull : Nat := 0x0B
def mrStorage : Nat := 0x0F
def mrBusy : Nat := 0x10
def mrNotStaged : Nat := 0x11
def mrNotStored : Nat := 0x12

/-- The codes that are commands (R762). -/
def cmdCodes : List Nat := [0, 1, 2, 3, 4, 5, 6, 0x10, 0x11, 0x12, 0x13, 0x14, 0x15, 0x20, 0x21]

/-- Whether a register is one of those that R750 gives to SAFETY-ENG. -/
def isSafetyReg (k : Nat) : Bool :=
  decide (TP_STAGE_TERM 0 ≤ k ∧ k < TP_ACT_TERM 0) || decide (TP_HASHREF 0 ≤ k ∧ k ≤ TP_HASHREF 7) || k == TP_CFGCOMMIT

/-- The first register that a READREG or WRITEREG names. -/
def argReg (b : List Byte) : Nat := bitsOf (cmdArg b) 20 16 * 0x100000 + bitsOf (cmdArg b) 15 0

/-- The words that a READREG names (log entry 76). -/
def readCount (b : List Byte) : Nat := Nat.max 1 (bitsOf (cmdArg b) 31 24)

/-- The registers that a WRITEREG names. -/
def writeRegs (b : List Byte) : List Nat := (List.range (cmdLen b / 4)).map fun i => argReg b + 4 * i

/-- The roles that a command asks for (R762). -/
def cmdRoles (b : List Byte) : List Nat :=
  match cmdCode b with
  | 0x01 => [roleRead]
  | 0x02 => (writeRegs b).map fun k => if isSafetyReg k then roleSafety else roleEngineer
  | 0x03 | 0x04 => [roleOperate]
  | 0x05 | 0x06 => [roleRecorder]
  | 0x20 | 0x21 => [roleKeys]
  | _ => [roleUpdate]

/-- Whether a key position (0 LOCK, 1 RUN, 2 PROG, 3 SERVICE) allows a command (R762). -/
def cmdKeyOk (b : List Byte) (pos : Nat) : Bool :=
  match cmdCode b with
  | 0x03 => keyAllows pos (cmdArg b % 8)
  | 0x04 => bitAt (cmdArg b) 0 || decide (2 ≤ pos)
  | 0x05 | 0x20 | 0x21 => pos == 3
  | 0x06 | 0x13 | 0x14 => decide (2 ≤ pos)
  | 0x10 | 0x11 | 0x12 => pos != 0
  | _ => true

/-- Whether a mode allows a command (R762, R773). -/
def cmdModeOk (b : List Byte) (mode : Nat) : Bool :=
  if mode = 1 then
    match cmdCode b with
    | 0x00 | 0x04 | 0x11 | 0x12 => true
    | 0x10 => !bitAt (cmdArg b) 0
    | 0x13 => !bitAt (cmdArg b) 1
    | _ => false
  else match cmdCode b with
    | 0x03 => modeFrom mode (cmdArg b % 8)
    | 0x06 | 0x10 | 0x11 | 0x12 | 0x14 => mode != 5
    | 0x13 => mode == 2 || mode == 3 || mode == 7
    | 0x20 | 0x21 => mode == 2 || mode == 3 || mode == 7
    | _ => true

/-- Check 1: LEN, reserved fields, CMD. -/
def cmdFormOk (p : MgmtPath) (b : List Byte) : Bool :=
  decide (cmdLen b ≤ 1280) && b.length == 0x40 + cmdLen b + 96 && bytesAt b 1 1 == 0 && zeros b 0x22 30 &&
    (p == .fabric || bytesAt b 0x20 2 == 0) && cmdCodes.contains (cmdCode b)

/-- The bytes of a key set under enrolment: what has come with the part this command carries (R756). -/
def Chip.enrolBytes (c : Chip) (b : List Byte) : List Byte :=
  if cmdCode b = 0x20 then (if cmdArg b = 0 then [] else c.sec.stage.getD []) ++ cmdPayload b else c.sec.anchor.slotA

/-- The entry that a command's key is checked against: of the active set, or of an enrolment set while the store is EMPTY, which
takes one (R756). -/
def Chip.cmdEntry (c : Chip) (p : MgmtPath) (m : Msg) : Option KeyEntry :=
  let b := m.bytes
  let enrol := c.flag MG_KSSTAT_EMPTY && p == .port && c.keyPos == 3 && ((cmdCode b == 0x20 && !c.isStaged) || cmdCode b == 0x21)
  let es := if enrol then (firstAdmin (setEntries (c.enrolBytes b))).toList else c.activeKeys
  match es.find? fun e => e.id == cmdKey b with
  | none => none
  | some e =>
    if p = .fabric ∧ !(decide (e.smin ≤ m.station ∧ m.station ≤ e.smax) && !e.roles.testBit roleLocal) then none else some e

/-- Whether RECOVERY takes a command unsigned (R773). -/
def Chip.unsignedOk (c : Chip) (b : List Byte) : Bool :=
  c.mode == 1 && cmdKey b == 0 && c.keyPos == 3 && (c.flag MG_KSSTAT_EMPTY || c.flag MG_KSSTAT_KSFAULT)

/-- How the checks of R759 end: a refusal with its step, the stored response of R761, or the command runs; with the key whose COUNTER
has been accepted. -/
inductive CheckEnd where
  | refused (step result : Nat) (key : Option Nat)
  | again (response : List Byte)
  | run (key : Option Nat)
  deriving DecidableEq, Repr

/-- Checks 8 and 9. -/
def Chip.checkLast (c : Chip) (b : List Byte) (key : Option Nat) : CheckEnd :=
  if !cmdKeyOk b c.keyPos then .refused 8 mrKeyPos key
  else if !cmdModeOk b c.mode then .refused 9 mrMode key
  else .run key

/-- Check 6: COUNTER above the highest accepted (R761); 0 is no COUNTER. -/
def Chip.checkCounter (c : Chip) (key counter : Nat) : Option (List Byte) × Bool :=
  match c.sec.used.find? fun u => u.key == key with
  | none => (none, counter != 0)
  | some u => if counter = u.counter then (some u.response, false) else (none, decide (u.counter < counter))

/-- The checks of R759. -/
def Chip.checkCommand (c : Chip) (p : MgmtPath) (m : Msg) : CheckEnd :=
  let b := m.bytes
  if !cmdFormOk p b then .refused 1 mrFormat none
  else if cmdCode b = 0 then (if cmdModeOk b c.mode then .run none else .refused 9 mrMode none)
  else if cmdSerial b ≠ c.serial then .refused 2 mrSerial none
  else if cmdEpoch b ≠ c.fld FX_STATION_EPOCH then .refused 3 mrEpoch none
  else if c.unsignedOk b then c.checkLast b none
  else match c.cmdEntry p m with
    | none => .refused 4 mrUnknownKey none
    | some e =>
      if !sigOk (pubFull e.pub) (b.take (0x40 + cmdLen b)) (cut b (0x40 + cmdLen b) 96) then .refused 5 mrBadSig none
      else match c.checkCounter e.id (cmdCounter b) with
        | (some r, _) => .again r
        | (none, false) => .refused 6 mrReplay none
        | (none, true) =>
          if !(cmdRoles b).all fun r => e.roles.testBit r then .refused 7 mrRole (some e.id)
          else c.checkLast b (some e.id)

/-! ## Responses -/

/-- `n` free bytes (log entry 3). -/
def Chip.freeBytes (c : Chip) (n : Nat) : List Byte × Chip :=
  ((List.range n).map fun i => (Config.freeValue (c.freeCtr + i)).truncate 8, { c with freeCtr := c.freeCtr + n })

/-- A response: the command's header with bit 7 of CMD, RESULT, the module's EPOCH and SERIAL, the answer, and the module's signature, whose
value is free (R758). -/
def Chip.response (c : Chip) (b : List Byte) (result : Nat) (answer : List Byte) : List Byte × Chip :=
  let h := toBytes 1 (cmdCode b % 128 + 128) ++ toBytes 1 result ++ toBytes 2 (cmdKey b) ++ toBytes 2 (c.fld FX_STATION_EPOCH) ++
    toBytes 2 answer.length ++ toBytes 8 c.serial ++ toBytes 8 (cmdCounter b) ++ toBytes 8 (cmdArg b) ++ toBytes 2 (bytesAt b 0x20 2) ++
    List.replicate 30 0#8
  let (sig, c) := c.freeBytes 96
  (h ++ answer ++ sig, c)

/-- Sends a response back on the path of its command. -/
def Chip.reply (c : Chip) (p : MgmtPath) (m : Msg) (r : List Byte) : Chip :=
  (c.offer (pathReply p) ⟨r, false, 0x15 + m.src / 0x100 * 0x100 + (if p = .core then 0x100 * (m.src % 0x100) else 0), none⟩).2

/-- A command has finished (MG_AUTHSTAT). -/
def Chip.authStat (c : Chip) (p : MgmtPath) (b : List Byte) (result : Nat) : Chip :=
  c.setFlds [(MG_AUTHSTAT_VALID, 1), (MG_AUTHSTAT_CMD, cmdCode b), (MG_AUTHSTAT_RESULT, result), (MG_AUTHSTAT_PATH, pathCode p)]

/-- Counts and records a refusal (R760). -/
def Chip.authRefused (c : Chip) (p : MgmtPath) (b : List Byte) (step result : Nat) : Chip :=
  let c := if step ≤ 8 then c.bump MG_AUTHREF_LO 1 else c
  if 2 ≤ step ∧ step ≤ 8 then
    c.raise 0x1D07 4 0x15 (toBytes 1 (cmdCode b) ++ toBytes 1 result ++ toBytes 1 (pathCode p) ++ [0#8] ++ toBytes 2 (cmdKey b) ++
      [0#8, 0#8] ++ toBytes 8 (cmdCounter b))
  else c

/-- Keeps the COUNTER accepted for a key with the command's response (R761). -/
def Chip.useCounter (c : Chip) (key : Option Nat) (b resp : List Byte) : Chip :=
  match key with
  | none => c
  | some k => c.onSec fun x => { x with used := ⟨k, cmdCounter b, resp⟩ :: x.used.filter fun u => u.key != k }

/-- Ends a command: response, counter, status. -/
def Chip.finish (c : Chip) (p : MgmtPath) (m : Msg) (key : Option Nat) (result : Nat) (answer : List Byte) : Chip :=
  let (r, c) := c.response m.bytes result answer
  ((c.useCounter key m.bytes r).reply p m r).authStat p m.bytes result

/-- What a command gives: it waits for the Breath check, or ends with a RESULT, an answer and what remains to be done once the response
has gone. -/
structure CmdEnd where
  waits  : Bool
  result : Nat
  answer : List Byte
  state  : State
  after  : State → State

/-- A command that ends with a RESULT alone. -/
def State.ends (s : State) (result : Nat) : CmdEnd := ⟨false, result, [], s, id⟩

/-- Runs the oldest command of a path where its code is one of `codes`; a poisoned message is discarded (R52); a module that has halted takes
none (R772). -/
def State.command (s : State) (p : MgmtPath) (codes : Nat → Bool) (run : List Byte → State → CmdEnd) : State :=
  match s.chip.head? (pathRing p) with
  | none => s
  | some m =>
    let b := m.bytes
    let taken := fun (s : State) => s.onChip fun c => c.consume (pathRing p)
    if !codes (cmdCode b) || s.chip.halted then s
    else if m.poisoned then taken s
    else match s.chip.checkCommand p m with
      | .refused step result key =>
        let s := taken s
        s.onChip fun c =>
          let c := if cmdCode b = 5 ∧ step = 7 then c.clearStatus 1 else if cmdCode b = 5 ∧ step = 8 then c.clearStatus 2 else c
          (c.authRefused p b step result).finish p m key result []
      | .again r => (taken s).onChip fun c => (c.reply p m r).authStat p b (bytesAt r 1 1)
      | .run key =>
        let e := run b s
        if e.waits then e.state
        else e.after ((taken e.state).onChip fun c => c.finish p m key e.result e.answer)

/-! ## The Breath check of a command (R708, R745, R763) -/

/-- Carries out a write of the anchor store once the Breath check admits `need`: until then the command waits, for 1 s at most; a command of
another path finds it BUSY. -/
def State.keyWrite (s : State) (p : MgmtPath) (need : Nat) (act : State → CmdEnd) : CmdEnd :=
  let c := s.chip
  let done := fun (s : State) => s.onChip fun c => c.onSec fun x => { x with keyWait := none }
  let ok := if need = needFlush then decide (need ≤ c.energy) else c.breath need
  match c.sec.keyWait with
  | some (q, t) =>
    if q ≠ pathCode p then s.ends mrBusy
    else if ok then act (done s)
    else if t + 1000000000 ≤ c.now then (done s).ends mrHoldupLow
    else ⟨true, 0, [], s, id⟩
  | none =>
    if ok then act s
    else ⟨true, 0, [], s.onChip fun c => (c.onSec fun x => { x with keyWait := some (pathCode p, c.now) }).countDeferred, id⟩

/-- Whether a command of another path is under way that writes keys or an update (BUSY). -/
def Chip.otherBusy (c : Chip) (p : MgmtPath) : Bool := match c.sec.keyWait with
  | some (q, _) => q != pathCode p
  | none => false

/-! ## IDENT, READREG, WRITEREG, MODE, RESET, RECCLEAR, HISTFMT (R727 to R729, R761, R762) -/

/-- IDENT: the identity key, the active GEN, MG_BOOTSTAT and MG_ROLLBACK. -/
def State.cmdIdent (_b : List Byte) (s : State) : CmdEnd :=
  let c := s.chip
  ⟨false, mrOk, (Config.identityKey ++ List.replicate 97 0#8).take 97 ++ toBytes 4 (c.reg MG_KSGEN).toNat ++ toBytes 4 (c.reg MG_BOOTSTAT).toNat ++
    toBytes 4 (c.reg MG_ROLLBACK).toNat, s, id⟩

/-- Whether the registers that a command names can be accessed. -/
def Chip.regsOk (c : Chip) (ks : List Nat) (n : Nat) : Bool :=
  decide (ks.length ≤ 64 ∧ 1 ≤ ks.length) && n % 4 == 0 && ks.all fun k => k % 4 == 0 && regAccessOk 4 (BitVec.ofNat 32 (0xE0000000 + k)) && c.islandOn (islandOf k)

/-- Reads registers in order. -/
def State.readRegs (s : State) : List Nat → List Byte × State
  | [] => ([], s)
  | k :: ks =>
    let (w, s) := s.readReg 0x15 k
    let (bs, s) := s.readRegs ks
    (toBytes 4 w.toNat ++ bs, s)

/-- READREG. -/
def State.cmdReadreg (b : List Byte) (s : State) : CmdEnd :=
  let ks := (List.range (readCount b)).map fun i => argReg b + 4 * i
  if !s.chip.regsOk ks 0 then s.ends mrFormat
  else
    let (bs, s) := s.readRegs ks
    ⟨false, mrOk, bs, s, id⟩

/-- Writes registers in order. -/
def State.writeWords (s : State) : List Nat → List Byte → State
  | [], _ => s
  | k :: ks, b => (s.writeReg 0x15 k (BitVec.ofNat 32 (bytesAt b 0 4))).writeWords ks (b.drop 4)

/-- WRITEREG. -/
def State.cmdWritereg (b : List Byte) (s : State) : CmdEnd :=
  if !s.chip.regsOk (writeRegs b) (cmdLen b) then s.ends mrFormat
  else (s.writeWords (writeRegs b) (cmdPayload b)).ends mrOk

/-- MODE: a host mode request. -/
def State.cmdMode (b : List Byte) (s : State) : CmdEnd := (s.onChip fun c => c.enqueueReq ⟨.host (cmdArg b % 8), 0⟩).ends mrOk

/-- RESET: reset source 0x4, after the response. -/
def State.cmdReset (b : List Byte) (s : State) : CmdEnd :=
  ⟨false, mrOk, [], s, fun s => if bitAt (cmdArg b) 0 then s.coreReset 4 else s.systemReset 4⟩

/-- RECCLEAR: stream 31 named, the journal full, the journal write deferred for 1 s, or the clear. -/
def State.cmdRecclear (p : MgmtPath) (b : List Byte) (s : State) : CmdEnd :=
  let mask := cmdArg b % 2 ^ 32
  if mask.testBit 31 then (s.onChip fun c => c.clearStatus 3).ends mrFormat
  else if !s.chip.recorder.journalOpen then (s.onChip fun c => c.clearStatus 4).ends mrLogFull
  else
    let e := s.keyWrite p needFlush fun s => (s.onChip fun c => c.clearRecords mask (cmdKey b)).ends mrOk
    if !e.waits ∧ e.result = mrHoldupLow then { e with state := e.state.onChip fun c => c.clearStatus 4 } else e

/-- HISTFMT: an unformatted namespace becomes a volume with a new identity. -/
def State.cmdHistfmt (b : List Byte) (s : State) : CmdEnd :=
  let n := cmdArg b
  if 16 ≤ n ∨ s.chip.fld (EV_HNS_STATE n) ≠ 4 then s.ends mrFormat
  else
    let (ident, c) := s.chip.freeBytes 16
    ({ s with chip := c.formatNs n ident } : State).ends mrOk

/-! ## Updates (R778) -/

/-- The slot that is neither committed nor running; in RECOVERY the one that does not hold the running section (R773, R778). -/
def Chip.targetSlot (c : Chip) : Option Nat :=
  if c.mode = 1 then c.sec.recSect.map fun r => 1 - r
  else [0, 1].find? fun k => k != c.committedSlot && k != c.fld MG_BOOTSTAT_SRC

/-- The first unit and the number of units of an update's target. -/
def Chip.updTarget (c : Chip) (kind : Nat) : Option (Nat × Nat) :=
  if kind = 1 then some (halfUnit (1 - c.sec.anchor.half), smallUnits) else c.targetSlot.map fun k => (slotUnit k, slotUnits)

/-- The units of an update's target. -/
def updUnits (kind : Nat) : Nat := if kind = 1 then smallUnits else slotUnits

/-- An answer STORAGE with its BT_FLSTAT code. -/
def State.storage (s : State) (code : Nat) : CmdEnd := ⟨false, mrStorage, toBytes 1 code, s, id⟩

/-- Erases units in order. -/
def Chip.eraseUnits (c : Chip) (u : Nat) : Nat → Chip
  | 0 => c
  | n + 1 => ((c.onFlash fun f => f.setUnit u { f.unit u with started := (f.unit u).started + 1 }).eraseDone u).eraseUnits (u + 1) n

/-- UPD-BEGIN: the header; the target's units are erased as the Breath check admits it. -/
def State.cmdUpdBegin (p : MgmtPath) (b : List Byte) (s : State) : CmdEnd :=
  let c := s.chip
  let kind := cmdArg b % 2
  if cmdLen b ≠ 1024 then s.ends mrFormat
  else if c.otherBusy p then s.ends mrBusy
  else match c.updTarget kind with
    | none => s.ends mrBusy
    | some (u, n) =>
      if (List.range n).any fun i => (c.flash.unit (u + i)).gone then s.storage 4
      else if !c.breath needErase then ⟨true, 0, [], s, id⟩
      else
        let c := (c.eraseUnits u n).onSec fun x =>
          { x with upd := some ⟨kind, u, 0, cmdPayload b⟩, cand := x.cand && kind == 1, mark := x.mark && kind == 0 }
        ({ s with chip := c.showCandidate } : State).ends mrOk

/-- Programs whole pages of the bytes that wait, from a page of the image on. -/
def Chip.programPages (c : Chip) (u : Nat) (bs : List Byte) (page : Nat) : Nat → Chip
  | 0 => c
  | n + 1 =>
    (c.onFlash fun f => f.program (u + page / 1024) (page % 1024) (bs.take 16384) 1).programPages u (bs.drop 16384) (page + 1) n

/-- UPD-DATA: the next part of the body. -/
def State.cmdUpdData (p : MgmtPath) (b : List Byte) (s : State) : CmdEnd :=
  let c := s.chip
  match c.sec.upd with
  | none => s.ends mrNotStaged
  | some x =>
    let bs := x.tail ++ cmdPayload b
    let page := (1024 + x.next - x.tail.length) / 16384
    let n := bs.length / 16384
    if c.otherBusy p then s.ends mrBusy
    else if cmdArg b ≠ x.next then s.ends mrFormat
    else if updUnits x.kind * 1024 < page + (bs.length + 16383) / 16384 then s.storage 6
    else if n ≠ 0 && !c.breath needProgram then ⟨true, 0, [], s, id⟩
    else
      let c := (c.programPages x.unit bs page n).onSec fun y => { y with upd := some { x with next := x.next + cmdLen b, tail := bs.drop (n * 16384) } }
      ({ s with chip := c } : State).ends mrOk

/-- UPD-END: the last page; the stored image read back and checked. -/
def State.cmdUpdEnd (p : MgmtPath) (_b : List Byte) (s : State) : CmdEnd :=
  let c := s.chip
  match c.sec.upd with
  | none => s.ends mrNotStaged
  | some x =>
    let page := (1024 + x.next - x.tail.length) / 16384
    if c.otherBusy p then s.ends mrBusy
    else if !x.tail.isEmpty && !c.breath needProgram then ⟨true, 0, [], s, id⟩
    else
      let c := if x.tail.isEmpty then c else c.programPages x.unit (x.tail ++ List.replicate (16384 - x.tail.length) 0xFF#8) page 1
      let (r, _, c) := c.checkStored x.unit (updUnits x.kind) (x.kind + 1)
      let c := c.onSec fun y => { y with upd := none, cand := y.cand || (r == 0 && x.kind == 0), mark := y.mark || (r == 0 && x.kind == 1) }
      ({ s with chip := c.showCandidate } : State).ends r

/-- UPD-TRIAL: arms the trial and resets the module; in RECOVERY the attempt count goes to 0 (R773). -/
def State.cmdUpdTrial (b : List Byte) (s : State) : CmdEnd :=
  let x := s.chip.sec
  let main := bitAt (cmdArg b) 0
  let chfw := bitAt (cmdArg b) 1
  if !(main || chfw) then s.ends mrFormat
  else if (main && !x.cand) || (chfw && !x.mark) then s.ends mrNotStaged
  else
    let c := s.chip.onSec fun y => { y with trial := cmdArg b % 4 }
    let c := if c.mode = 1 then c.setAttempts 0 else c
    ⟨false, mrOk, [], { s with chip := c }, fun s => s.systemReset 4⟩

/-- The boot word of a commit (R747, R778). -/
def Chip.commitBootWord (c : Chip) (advance : Bool) : Chip :=
  let a := c.sec.anchor
  let src := c.fld MG_BOOTSTAT_SRC
  let slot := if src < 2 then src else c.committedSlot
  let new := c.flag MG_BOOTSTAT_CHFWNEW
  let half := if new then 1 - a.half else a.half
  let svnt := if advance then Nat.min (c.fld MG_BOOTSTAT_SVN) 256 else a.fuses
  let seq := match latestWord a.bootLog with
    | some w => (bitsOf w.toNat 11 0 + 1) % 4096
    | none => 1
  let c := c.addBootWord (slot * 2 ^ 23 + c.fld MG_BOOTSTAT_CFGAREA * 2 ^ 22 + half * 2 ^ 21 + svnt * 2 ^ 12 + seq)
  let c := c.onSec fun x => { x with cand := x.cand && !decide (src < 2), mark := x.mark && !new }
  ((c.setFlag MG_BOOTSTAT_TRIAL false).showCandidate).keepRollback

/-- UPD-COMMIT. -/
def State.cmdUpdCommit (p : MgmtPath) (b : List Byte) (s : State) : CmdEnd :=
  let c := s.chip
  if !c.flag MG_BOOTSTAT_TRIAL then s.ends mrNotStaged
  else if c.flag MG_BOOTSTAT_MIGRATED && !c.sec.migSaved then s.ends mrNotStored
  else if logFull c.sec.anchor.bootLog then s.ends mrLogFull
  else s.keyWrite p needKey fun s => (s.onChip fun c => c.commitBootWord (bitAt (cmdArg b) 0)).ends mrOk

/-- UPD-ABANDON. -/
def State.cmdUpdAbandon (_b : List Byte) (s : State) : CmdEnd :=
  (s.onChip fun c => (c.onSec fun x => { x with cand := false, mark := false }).showCandidate).ends mrOk

/-! ## Keys (R753, R754, R756) -/

/-- A slot written and found wrong on the readback: VALID stays unprogrammed (R753). -/
def Chip.spoilSlot (c : Chip) (x : List Byte) : Chip :=
  let b := if c.flag MG_KSSTAT_EMPTY then false else !c.flag MG_KSSTAT_ACTSLOT
  let x := x.take 0x1FFC ++ List.replicate 4 0xFF#8
  (c.onAnchor fun a => if b then { a with slotB := x } else { a with slotA := x }).showStaged

/-- KEY-STAGE: a part; with the last one the set is checked and written. -/
def State.cmdKeyStage (p : MgmtPath) (b : List Byte) (s : State) : CmdEnd :=
  let c := s.chip
  let o := cmdArg b
  let had := if o = 0 then [] else c.sec.stage.getD []
  let x := had ++ cmdPayload b
  if c.otherBusy p then s.ends mrBusy
  else if o ≠ had.length ∨ cmdLen b ≠ Nat.min 1280 (8192 - o) then s.ends mrFormat
  else if x.length < 8192 then (s.onChip fun c => c.onSec fun y => { y with stage := some x }).ends mrOk
  else if !setShape x || (firstAdmin (setEntries x)).isNone then (s.onChip fun c => c.onSec fun y => { y with stage := none }).ends mrFormat
  else s.keyWrite p needKey fun s =>
    let s := s.onChip fun c => c.onSec fun y => { y with stage := none }
    if s.chip.stageOk x then (s.onChip fun c => c.writeSlot x).ends mrOk
    else
      let (f, c) := (s.chip.spoilSlot x).freeBytes 1
      ⟨false, mrStorage, f, { s with chip := c }, id⟩

/-- KEY-COMMIT: the counters of the new set start afresh, so that its own COUNTER is not kept either (R754). -/
def State.cmdKeyCommit (p : MgmtPath) (_b : List Byte) (s : State) : CmdEnd :=
  let c := s.chip
  if c.otherBusy p then s.ends mrBusy
  else if !c.isStaged then s.ends mrNotStaged
  else if logFull c.sec.anchor.keyLog then s.ends mrLogFull
  else s.keyWrite p needKey fun s =>
    { (s.onChip Chip.commitKeys).ends mrOk with after := fun s => s.onChip fun c => c.onSec fun x => { x with used := [] } }

/-! ## Commands -/

/-- IDENT (R758, R759, R761). -/
def execIdent (path : MgmtPath) (m : State) : Out := .next (m.command path (· == 0x00) State.cmdIdent)

/-- READREG (R762). -/
def execReadreg (path : MgmtPath) (m : State) : Out := .next (m.command path (· == 0x01) State.cmdReadreg)

/-- WRITEREG (R762). -/
def execWritereg (path : MgmtPath) (m : State) : Out := .next (m.command path (· == 0x02) State.cmdWritereg)

/-- MODE (R762). -/
def execMode (path : MgmtPath) (m : State) : Out := .next (m.command path (· == 0x03) State.cmdMode)

/-- RESET (R113, R762). -/
def execReset (path : MgmtPath) (m : State) : Out := .next (m.command path (· == 0x04) State.cmdReset)

/-- RECCLEAR (R727 to R729). -/
def execRecclear (path : MgmtPath) (m : State) : Out := .next (m.command path (· == 0x05) (State.cmdRecclear path))

/-- HISTFMT (R762). -/
def execHistfmt (path : MgmtPath) (m : State) : Out := .next (m.command path (· == 0x06) State.cmdHistfmt)

/-- UPD_BEGIN (R778). -/
def execUpdBegin (path : MgmtPath) (m : State) : Out := .next (m.command path (· == 0x10) (State.cmdUpdBegin path))

/-- UPD_DATA (R778). -/
def execUpdData (path : MgmtPath) (m : State) : Out := .next (m.command path (· == 0x11) (State.cmdUpdData path))

/-- UPD_END (R778). -/
def execUpdEnd (path : MgmtPath) (m : State) : Out := .next (m.command path (· == 0x12) (State.cmdUpdEnd path))

/-- UPD_TRIAL (R773, R778). -/
def execUpdTrial (path : MgmtPath) (m : State) : Out := .next (m.command path (· == 0x13) State.cmdUpdTrial)

/-- UPD_COMMIT (R778). -/
def execUpdCommit (path : MgmtPath) (m : State) : Out := .next (m.command path (· == 0x14) (State.cmdUpdCommit path))

/-- UPD_ABANDON (R778). -/
def execUpdAbandon (path : MgmtPath) (m : State) : Out := .next (m.command path (· == 0x15) State.cmdUpdAbandon)

/-- KEY_STAGE (R753, R756). -/
def execKeyStage (path : MgmtPath) (m : State) : Out := .next (m.command path (· == 0x20) (State.cmdKeyStage path))

/-- KEY_COMMIT (R754, R756). -/
def execKeyCommit (path : MgmtPath) (m : State) : Out := .next (m.command path (· == 0x21) (State.cmdKeyCommit path))

/-- RESERVED_CMD (R759): a code that is no command is refused FORMAT at check 1. -/
def execReservedCmd (path : MgmtPath) (m : State) : Out :=
  .next (m.command path (fun k => !cmdCodes.contains k) fun _ s => s.ends mrFormat)

end Sys2Proof.Machine
end

