-- ==== Sys2Proof/Machine/Fpu.lean ====
section
/-!
DEFINITION. The FPU group (R181 to R187).
-/

namespace Sys2Proof.Machine

/-- FCSR.RM. -/
def CoreSt.rm (c : CoreSt) : Nat := c.fcsr.toNat % 4

/-- FCSR with sticky flags added (R187). -/
def withFlags (fcsr : Word) (ex : Nat) : Word := fcsr ||| BitVec.ofNat 32 (ex % 32 * 16)

/-- Whether an enabled trap is among the exceptions signalled (R187). -/
def traps (fcsr : Word) (ex : Nat) : Bool := (fcsr.toNat / 4096 % 32) &&& (ex % 32) != 0

/-- The end of an FPU instruction (R187): the sticky flags; FPE with the destination unchanged where an enabled
exception was signalled, else the destination. -/
def State.fpDone (m : State) (n : Core) (ex : Nat) (dest : CoreSt → CoreSt) : State :=
  let c := m.core n
  let c := { c with fcsr := withFlags c.fcsr ex }
  if traps c.fcsr ex then m.setCore n (c.enter excFpe false false c.pc 0#32) else m.setCore n ((dest c).adv 4)

/-- One FPU instruction whose legality is given; bits 9:6 of fn are zero (R151). -/
def State.fpInstr (m : State) (n : Core) (rd ra rb : RegN) (st : Bool) (x : BitVec 4) (fn : Nat) (legal : Bool)
    (body : State → State) : State := m.instr n (formA 0x30 rd ra rb st x fn) 4 (x == 0#4 && legal) body

/-- The operand bits of an F register in the format S selects (R182). -/
def CoreSt.fbits (c : CoreSt) (st : Bool) (r : RegN) : Nat := (c.rf r).toNat % 2 ^ (fmtOf st).width

/-- The operand as a number. -/
def CoreSt.fval (c : CoreSt) (st : Bool) (r : RegN) : FVal := (fmtOf st).read (c.fbits st r)

/-- An instruction whose result goes to an F register, upper half cleared in binary32 (R182). -/
def State.fpToF (m : State) (n : Core) (rd ra rb : RegN) (st : Bool) (x : BitVec 4) (fn : Nat) (legal : Bool)
    (f : CoreSt → FOut) : State :=
  m.fpInstr n rd ra rb st x fn legal fun m =>
    let o := f (m.core n)
    m.fpDone n o.ex fun c => c.wf rd (BitVec.ofNat 64 o.bits)

/-- FADD (R181 to R183, R187). -/
def execFadd (n : Core) (rd ra rb : RegN) (st : Bool) (x : BitVec 4) (m : State) : Out :=
  .next (m.fpToF n rd ra rb st x 0x00 true fun c => (fmtOf st).add c.rm (c.fval st ra) (c.fval st rb))

/-- FSUB (R181 to R183, R187). -/
def execFsub (n : Core) (rd ra rb : RegN) (st : Bool) (x : BitVec 4) (m : State) : Out :=
  .next (m.fpToF n rd ra rb st x 0x01 true fun c => (fmtOf st).add c.rm (c.fval st ra) (c.fval st rb).neg)

/-- FMUL (R181 to R183, R187). -/
def execFmul (n : Core) (rd ra rb : RegN) (st : Bool) (x : BitVec 4) (m : State) : Out :=
  .next (m.fpToF n rd ra rb st x 0x02 true fun c => (fmtOf st).mul c.rm (c.fval st ra) (c.fval st rb))

/-- FDIV (R181 to R183, R187). -/
def execFdiv (n : Core) (rd ra rb : RegN) (st : Bool) (x : BitVec 4) (m : State) : Out :=
  .next (m.fpToF n rd ra rb st x 0x03 true fun c => (fmtOf st).div c.rm (c.fval st ra) (c.fval st rb))

/-- FSQRT: rb must be 0 (R181 to R183, R187). -/
def execFsqrt (n : Core) (rd ra rb : RegN) (st : Bool) (x : BitVec 4) (m : State) : Out :=
  .next (m.fpToF n rd ra rb st x 0x04 (rb == 0) fun c => (fmtOf st).sqrt c.rm (c.fval st ra))

/-- FMA: rd + ra × rb with one rounding (R181 to R183, R187). -/
def execFma (n : Core) (rd ra rb : RegN) (st : Bool) (x : BitVec 4) (m : State) : Out :=
  .next (m.fpToF n rd ra rb st x 0x05 true fun c => (fmtOf st).fma c.rm (c.fval st rd) (c.fval st ra) (c.fval st rb))

/-- FMIN (R184) (R181 to R183, R187). -/
def execFmin (n : Core) (rd ra rb : RegN) (st : Bool) (x : BitVec 4) (m : State) : Out :=
  .next (m.fpToF n rd ra rb st x 0x06 true fun c => (fmtOf st).minMax false (c.fbits st ra) (c.fbits st rb))

/-- FMAX (R184) (R181 to R183, R187). -/
def execFmax (n : Core) (rd ra rb : RegN) (st : Bool) (x : BitVec 4) (m : State) : Out :=
  .next (m.fpToF n rd ra rb st x 0x07 true fun c => (fmtOf st).minMax true (c.fbits st ra) (c.fbits st rb))

/-- FABS: rb must be 0 (R181 to R183, R187). -/
def execFabs (n : Core) (rd ra rb : RegN) (st : Bool) (x : BitVec 4) (m : State) : Out :=
  .next (m.fpToF n rd ra rb st x 0x08 (rb == 0) fun c => (fmtOf st).setSign (c.fbits st ra) false)

/-- FNEG: rb must be 0 (R181 to R183, R187). -/
def execFneg (n : Core) (rd ra rb : RegN) (st : Bool) (x : BitVec 4) (m : State) : Out :=
  .next (m.fpToF n rd ra rb st x 0x09 (rb == 0) fun c => (fmtOf st).setSign (c.fbits st ra) (!(c.fval st ra).isNeg))

/-- The flags FCMP sets (R186). -/
def cmpFlags (x y : FVal) : Flags :=
  if anyNaN [x, y] then ⟨false, false, true, true⟩
  else if x.lt y then ⟨true, false, false, false⟩
  else if y.lt x then ⟨false, false, true, false⟩
  else ⟨false, true, true, false⟩

/-- FCMP: rd must be 0; NV only for a signalling NaN (R186). -/
def execFcmp (n : Core) (rd ra rb : RegN) (st : Bool) (x : BitVec 4) (m : State) : Out :=
  .next (m.fpInstr n rd ra rb st x 0x0A (rd == 0) fun m =>
    let c := m.core n
    let a := c.fval st ra
    let b := c.fval st rb
    m.fpDone n (if [a, b].contains (.nan true) then exNV else 0) fun c => { c with flags := cmpFlags a b })

/-- FCVT.F: from the other format into the one S selects (R181, R183; log entry 7). -/
def execFcvtF (n : Core) (rd ra rb : RegN) (st : Bool) (x : BitVec 4) (m : State) : Out :=
  .next (m.fpToF n rd ra rb st x 0x0C true fun c => (fmtOf st).ofVal c.rm (c.fval (!st) ra))

/-- FCVT.FI: a signed integer to floating point (R181; log entry 7). -/
def execFcvtFi (n : Core) (rd ra rb : RegN) (st : Bool) (x : BitVec 4) (m : State) : Out :=
  .next (m.fpToF n rd ra rb st x 0x0D true fun c => (fmtOf st).ofInt c.rm (c.rw ra).toInt)

/-- FCVT.FU: an unsigned integer to floating point (R181; log entry 7). -/
def execFcvtFu (n : Core) (rd ra rb : RegN) (st : Bool) (x : BitVec 4) (m : State) : Out :=
  .next (m.fpToF n rd ra rb st x 0x0E true fun c => (fmtOf st).ofInt c.rm ((c.rw ra).toNat : Int))

/-- A conversion to an integer in a range (R185): rb field 0 rounds as FCSR.RM selects, 1 truncates, others are ILLEGAL. -/
def State.fpToInt (m : State) (n : Core) (rd ra rb : RegN) (st : Bool) (x : BitVec 4) (fn : Nat) (lo hi : Int) : State :=
  m.fpInstr n rd ra rb st x fn (decide (rb.val < 2)) fun m =>
    let c := m.core n
    let (i, ex) := (c.fval st ra).toInteger (if rb = 1 then 1 else c.rm) lo hi
    m.fpDone n ex fun c => c.ww rd (BitVec.ofInt 32 i)

/-- FCVT.IF (R181, R185). -/
def execFcvtIf (n : Core) (rd ra rb : RegN) (st : Bool) (x : BitVec 4) (m : State) : Out :=
  .next (m.fpToInt n rd ra rb st x 0x0F (-2 ^ 31) (2 ^ 31 - 1))

/-- FCVT.UF (R181, R185). -/
def execFcvtUf (n : Core) (rd ra rb : RegN) (st : Bool) (x : BitVec 4) (m : State) : Out :=
  .next (m.fpToInt n rd ra rb st x 0x10 0 (2 ^ 32 - 1))

/-- A move between the register files: S must be 0; it signals nothing (R181; log entry 7). -/
def State.fpMove (m : State) (n : Core) (rd ra rb : RegN) (st : Bool) (x : BitVec 4) (fn : Nat)
    (f : CoreSt → CoreSt) : State :=
  m.fpInstr n rd ra rb st x fn (!st) fun m => m.onCore n fun c => (f c).adv 4

/-- FMV.FW: the low half from W ra, the high half 0 (R181). -/
def execFmvFw (n : Core) (rd ra rb : RegN) (st : Bool) (x : BitVec 4) (m : State) : Out :=
  .next (m.fpMove n rd ra rb st x 0x11 fun c => c.wf rd ((c.rw ra).zeroExtend 64))

/-- FMV.WF: W rd from the low half (R181). -/
def execFmvWf (n : Core) (rd ra rb : RegN) (st : Bool) (x : BitVec 4) (m : State) : Out :=
  .next (m.fpMove n rd ra rb st x 0x12 fun c => c.ww rd ((c.rf ra).truncate 32))

/-- FMV.WFH: W rd from the high half (R181). -/
def execFmvWfh (n : Core) (rd ra rb : RegN) (st : Bool) (x : BitVec 4) (m : State) : Out :=
  .next (m.fpMove n rd ra rb st x 0x13 fun c => c.ww rd ((c.rf ra >>> 32).truncate 32))

/-- FMV.FWH: the high half from W ra, the low half unchanged (R181). -/
def execFmvFwh (n : Core) (rd ra rb : RegN) (st : Bool) (x : BitVec 4) (m : State) : Out :=
  .next (m.fpMove n rd ra rb st x 0x14 fun c =>
    c.wf rd (((c.rw ra).zeroExtend 64 <<< 32) ||| ((c.rf rd) &&& 0xFFFFFFFF#64)))

/-- FLI: the low half from imm32, the high half 0; ra must be 0 (R188). -/
def execFli (n : Core) (rd ra : RegN) (zero : BitVec 10) (imm : Word) (m : State) : Out :=
  .next (m.instr n (formL 0x0B rd ra zero) 8 (zero == 0#10 && ra == 0) fun m => m.onCore n fun c =>
    (c.wf rd (imm.zeroExtend 64)).adv 8)

end Sys2Proof.Machine
end

