-- ==== Sys2Proof/Machine/LoadStore.lean ====
section
/-!
DEFINITION. Loads, stores and atomics of the program cores, and the process-image instructions (R158 to R163, R171,
R172, R177 to R179, R188, R198 to R206, R578, R851, R852).
-/

namespace Sys2Proof.Machine

/-! ## Writes under way -/

/-- The writes of an island that are under way to an island take effect, at most `k` of them (R65, R66). -/
def State.landWrites (s : State) (src dst : Nat) : Nat → State
  | 0 => s
  | k + 1 => if (s.chip.writesOut src).contains dst then (s.writeArrives src dst).landWrites src dst k else s

/-- Every write of an island that is under way takes effect. -/
def State.landAll (s : State) (src : Nat) : State :=
  let out := s.chip.writesOut src
  out.eraseDups.foldl (fun s dst => s.landWrites src dst out.length) s

/-! ## What a load gets -/

/-- Reads a place in memory or in an image, past the store buffer (R144, R199). -/
def State.peek (s : State) (n : Core) (p : Place) (size : Nat) : Got :=
  match p with
  | .dram a | .ctab a => if s.chip.poisoned a size then .poison else .data (memRead s.mem size a)
  | .inImg o => .data (bytesFrom s.chip.img.inF size (imgAt n o))
  | .outImg o => .data (bytesFrom s.chip.img.outF size (imgAt n o))
  | _ => .busError

/-- How many entries have to retire before none is left that meets a test. -/
def depthOf (sb : List StoreEntry) (test : StoreEntry → Bool) : Nat :=
  sb.length - (sb.reverse.takeWhile fun e => !test e).length

/-- OVLWAIT counts the wait of the load at the program counter, once (R203, R691). -/
def State.countWait (s : State) (n : Core) : State :=
  if (s.core n).ovlSeen then s
  else if (s.core n).ovlwait = counterTop then
    (s.onCore n fun c => { c with ovlwait := 0, ovlSeen := true }).onChip fun c => c.counterWrapped (n.val * 0x100000 + 0x30)
  else s.onCore n fun c => { c with ovlwait := c.ovlwait + 1, ovlSeen := true }

/-- Where a load cannot take its data from a buffered store, the stores that overlap it and those that meet a test retire first; a wait for a store
that overlaps it is counted (R201, R203). -/
def State.waitStores (s : State) (n : Core) (p : Place) (size : Nat) (test : StoreEntry → Bool) : State :=
  let sb := (s.core n).sb
  let lapped := fun (e : StoreEntry) => e.overlaps p size
  let s1 := if sb.any lapped then s.countWait n else s
  s1.retire n (depthOf sb fun e => lapped e || test e)

/-- Whether a load still has to wait for a store in the buffer (R201, R206). -/
def State.storesLeft (s : State) (n : Core) (p : Place) (size : Nat) (test : StoreEntry → Bool) : Bool :=
  (s.core n).sb.any fun e => e.overlaps p size || test e

/-- Reads memory or an image through the store buffer (R199 to R203): data forwarded from the youngest overlapping store where it holds
every byte, else the overlapping stores retire first. -/
def State.readThrough (s : State) (n : Core) (p : Place) (size : Nat) : Got × State :=
  match (s.core n).sb.reverse.find? fun e => e.overlaps p size with
  | none => (s.peek n p size, s)
  | some e =>
    if e.contains p size then (.data (e.extract p size), s)
    else
      let s1 := s.waitStores n p size fun _ => false
      if s1.storesLeft n p size fun _ => false then (.waits, s1) else (s1.peek n p size, s1)

/-- Whether a buffered store goes to an island's registers. -/
def StoreEntry.toIsland (e : StoreEntry) (i : Nat) : Bool :=
  match e.place with
  | .reg k => islandOf k == i
  | _ => false

/-- Whether a buffered store goes to the fabric window. -/
def StoreEntry.toFabric (e : StoreEntry) : Bool :=
  match e.place with
  | .fabric _ => true
  | _ => false

/-- Whether a buffered store goes to the channel table's window. -/
def StoreEntry.toTable (e : StoreEntry) : Bool :=
  match e.place with
  | .ctab _ => true
  | _ => false

/-- Reads the channel table's window, which is uncached: the core's earlier stores to the window, and those to the same bytes, take effect first
(R69, R206, R408). -/
def State.readTable (s : State) (n : Core) (p : Place) (size : Nat) : Got × State :=
  let s1 := s.waitStores n p size StoreEntry.toTable
  if s1.storesLeft n p size StoreEntry.toTable then (.waits, s1) else (s1.peek n p size, s1)

/-- Reads a register of an island (R69, R71, R145, R206): the core's earlier writes to that island take effect first. -/
def State.readIsland (s : State) (n : Core) (k : Nat) : Got × State :=
  let i := islandOf k
  let s1 := s.waitStores n (.reg k) 4 fun e => e.toIsland i
  let s2 := s1.landWrites n.val i (s1.chip.writesOut n.val).length
  if ((s1.core n).sb.any fun e => e.toIsland i) || !s2.chip.readClear n.val i then (.waits, s2)
  else if !s2.chip.islandOn i then (.busError, s2)
  else
    let (v, s3) := s2.readReg n.val k
    (.data v.toNat, s3)

/-- Reads `size` bytes of a place that is not in the fabric window; nothing yet where a failed store of the core has to be reported
first (R211) or the access reset the core. -/
def State.obtain (s : State) (n : Core) (p : Place) (size : Nat) : Got × State :=
  match p with
  | .loc o =>
    let (v, s1) := s.readLocal n o
    (.data v.toNat, s1)
  | .reg k =>
    let (g, s1) := s.readIsland n k
    if (s1.core n).run != .running then (.waits, s1)
    else match s1.raiseFailed n with
      | some s2 => (.waits, s2)
      | none => (g, s1)
  | .ctab _ => s.readTable n p size
  | _ => s.readThrough n p size

/-- A load through the fabric window (R578): the core's earlier stores to the window go first, and a BUSERR of one of them comes before the load
(R211); then FX takes the READ and the core waits for its response. -/
def State.loadFabric (s : State) (n : Core) (v : Word) (size : Nat) (d : LoadTo) (len : Nat) : State :=
  let s1 := s.waitStores n (.fabric v.toNat) size StoreEntry.toFabric
  match s1.raiseFailed n with
  | some s2 => s2
  | none =>
    if s1.storesLeft n (.fabric v.toNat) size StoreEntry.toFabric then s1
    else match s1.chip.offerWindow n v.toNat [] size true with
      | (false, _) => s1
      | (true, c) => ({ s1 with chip := c }).onCore n fun c => { c with wait := some ⟨v, size, d, len⟩ }

/-- A load of a place (R158, R182, R204). -/
def State.loadPlace (s : State) (n : Core) (p : Place) (v : Word) (size : Nat) (d : LoadTo) (len : Nat) : State :=
  match p with
  | .fabric _ => s.loadFabric n v size d len
  | _ =>
    let (g, s1) := s.obtain n p size
    s1.endLoad n v size d len g

/-- A load of an address: ALIGN first, then the map (R144, R160, R213). -/
def State.load (s : State) (n : Core) (v : Word) (size : Nat) (d : LoadTo) (len : Nat) : State :=
  if v.toNat % size ≠ 0 then s.exc n excAlign v
  else match s.map n .read v.toNat size with
    | .at p => s.loadPlace n p v size d len
    | r => s.accessExc n r v

/-! ## What a store does -/

/-- A store of an address (R158, R160, R198, R852): it enters the store buffer, or writes a core-local register at once; it waits where
the buffer is full and its head cannot retire. -/
def State.store (s : State) (n : Core) (v : Word) (size data len : Nat) : State :=
  if v.toNat % size ≠ 0 then s.exc n excAlign v
  else match s.map n .write v.toNat size with
    | .at (.loc o) => s.onCore n fun c => (c.writeLocal o (BitVec.ofNat 32 data)).adv len
    | .at p =>
      let s1 := s.makeRoom n 1
      if !s1.hasRoom n 1 then s1 else s1.onCore n fun c => (c.push ⟨p, v, size, data, none⟩).adv len
    | r => s.accessExc n r v

/-! ## Atomics (R159, R162) -/

/-- CASW and SWAPW: the store buffer drains, then one indivisible read and write; `upd` says what the core and the word become. -/
def State.atomic (s : State) (n : Core) (v : Word) (upd : CoreSt → Word → CoreSt × Word) : State :=
  if v.toNat % 4 ≠ 0 then s.exc n excAlign v
  else match s.map n .atomic v.toNat 4 with
    | .at (.dram a) =>
      let s1 := s.drain n
      if !(s1.core n).sb.isEmpty then s1
      else if s1.chip.poisoned a 4 then s1.exc n excPoison v
      else
        let (c, w) := upd (s1.core n) (BitVec.ofNat 32 (memRead s1.mem 4 a))
        { s1 with mem := memWrite s1.mem 4 a w.toNat }.setCore n (c.adv 4)
    | r => s.accessExc n r v

/-! ## The instructions -/

/-- A load of form B (R158). -/
def State.loadB (m : State) (n : Core) (op : Nat) (rd ra : RegN) (imm : BitVec 16) (size : Nat) (d : LoadTo) : State :=
  m.instr n (formB op rd ra imm) 4 true fun m => m.load n ((m.core n).rw ra + imm.signExtend 32) size d 4

/-- A store of form B (R158): the low bytes of the data. -/
def State.storeB (m : State) (n : Core) (op : Nat) (rd ra : RegN) (imm : BitVec 16) (size : Nat) (data : CoreSt → Nat) : State :=
  m.instr n (formB op rd ra imm) 4 true fun m =>
    m.store n ((m.core n).rw ra + imm.signExtend 32) size (data (m.core n) % 256 ^ size) 4

/-- LB: a byte, sign-extended. -/
def execLb (n : Core) (rd ra : RegN) (imm : BitVec 16) (m : State) : Out := .next (m.loadB n 0x10 rd ra imm 1 (.w rd true))

/-- LBU: a byte, zero-extended. -/
def execLbu (n : Core) (rd ra : RegN) (imm : BitVec 16) (m : State) : Out := .next (m.loadB n 0x11 rd ra imm 1 (.w rd false))

/-- LH: a halfword, sign-extended. -/
def execLh (n : Core) (rd ra : RegN) (imm : BitVec 16) (m : State) : Out := .next (m.loadB n 0x12 rd ra imm 2 (.w rd true))

/-- LHU: a halfword, zero-extended. -/
def execLhu (n : Core) (rd ra : RegN) (imm : BitVec 16) (m : State) : Out := .next (m.loadB n 0x13 rd ra imm 2 (.w rd false))

/-- LW: a word. -/
def execLw (n : Core) (rd ra : RegN) (imm : BitVec 16) (m : State) : Out := .next (m.loadB n 0x14 rd ra imm 4 (.w rd false))

/-- SB: rd[7:0]. -/
def execSb (n : Core) (rd ra : RegN) (imm : BitVec 16) (m : State) : Out :=
  .next (m.storeB n 0x15 rd ra imm 1 fun c => (c.rw rd).toNat)

/-- SH: rd[15:0]. -/
def execSh (n : Core) (rd ra : RegN) (imm : BitVec 16) (m : State) : Out :=
  .next (m.storeB n 0x16 rd ra imm 2 fun c => (c.rw rd).toNat)

/-- SW: rd. -/
def execSw (n : Core) (rd ra : RegN) (imm : BitVec 16) (m : State) : Out :=
  .next (m.storeB n 0x17 rd ra imm 4 fun c => (c.rw rd).toNat)

/-- FLW: 32 bits into F rd[31:0], the rest 0. -/
def execFlw (n : Core) (rd ra : RegN) (imm : BitVec 16) (m : State) : Out := .next (m.loadB n 0x18 rd ra imm 4 (.f rd))

/-- FLD: 64 bits into F rd. -/
def execFld (n : Core) (rd ra : RegN) (imm : BitVec 16) (m : State) : Out := .next (m.loadB n 0x19 rd ra imm 8 (.f rd))

/-- FSW: F rd[31:0]. -/
def execFsw (n : Core) (rd ra : RegN) (imm : BitVec 16) (m : State) : Out :=
  .next (m.storeB n 0x1A rd ra imm 4 fun c => (c.rf rd).toNat)

/-- FSD: F rd. -/
def execFsd (n : Core) (rd ra : RegN) (imm : BitVec 16) (m : State) : Out :=
  .next (m.storeB n 0x1B rd ra imm 8 fun c => (c.rf rd).toNat)

/-- LWX: the word at ra + rb (R159); S and bits 9:6 are zero. -/
def execLwx (n : Core) (rd ra rb : RegN) (st : Bool) (x : BitVec 4) (m : State) : Out :=
  .next (m.instr n (formA 0x0A rd ra rb st x 0x00) 4 (x == 0#4 && !st) fun m =>
    m.load n ((m.core n).rw ra + (m.core n).rw rb) 4 (.w rd false) 4)

/-- SWX: rd to the word at ra + rb (R159). -/
def execSwx (n : Core) (rd ra rb : RegN) (st : Bool) (x : BitVec 4) (m : State) : Out :=
  .next (m.instr n (formA 0x0A rd ra rb st x 0x01) 4 (x == 0#4 && !st) fun m =>
    m.store n ((m.core n).rw ra + (m.core n).rw rb) 4 ((m.core n).rw rd).toNat 4)

/-- CASW: the word becomes rb where it equals rd, Z says whether it did; rd takes the old word (R159). -/
def execCasw (n : Core) (rd ra rb : RegN) (st : Bool) (x : BitVec 4) (m : State) : Out :=
  .next (m.instr n (formA 0x0A rd ra rb st x 0x02) 4 (x == 0#4 && !st) fun m =>
    m.atomic n ((m.core n).rw ra) fun c old =>
      let hit := old == c.rw rd
      (({ c with flags := { c.flags with z := hit } }).ww rd old, if hit then c.rw rb else old))

/-- SWAPW: the word becomes rb, rd takes the old word (R159). -/
def execSwapw (n : Core) (rd ra rb : RegN) (st : Bool) (x : BitVec 4) (m : State) : Out :=
  .next (m.instr n (formA 0x0A rd ra rb st x 0x03) 4 (x == 0#4 && !st) fun m =>
    m.atomic n ((m.core n).rw ra) fun c old => (c.ww rd old, c.rw rb))

/-- LWL: the word at ra + imm32 (R188). -/
def execLwl (n : Core) (rd ra : RegN) (zero : BitVec 10) (imm : Word) (m : State) : Out :=
  .next (m.instr n (formL 0x07 rd ra zero) 8 (zero == 0#10) fun m => m.load n ((m.core n).rw ra + imm) 4 (.w rd false) 8)

/-- SWL: rd to the word at ra + imm32 (R188). -/
def execSwl (n : Core) (rd ra : RegN) (zero : BitVec 10) (imm : Word) (m : State) : Out :=
  .next (m.instr n (formL 0x08 rd ra zero) 8 (zero == 0#10) fun m =>
    m.store n ((m.core n).rw ra + imm) 4 ((m.core n).rw rd).toNat 8)

/-- EDGE (R171): the state byte at W28 + offset is read through the store buffer and written through it. -/
def State.edgeAt (m : State) (n : Core) (rd ra : RegN) (kind : Nat) (v : Word) : State :=
  match m.map n .read v.toNat 1, m.map n .write v.toNat 1 with
  | .at p, .at _ =>
    let m1 := m.makeRoom n 1
    if !m1.hasRoom n 1 then m1 else m1.loadPlace n p v 1 (.edge rd kind ((m.core n).rw ra != 0#32) p v) 4
  | r, w => m.accessExc n (r.worse w) v

/-- EDGE: imm16[15:14] is the kind, 0b11 is ILLEGAL; imm16[13:0] is the offset (R171). -/
def execEdge (n : Core) (rd ra : RegN) (imm : BitVec 16) (m : State) : Out :=
  let kind := bitsOf imm.toNat 15 14
  .next (m.instr n (formB 0x25 rd ra imm) 4 (kind != 3) fun m =>
    m.edgeAt n rd ra kind ((m.core n).rw 28 + BitVec.ofNat 32 (bitsOf imm.toNat 13 0)))

/-! ## Process images (R177 to R179) -/

/-- The bytes of one image of one core. -/
def imageSize : Nat := 0x40000

/-- The bytes that a width code moves. -/
def imgBytes (code : Nat) : Nat :=
  match code with
  | 0 | 1 | 2 => 1
  | 3 | 4 => 2
  | _ => 4

/-- The offset in bytes of an image operand: a bit operand counts bits. -/
def imgByte (code o : Nat) : Nat := if code = 0 then o / 8 else o

/-- A process-image instruction: the width and the checks of R178 in the order of R213, then `body` with the place of its bytes. -/
def State.imgInstr (m : State) (n : Core) (op : Nat) (rd ra : RegN) (imm : BitVec 16) (k : AccKind) (base : Nat) (legal : Nat → Bool)
    (body : State → Nat → Nat → Place → Word → State) : State :=
  let code := bitsOf imm.toNat 15 13
  m.instr n (formB op rd ra imm) 4 (legal code) fun m =>
    let o := (m.core n).rw ra + BitVec.ofNat 32 (bitsOf imm.toNat 12 0)
    let b := imgByte code o.toNat
    let v := BitVec.ofNat 32 (base + b)
    if o.toNat % imgBytes code ≠ 0 then m.exc n excAlign o
    else if imageSize ≤ b then m.exc n excImage o
    else match m.map n k v.toNat (imgBytes code) with
      | .at p => body m code (o.toNat % 8) p v
      | r => m.accessExc n r v

/-- The value a PIL gets from its bytes. -/
def pilValue (code bit x : Nat) : Word :=
  match code with
  | 0 => BitVec.ofNat 32 (x / 2 ^ bit % 2)
  | 2 => BitVec.ofInt 32 (signed 8 x)
  | 4 => BitVec.ofInt 32 (signed 16 x)
  | _ => BitVec.ofNat 32 x

/-- PIL: reads the input image's front bank (R177). -/
def execPil (n : Core) (rd ra : RegN) (imm : BitVec 16) (m : State) : Out :=
  .next (m.imgInstr n 0x27 rd ra imm .read 0x60000000 (fun code => decide (code ≤ 5)) fun m code bit p v =>
    match m.peek n p (imgBytes code) with
    | .data x => m.onCore n fun c => (c.ww rd (pilValue code bit x)).adv 4
    | g => m.endLoad n v 4 (.w rd false) 4 g)

/-- PIS: writes the output image's front bank through the store buffer; a bit write is an entry with a one-bit mask (R177, R179). -/
def execPis (n : Core) (rd ra : RegN) (imm : BitVec 16) (m : State) : Out :=
  .next (m.imgInstr n 0x28 rd ra imm .write 0x60040000 (fun code => code == 0 || code == 1 || code == 3 || code == 5) fun m code bit p v =>
    let m1 := m.makeRoom n 1
    if !m1.hasRoom n 1 then m1
    else m1.onCore n fun c => (c.push ⟨p, v, imgBytes code, (c.rw rd).toNat % 256 ^ imgBytes code,
      if code = 0 then some bit else none⟩).adv 4)

end Sys2Proof.Machine
end

