-- ==== Sys2Proof/Machine/SelfTest.lean ====
section
/-!
DEFINITION. Self-test in slices, hold-up health, crack loops, and the Mouthpiece (R782 to R809).
-/

namespace Sys2Proof.Machine

/-- Changes the self-test state. -/
def Chip.onTest (c : Chip) (f : SelfTest → SelfTest) : Chip := { c with test := f c.test }

/-! ## The tests (R782) -/

/-- Whether a test runs in slices. -/
def sliced (t : Nat) : Bool := decide (1 ≤ t ∧ t ≤ 0x13)

/-- The slices of a pass. -/
def slicesOf (t : Nat) : Nat :=
  if t ≤ 8 then 9000 else if t = 9 then 24000 else if t = 0x0A then 131072 else if t = 0x0B then 8388608 else 4096

/-- The length of a slice in ns; 0 for the spare words of link frames. -/
def sliceNs (t : Nat) : Nat := if t ≤ 8 then 40000 else if t = 9 then 2000 else if t = 0x0A then 500 else if t = 0x0B then 1000 else 0

/-- The pass target in s; none for the reference check, whose passes are the rotation's rounds (log entry 78). -/
def passTarget (t : Nat) : Option Nat :=
  if t = 0 ∨ t = 0x14 ∨ 0x16 < t then none
  else some (if t ≤ 8 then 3600 else if t = 9 then 600 else if t = 0x0A then 3600 else if t = 0x0B then 86400 else if t = 0x16 then 1 else 600)

/-- Whether the action on FAILED is FATAL. -/
def fatalTest (t : Nat) : Bool := decide (1 ≤ t ∧ t ≤ 9) || decide (0x0C ≤ t ∧ t ≤ 0x13) || t == 0x16

/-- The island that a test runs on. -/
def testIsland (t : Nat) : Nat := if t ≤ 8 then t - 1 else if t = 9 then 0x08 else if t = 0x0A then 0x17 else if t = 0x0B then 0x16 else cgIsland (t - 0x0C)

/-! ## Grants (R784 to R786) -/

/-- The last boundary of a core's tasks, and the next one. -/
def State.coreBoundaries (s : State) (n : Nat) : Nat × Option Nat :=
  let rs := (s.chip.cyc.tasks.filter fun p => s.tCore p.1 == n).map Prod.snd
  (rs.foldl (fun m r => Nat.max m r.last) 0, rs.foldl (fun m r => some (match m with | some x => Nat.min x r.next | none => r.next)) none)

/-- What a test's allowance counts from, and what has been used of it. -/
def SelfTest.used (t : SelfTest) (island start : Nat) : Nat :=
  match t.spent.find? fun p => p.1 == island && p.2.1 == start with
  | some p => p.2.2
  | none => 0

/-- Charges a slice to its island. -/
def SelfTest.charge (t : SelfTest) (island start us : Nat) : SelfTest :=
  { t with spent := (island, start, t.used island start + us) :: t.spent.filter fun p => p.1 != island }

/-- In SAFE-HOLD, PROGRAM and SERVICE an island takes slices for up to half of its time: the last slice has been followed by as long a
pause. -/
def SelfTest.halfFree (t : SelfTest) (island ns now : Nat) : Bool :=
  match t.spent.find? fun p => p.1 == island with
  | some p => decide (p.2.1 + 2 * ns ≤ now)
  | none => true

/-- Whether a slice may run now, and what it is charged to. -/
def State.sliceGrant (s : State) (t : Nat) : Option Nat :=
  let c := s.chip
  let i := testIsland t
  let m := c.mode
  let ns := sliceNs t
  if !sliced t || !c.flag MG_STCFG_ENABLE || m == 0 || m == 1 || !c.islandOn i || c.test.granted.contains t then none
  else if t = 0x0A ∧ c.pool.free = 0 then none
  else if runs m then
    if t ≤ 8 then
      let (last, next) := s.coreBoundaries i
      let fits := match next with
        | some b => decide (c.mono + ns + 5000 ≤ b)
        | none => true
      if c.flag (MG_DISP_IDLE i) && fits && decide (c.test.used i last + 40 ≤ c.fld MG_STCFG_BUDGET) then some last else none
    else if t = 9 then
      match c.loop.epoch with
      | none => if c.test.halfFree i ns c.mono then some c.mono else none
      | some e =>
        let next := frameStart e (c.counter LE_FRAME_LO)
        if c.loop.due.isEmpty && decide (c.mono + 3000 ≤ next) && c.test.used i next == 0 then some next else none
    else some c.mono
  else
    let idle := if t ≤ 8 then c.flag (MG_DISP_IDLE i) else if t = 9 then c.loop.due.isEmpty else true
    if idle && c.test.halfFree i ns c.mono then some c.mono else none

/-- SLICE (R784 to R786). -/
def State.slice (s : State) (t : Nat) : State :=
  match s.sliceGrant t with
  | none => s
  | some start => s.onChip fun c =>
    (c.bump MG_STSLICES_LO 1).onTest fun x => { x.charge (testIsland t) start (Nat.max 1 (sliceNs t / 1000)) with granted := t :: x.granted }

/-! ## Results (R787 to R789, R792) -/

/-- A test has FAILED: its bit, its event, its action. -/
def Chip.failTest (c : Chip) (t slice sig : Nat) : Chip :=
  let c := c.testFailed t slice sig
  if fatalTest t then c.fatalRequest.onTest fun x => { x with failAt := some (x.failAt.getD c.mono) }
  else if t = 0x0A then { c with pool := { c.pool with retired := c.pool.retired + 1 } }
  else c

/-- A completed pass clears MG_STSTARVE. -/
def Chip.passDone (c : Chip) (t : Nat) : Chip :=
  let c := c.onTest fun x => { x with done := assocSet x.done t 0, passAt := assocSet x.passAt t c.mono }
  (c.setReg MG_STSTARVE (c.reg MG_STSTARVE &&& ~~~BitVec.ofNat 32 (2 ^ t))).showTests

/-- Lines of DRAM that the scrub found uncorrectable. -/
def Chip.markLines (c : Chip) (lines : List Nat) : Chip :=
  if lines.isEmpty then c else { c.evidence with badMem := c.badMem ++ lines.filter fun l => !c.badMem.contains l }

/-- SLICE_RESULT (R788): the signature of a slice; of a scrub slice also the lines it marked. -/
def Chip.sliceResult (c : Chip) (t sig : Nat) (lines : List Nat) : Chip :=
  if !c.test.granted.contains t then c
  else
    let n := (assocGet c.test.done t).getD 0
    let again := c.test.again.contains t
    let c := c.onTest fun x => { x with granted := x.granted.filter (· != t), again := x.again.filter (· != t) }
    let c := if t = 0x0B then c.markLines (lines.map fun l => n * 64 + l) else c
    if sig = (Config.sliceSignature t n).toNat then
      if slicesOf t ≤ n + 1 then c.passDone t else c.onTest fun x => { x with done := assocSet x.done t (n + 1) }
    else if again then c.failTest t n sig
    else
      (((c.bump MG_STTRANS_LO 1).raise 0x1501 3 0x15 (toBytes 4 t ++ toBytes 4 n ++ toBytes 4 sig)).countEvidence).onTest fun x =>
        { x with again := t :: x.again }

/-- TEST_STARVED (R787). -/
def Chip.testStarved (c : Chip) (t : Nat) : Chip :=
  match passTarget t with
  | none => c
  | some sec =>
    let from_ := (assocGet c.test.passAt t).getD 0
    if (c.reg MG_STSTARVE).getLsbD t || decide (c.mono < from_ + sec * 1000000000) then c
    else ((c.setReg MG_STSTARVE (c.reg MG_STSTARVE ||| BitVec.ofNat 32 (2 ^ t))).raise 0x1503 3 0x15 (toBytes 1 t)).showTests

/-- SELF_TEST_RESET (R789): the transition to SAFE-HOLD has completed or failed, and 10 ms have passed. -/
def State.selfTestReset (s : State) : State :=
  let c := s.chip
  match c.test.failAt with
  | none => s
  | some t =>
    if c.ctl.fatal || c.ctl.trans.isSome || decide (c.mono < t + 10000000) || decide (c.mono < c.ctl.doneAt + 10000000) then s
    else s.systemReset 5

/-! ## Hold-up health (R793 to R796) -/

/-- A flag of PW_HUHEALTH with its event when it becomes set. -/
def Chip.healthFlag (c : Chip) (f : Fld) (code sev why : Nat) : Chip :=
  let was := c.flag f
  let c := c.setFlag f (why != 0)
  if why ≠ 0 ∧ !was then c.raise code sev 0x15 (toBytes 1 why) else c

/-- HOLDUP_MEASUREMENT: ESR and C in 0.1 % of their factory values. -/
def Chip.holdupMeasured (c : Chip) (esr cap : Nat) : Chip :=
  let early := match c.test.huAt with
    | some t => decide (c.mono < t + 600000000000)
    | none => false
  if c.flag PW_HOLDUP_CHARGING || c.power.failAt.isSome || early then c
  else
    let c := (c.setFlds [(PW_HUHEALTH_MEASURED, 1), (PW_HUHEALTH_ESR, esr), (PW_HUHEALTH_CAP, cap)]).onTest fun x =>
      { x with huAt := some c.mono, cap := some cap }
    let c := c.healthFlag PW_HUHEALTH_WARN 0x1E0A 3 (b2n (decide (cap < 800)) + 2 * b2n (decide (2000 < esr)))
    (c.healthFlag PW_HUHEALTH_ALARM 0x1E0B 5 (b2n (decide (cap < 600)) + 2 * b2n (decide (4000 < esr)))).passDone 0x15

/-! ## Crack loops (R797) -/

/-- The loop of a group is cracked. -/
def Chip.substrateCrack (c : Chip) (g : Nat) : Chip :=
  let f : Fld := ⟨MG_CRACK, g, g⟩
  if c.flag f then c else (c.setFlag f true).raise 0x1C15 5 0x15 (toBytes 1 g)

/-- CRACK_LOOP_CHECK: the loops found cracked. -/
def Chip.crackCheck (c : Chip) (die : Bool) (groups : Nat) : Chip :=
  let early := match c.test.crackAt with
    | some t => decide (c.mono < t + 1000000000)
    | none => false
  if early then c
  else
    let c := c.onTest fun x => { x with crackAt := some c.mono }
    let c := ((List.range 8).filter fun g => bitAt groups g).foldl Chip.substrateCrack c
    if !die then c.passDone 0x16
    else if c.test.failAt.isSome then c.setFlag MG_CRACK_DIE true
    else (c.setFlag MG_CRACK_DIE true).failTest 0x16 0 0

/-! ## The Mouthpiece (R802 to R809) -/

/-- Changes the port. -/
def Chip.onMouth (c : Chip) (f : Mouth → Mouth) : Chip := { c with mouth := f c.mouth }

/-- The link of the port among those that `sent` records. -/
def linkIr : Nat := 30

/-- The duration of a frame at 57.6 kbit/s, in ns. -/
def irNs (f : List Byte) : Nat := f.length * 8 * 1000000000 / 57600

/-- A response whose instant has come has started; until it ends the port, which is half duplex, receives nothing (R802, R805). -/
def Chip.irStart (c : Chip) : Chip :=
  match c.mouth.reply with
  | none => c
  | some (t, r) => if c.mono < t then c else (c.send linkIr r).onMouth fun x => { x with reply := none, sendTo := t + irNs r }

/-- IR_BLIND (R803, R805): the current exceeds the threshold while the port is receiving; a new saturation restarts the count. -/
def Chip.irBlind (c : Chip) : Chip :=
  let c := c.irStart
  if c.mono < c.mouth.sendTo && !c.flag MG_IRSTAT_BLIND then c
  else
    let c := c.onMouth fun x => { x with satAt := some c.mono, reply := none }
    if c.flag MG_IRSTAT_BLIND then c
    else ((c.setFlag MG_IRSTAT_BLIND true).bump MG_IRBLIND_LO 1).raise 0x1901 1 0x15 []

/-- The re-arm time on A1 in ns (E-A1-08). -/
def Chip.rearmNs (c : Chip) : Nat := if signed 11 (c.fld PW_THERM_TEMP) < -120 then 20000000 else 5000000

/-- IR_REARM (R803). -/
def Chip.irRearm (c : Chip) : Chip :=
  match c.mouth.satAt with
  | none => c
  | some t =>
    if !c.flag MG_IRSTAT_BLIND || decide (c.mono < t + c.rearmNs) then c
    else (c.setFlag MG_IRSTAT_BLIND false).onMouth fun x => { x with satAt := some c.mono }

/-- One bit of the CRC-16 of R804. -/
def crc16Bit (x : Nat) : Nat := if 0x8000 ≤ x then (x * 2 % 65536) ^^^ 0x1021 else x * 2

/-- CRC-16, polynomial 0x1021. -/
def crc16 : Nat → List Byte → Nat
  | x, [] => x
  | x, b :: bs => crc16 (Nat.repeat crc16Bit 8 (x ^^^ (b.toNat * 256))) bs

/-- A frame from its CTL, and its payload (R804). -/
def irFrame (ctl : Nat) (payload : List Byte) : List Byte :=
  let body := toBytes 1 ctl ++ toBytes 1 payload.length ++ payload
  toBytes 2 0xA55A ++ body ++ toBytes 2 (crc16 0xFFFF body)

/-- Fields of a frame. -/
def irCtl (f : List Byte) : Nat := bytesAt f 2 1
def irService (f : List Byte) : Nat := irCtl f % 64
def irSeq (f : List Byte) : Nat := bitsOf (irCtl f) 6 6
def irPayload (f : List Byte) : List Byte := cut f 4 (bytesAt f 3 1)

/-- The payload bytes of a service's request. -/
def irNeeds (service : Nat) : Option Nat :=
  match service with
  | 1 => some 0
  | 2 => some 8
  | 3 => some 2
  | 4 => some 4
  | _ => none

/-- A good request: SYNC, a request's CTL, LEN, CRC, and the payload of its service. -/
def irGood (f : List Byte) : Bool :=
  let len := bytesAt f 3 1
  bytesAt f 0 2 == 0xA55A && !bitAt (irCtl f) 7 && decide (len ≤ 128) && f.length == 6 + len &&
    bytesAt f (4 + len) 2 == crc16 0xFFFF (cut f 2 (2 + len)) && (match irNeeds (irService f) with
      | some n => len == n
      | none => true)

/-- Whether the port receives a frame that ends now: it has not been blind nor sending since the frame's start. -/
def Chip.irHears (c : Chip) (f : List Byte) : Bool :=
  decide (c.irStart.mouth.sendTo + irNs f ≤ c.mono) && !c.flag MG_IRSTAT_BLIND && match c.mouth.satAt with
    | some t => decide (t + irNs f ≤ c.mono)
    | none => true

/-- A request that ends now: one that is good and has one of the service codes is executed and its response starts 1 ms later; a repetition of the last
one gets the stored response (R805, R807). -/
def State.irRequest (s : State) (f : List Byte) (codes : Nat → Bool) (answer : List Byte → State → List Byte × State) : State :=
  if !codes (irService f) || !irGood f || !s.chip.irHears f then s
  else
    let s := s.onChip fun c => c.irStart.onMouth fun x => { x with goodAt := some c.mono }
    let service := irService f
    let due := s.chip.mono + 1000000
    let stored := s.chip.mouth.last.filter fun p => p.1 == irSeq f && p.2.1 == service
    match stored with
    | some p => s.onChip fun c => c.onMouth fun x => { x with reply := some (due, p.2.2) }
    | none =>
      let (body, s) := answer (irPayload f) s
      let code := if (irNeeds service).isSome then service else 0x3F
      let r := irFrame (128 + irSeq f * 64 + code) body
      s.onChip fun c => c.onMouth fun x => { x with reply := some (due, r), last := some (irSeq f, service, r) }

/-- The registers of STATUS in order. -/
def statusRegs : List Nat :=
  [MG_MODE, MG_KEYSW, MG_REDSTAT, TP_STAT, TP_CFGHASH 0, PW_THERM, PW_HOLDUP, MG_STSTAT, MG_BOOTSTAT, TS_STAT, MG_ALMSTAT] ++
    (List.range 8).map fun g => CG_FPSTAT g

/-- A status word of an island that answers; of one that does not, a free value. -/
def State.statusWord (s : State) (k : Nat) : List Byte × State :=
  if s.chip.islandOn (islandOf k) then (toBytes 4 (s.wordAt 0x15 k).toNat, s)
  else
    let (v, c) := s.chip.free 32
    (toBytes 4 v, { s with chip := c })

/-- STATUS: 19 words. -/
def State.statusWords (s : State) : List Nat → List Byte × State
  | [] => ([], s)
  | k :: ks =>
    let (b, s) := s.statusWord k
    let (bs, s) := s.statusWords ks
    (b ++ bs, s)

/-- RECREAD: up to 2 records, selected as under R726. -/
def Chip.irRecords (c : Chip) (p : List Byte) : List Byte :=
  ((c.recorder.select (bytesAt p 4 4) (bytesAt p 0 4) 2).map EvRec.bytes).flatten

/-- An entry of ALMLIST. -/
def Alarm.entry (a : Alarm) : List Byte :=
  toBytes 4 a.rec_.seq ++ toBytes 2 a.rec_.code ++ toBytes 1 a.rec_.sev ++ toBytes 1 (b2n a.acked) ++ toBytes 8 a.rec_.last

/-- ALMLIST: up to 8 entries from an index on, oldest first. -/
def Chip.irAlarms (c : Chip) (p : List Byte) : List Byte :=
  (((c.recorder.alarms.drop (bytesAt p 0 2)).take 8).map Alarm.entry).flatten

/-- ALMACK: its outcome in one byte. -/
def State.irAck (s : State) (p : List Byte) : List Byte × State :=
  let (r, c) := s.chip.ackAlarm (bytesAt p 0 4) 0
  (toBytes 1 r, { s with chip := c })

/-! ## Commands -/

/-- SLICE (R784 to R786). -/
def execSlice (test : Fin 32) (m : State) : Out := .next (m.slice test.val)

/-- SLICE_RESULT (R788). -/
def execSliceResult (test : Fin 32) (signature : Word) (lines : List (Fin 64)) (m : State) : Out :=
  .next (m.onChip fun c => c.sliceResult test.val signature.toNat (lines.map Fin.val))

/-- TEST_STARVED (R787). -/
def execTestStarved (test : Fin 32) (m : State) : Out := .next (m.onChip fun c => c.testStarved test.val)

/-- SELF_TEST_RESET (R789). -/
def execSelfTestReset (m : State) : Out := .next m.selfTestReset

/-- LOCKSTEP_MISMATCH (R783). -/
def execLockstepMismatch (m : State) : Out := .next (m.systemReset 5)

/-- HOLDUP_MEASUREMENT (R793, R795, R796). -/
def execHoldupMeasurement (esr cap : BitVec 13) (m : State) : Out := .next (m.onChip fun c => c.holdupMeasured esr.toNat cap.toNat)

/-- CRACK_LOOP_CHECK (R797). -/
def execCrackLoopCheck (die : Bool) (groups : BitVec 8) (m : State) : Out := .next (m.onChip fun c => c.crackCheck die groups.toNat)

/-- IR_BLIND (R803). -/
def execIrBlind (m : State) : Out := .next (m.onChip Chip.irBlind)

/-- IR_REARM (R803). -/
def execIrRearm (m : State) : Out := .next (m.onChip Chip.irRearm)

/-- STATUS (R807). -/
def execStatus (frame : List Byte) (m : State) : Out := .next (m.irRequest frame (· == 1) fun _ s => s.statusWords statusRegs)

/-- RECREAD (R807). -/
def execRecread (frame : List Byte) (m : State) : Out := .next (m.irRequest frame (· == 2) fun p s => (s.chip.irRecords p, s))

/-- ALMLIST (R807). -/
def execAlmlist (frame : List Byte) (m : State) : Out := .next (m.irRequest frame (· == 3) fun p s => (s.chip.irAlarms p, s))

/-- ALMACK (R809). -/
def execAlmack (frame : List Byte) (m : State) : Out := .next (m.irRequest frame (· == 4) fun p s => s.irAck p)

/-- UNKNOWN_SERVICE (R807). -/
def execUnknownService (frame : List Byte) (m : State) : Out :=
  .next (m.irRequest frame (fun k => (irNeeds k).isNone) fun _ s => ([], s))

end Sys2Proof.Machine
end

