-- ==== Sys2Proof/Machine/Switch.lean ====
section
/-!
DEFINITION. What a packet does when its tail has arrived at a port of the switch (R538 to R546, R554, R560, R609).
-/

namespace Sys2Proof.Machine

/-- A good packet for this module takes effect (R542, R554). -/
def State.deliver (s : State) (p : Nat) (direct : Bool) (pkt : Packet) (ago : Nat) : State :=
  match pkt.kind with
  | 1 => s.request pkt
  | 2 => if s.chip.accepts pkt.src then s.response pkt else s
  | 3 => s.execReq pkt fun s => s.opPost pkt
  | 4 => s.join p direct pkt
  | 5 => if s.chip.accepts pkt.src then s.onChip fun c => c.notice pkt else s
  | 6 => s.onChip fun c => c.timePacket p pkt ago
  | _ => s

/-- A good packet in link order: seen by the capture units, passed on, and delivered where it is for this module. -/
def State.goodTail (s : State) (p : Nat) (direct : Bool) (pkt : Packet) (ago : Nat) : State :=
  let s1 := s.onChip fun c => c.capture p pkt.src (c.mono - ago)
  if !s1.chip.carries pkt.kind p then s1
  else if pkt.dst = 4095 then
    let (seen, c) := s1.chip.floodSeen pkt
    if !mayFlood pkt.kind then s1
    else if seen then (if pkt.kind = pkTime then s1.onChip fun c => c.timePacket p pkt ago else s1)
    else (({ s1 with chip := c }).forward p pkt true).deliver p direct pkt ago
  else
    let s2 := s1.forward p pkt true
    if s2.chip.forMe pkt then s2.deliver p direct pkt ago else s2

/-- The acknowledgement a packet carries: the neighbour has everything up to it (R545). -/
def Chip.acked (c : Chip) (p ack : Nat) : Chip :=
  c.onPort p fun x =>
    let rest := x.unacked.filter fun u => decide (ack < u.num)
    { x with unacked := rest
             fails := if rest.length < x.unacked.length then 0 else x.fails
             nackAt := if rest.length < x.unacked.length then none else x.nackAt }

/-- Counts a packet accepted in link order (R545). -/
def Chip.tookPacket (c : Chip) (p : Nat) (pkt : Packet) : Chip :=
  if pkt.kind = pkNotice then c else c.onPort p fun x => { x with accNum := x.accNum + 1 }

/-- PACKET_TAIL (R541, R542, R545, R546). -/
def State.packetTail (s : State) (p : Nat) (direct : Bool) (pkt : Packet) (num ack : Nat) (tail : TailEnd) (ago : Nat) : State :=
  let c := s.chip
  if !c.flag (FX_PORTSTAT_UP p) then s
  else match tail with
    | .damaged => s.onChip fun c =>
        ((c.bump FX_KILLED_LO 1).endStreams p true).send p (toBytes 4 (c.port p).accNum)
    | .killed =>
      if pkt.kind ≠ pkNotice ∧ num ≠ (c.port p).accNum + 1 then s
      else s.onChip fun c => ((c.bump FX_KILLED_LO 1).endStreams p true).tookPacket p pkt
    | .good =>
      let s1 := s.onChip fun c => (c.acked p ack).endStreams p false
      if pkt.kind ≠ pkNotice ∧ num ≠ (c.port p).accNum + 1 then s1
      else (s1.onChip fun c => c.tookPacket p pkt).goodTail p direct pkt ago

/-- PACKET_TAIL (R542). -/
def execPacketTail (port : Port) (direct : Bool) (pkt : Packet) (linkSeq ack : Nat) (tail : TailEnd) (ago : BitVec 32) (m : State) : Out :=
  .next (m.clocked 0x12 fun s => s.packetTail port.val direct pkt linkSeq ack tail ago.toNat)

end Sys2Proof.Machine
end

