-- ==== Sys2Proof/Machine/System.lean ====
section
/-!
DEFINITION. The system group and RETFB, and what happens at a core without an instruction: its release, an interrupt, a store that
retires, the BUSERR of a store that failed (R142, R143, R169, R180, R190 to R197, R211 to R219, R851).
-/

namespace Sys2Proof.Machine

/-! ## Waiting for stores (R68, R190, R191, R211) -/

/-- Whether FX still holds a store of a core's fabric window whose response has not come (R578). -/
def Chip.windowStores (c : Chip) (n : Core) : Bool :=
  let r := windowRing n
  !(c.pool.ring r).queue.isEmpty || (c.pool.held.any fun h => h.ring == r) ||
    c.fab.trans.any fun t => match t.win with
      | some (i, _, _, load) => i == n.val && !load
      | none => false

/-- One round of waiting: the buffer drains as far as it can, and the writes under way take effect. -/
def State.settleOnce (s : State) (n : Core) : State := (s.drain n).landAll n.val

/-- Waits until every earlier store of a core has taken effect, and then does `body`; a BUSERR of an earlier store comes first (R211). Where a path has no
room, or FX has no response yet, the instruction goes on waiting. -/
def State.synced (s : State) (n : Core) (body : State → State) : State :=
  match s.raiseFailed n with
  | some s1 => s1
  | none =>
    let s1 := (s.settleOnce n).settleOnce n
    if (s1.core n).run != .running then s1
    else match s1.raiseFailed n with
      | some s2 => s2
      | none => if !(s1.core n).sb.isEmpty || s1.chip.windowStores n then s1 else body s1

/-- Once every earlier write of a core has taken effect, waits for the acknowledgements, which then have returned (R68): one that finds no room in its
ring keeps the instruction waiting (R74). -/
def State.fenced (s : State) (n : Core) (body : State → State) : State :=
  s.synced n fun s => if s.chip.ackHeld n.val then s else body (s.onChip fun c => c.dropAcks n.val)

/-! ## The system group -/

/-- An instruction of the system group (R150, R219): `operand` is 0 except for SVC and BRK. -/
def State.sysInstr (m : State) (n : Core) (operand : BitVec 20) (sub : Nat) (legal : Bool) (body : State → State) : State :=
  m.instr n (formD 0x29 operand sub) 4 legal body

/-- DSYNC (R190). -/
def execDsync (n : Core) (operand : BitVec 20) (m : State) : Out :=
  .next (m.sysInstr n operand 0x02 (operand == 0#20) fun m => m.synced n fun m => m.onCore n fun c => c.adv 4)

/-- FENCE (R68, R191). -/
def execFence (n : Core) (operand : BitVec 20) (m : State) : Out :=
  .next (m.sysInstr n operand 0x03 (operand == 0#20) fun m => m.fenced n fun m => m.onCore n fun c => c.adv 4)

/-- ISYNC (R192): fetch then sees every store to code made before it (R194, R196). -/
def execIsync (n : Core) (operand : BitVec 20) (m : State) : Out :=
  .next (m.sysInstr n operand 0x01 (operand == 0#20) fun m => m.synced n fun m =>
    m.onCore n fun c => { c with codeWr := [] }.adv 4)

/-- CYEND (R180): ILLEGAL at level X; at level T it waits as FENCE does and raises CYEND. -/
def execCyend (n : Core) (operand : BitVec 20) (m : State) : Out :=
  .next (m.sysInstr n operand 0x00 (operand == 0#20 && !(m.core n).isX) fun m => m.fenced n fun m =>
    m.onCore n fun c => c.enter excCyend false false (c.pc + 4#32) 0#32)

/-- SVC (R212): the exception with the next instruction in EPC and the operand in EADDR. -/
def execSvc (n : Core) (operand : BitVec 20) (m : State) : Out :=
  .next (m.sysInstr n operand 0x05 true fun m =>
    m.onCore n fun c => c.enter excSvc false false (c.pc + 4#32) (operand.setWidth 32))

/-- BRK (R212): the exception with this instruction in EPC and the operand in EADDR. -/
def execBrk (n : Core) (operand : BitVec 20) (m : State) : Out :=
  .next (m.sysInstr n operand 0x06 true fun m => m.exc n excBrk (operand.setWidth 32))

/-- ERET (R217): PRIV at level T. -/
def execEret (n : Core) (operand : BitVec 20) (m : State) : Out :=
  .next (m.sysInstr n operand 0x07 (operand == 0#20) fun m =>
    if (m.core n).isX then m.onCore n CoreSt.leave else m.exc n excPriv 0#32)

/-- The frame of a RETFB at its two addresses (R169), read one word after the other; a frame in the fabric window is one READ of 8 bytes
(log entry 81). -/
def State.popFrame (m : State) (n : Core) (a : Word) (p q : Place) : State :=
  match p, q with
  | .fabric _, _ => m.loadFabric n a 8 .frame 0
  | _, _ =>
    match m.obtain n p 4 with
    | (.data lo, m1) =>
      match m1.obtain n q 4 with
      | (.data hi, m2) => m2.endLoad n a 8 .frame 0 (.data (lo + hi * 2 ^ 32))
      | (g, m2) => m2.endLoad n (a + 4#32) 4 .frame 0 g
    | (g, m1) => m1.endLoad n a 4 .frame 0 g

/-- RETFB (R169): the checks in their order, all or nothing. -/
def execRetfb (n : Core) (operand : BitVec 20) (m : State) : Out :=
  .next (m.sysInstr n operand 0x04 (operand == 0#20) fun m =>
    let c := m.core n
    let a := c.rw 31
    if a.toNat % 8 ≠ 0 then m.exc n excAlign a
    else if (c.rw 30).toNat % 4 ≠ 0 then m.exc n excAlign (c.rw 30)
    else match m.map n .read a.toNat 4, m.map n .read (a + 4#32).toNat 4 with
      | .at p, .at q => m.popFrame n a p q
      | p, q => m.accessExc n (p.worse q) (if p.worse q = p then a else a + 4#32))

/-! ## Events of a core -/

/-- CORE_RELEASE (R143): a core that is held starts at the entry address of the verified runtime image, at level X with IE = 0; there is
none in RECOVERY. -/
def execCoreRelease (n : Core) (m : State) : Out :=
  .next (if (m.core n).run == .held && !m.chip.sec.image.isEmpty && m.chip.islandOn n.val then
      m.onCore n fun c => { c with
        run := .running, pc := m.chip.entry &&& 0xFFFFFFFC#32, cstatus := (c.cstatus &&& 0x1D#32) ||| 1#32, start := m.chip.now }
    else m)

/-- Takes an interrupt: it is no longer pending (R214, R216). -/
def State.takeIrq (m : State) (n : Core) (code : Nat) : State :=
  (m.onChip fun c =>
    if code = 0 then { c with dispatchIrq := c.dispatchIrq.erase n.val } else { c with doorbellIrq := c.doorbellIrq.erase n.val }).onCore n
    fun c => c.enter code true false c.pc 0#32

/-- INTERRUPT_ENTRY (R214, R215): at an instruction boundary, at level T or while IE = 1, DISPATCH before DOORBELL; an
exception of a failed store comes first. -/
def execInterruptEntry (n : Core) (m : State) : Out :=
  .next (
    let c := m.core n
    if c.run != .running || c.wait.isSome || !m.chip.islandOn n.val || (c.isX && !c.ie) || m.chip.impErrs.any (fun e => e.1 == n.val) then m
    else if m.chip.dispatchIrq.contains n.val then m.takeIrq n 0
    else if m.chip.doorbellIrq.contains n.val then m.takeIrq n 1
    else m)

/-- STORE_RETIRE (R851): the head entry of the store buffer retires where its path accepts it; a stopped clock retires nothing (R100). -/
def execStoreRetire (n : Core) (m : State) : Out :=
  .next (if m.chip.islandOn n.val then (m.retireHead n).2 else m)

/-- IMPRECISE_BUSERR (R211): a store that failed after leaving the buffer raises BUSERR before the next instruction; while a core waits for a load's response,
it comes with that response, before the load completes. -/
def execImpreciseBuserr (n : Core) (m : State) : Out :=
  .next (if (m.core n).run != .running || (m.core n).wait.isSome || !m.chip.islandOn n.val then m else (m.raiseFailed n).getD m)

end Sys2Proof.Machine
end

