-- ==== Sys2Proof/Machine/Words.lean ====
section
/-!
DEFINITION. The words of the instruction set: which first words are legal, and the instruction that the words at an address spell (R149 to R153, R219).
-/

namespace Sys2Proof.Machine

/-! ## Fields (R150, R151) -/

/-- A register field at a bit of a word. -/
def regField (w : Word) (lo : Nat) : RegN := Fin.ofNat 32 (w.toNat / 2 ^ lo)

/-- Bits 31:26, the major opcode. -/
def opOf (w : Word) : Nat := bitsOf w.toNat 31 26

/-- The S bit of form A. -/
def sOf (w : Word) : Bool := w.getLsbD 10

/-- Bits 9:6 of form A. -/
def xOf (w : Word) : BitVec 4 := BitVec.ofNat 4 (bitsOf w.toNat 9 6)

/-- The immediate of form B. -/
def immOf (w : Word) : BitVec 16 := BitVec.ofNat 16 w.toNat

/-! ## The tables of codes (R153, R154, R157 to R159, R173, R181, R188, R219) -/

/-- An instruction of form A. -/
abbrev MakeA := Core → RegN → RegN → RegN → Bool → BitVec 4 → Instr

/-- An instruction of form B. -/
abbrev MakeB := Core → RegN → RegN → BitVec 16 → Instr

/-- An instruction of form D. -/
abbrev MakeD := Core → BitVec 20 → Instr

/-- An instruction of form L. -/
abbrev MakeL := Core → RegN → RegN → BitVec 10 → Word → Instr

/-- The ALU group by fn bits 5:0 (R154). -/
def aluOp (fn : Nat) : Option MakeA :=
  match fn with
  | 0x00 => some .add
  | 0x01 => some .sub
  | 0x02 => some .adc
  | 0x03 => some .sbc
  | 0x04 => some .and
  | 0x05 => some .or
  | 0x06 => some .xor
  | 0x07 => some .andn
  | 0x08 => some .shl
  | 0x09 => some .shr
  | 0x0A => some .sar
  | 0x0B => some .ror
  | 0x0C => some .mul
  | 0x0D => some .mulhs
  | 0x0E => some .mulhu
  | 0x10 => some .div
  | 0x11 => some .divu
  | 0x12 => some .rem
  | 0x13 => some .remu
  | 0x14 => some .min
  | 0x15 => some .max
  | 0x16 => some .minu
  | 0x17 => some .maxu
  | 0x18 => some .clz
  | 0x19 => some .sextb
  | 0x1A => some .sexth
  | 0x1B => some .csel
  | 0x1C => some .mff
  | 0x1D => some .mtf
  | _ => none

/-- The indexed and atomic memory group by fn bits 5:0 (R159). -/
def memOp (fn : Nat) : Option MakeA :=
  match fn with
  | 0x00 => some .lwx
  | 0x01 => some .swx
  | 0x02 => some .casw
  | 0x03 => some .swapw
  | _ => none

/-- TMR by fn bits 5:0 (R173). -/
def tmrOp (fn : Nat) : Option MakeA :=
  match fn with
  | 0x00 => some .tstart
  | 0x01 => some .tstop
  | 0x02 => some .tread
  | 0x03 => some .tdone
  | _ => none

/-- The FPU group by fn bits 5:0 (R181). -/
def fpuOp (fn : Nat) : Option MakeA :=
  match fn with
  | 0x00 => some .fadd
  | 0x01 => some .fsub
  | 0x02 => some .fmul
  | 0x03 => some .fdiv
  | 0x04 => some .fsqrt
  | 0x05 => some .fma
  | 0x06 => some .fmin
  | 0x07 => some .fmax
  | 0x08 => some .fabs
  | 0x09 => some .fneg
  | 0x0A => some .fcmp
  | 0x0C => some .fcvtF
  | 0x0D => some .fcvtFi
  | 0x0E => some .fcvtFu
  | 0x0F => some .fcvtIf
  | 0x10 => some .fcvtUf
  | 0x11 => some .fmvFw
  | 0x12 => some .fmvWf
  | 0x13 => some .fmvWfh
  | 0x14 => some .fmvFwh
  | _ => none

/-- The groups of form A by major opcode (R153). -/
def groupA (op fn : Nat) : Option MakeA :=
  match op with
  | 0x01 => aluOp fn
  | 0x0A => memOp fn
  | 0x26 => tmrOp fn
  | 0x30 => fpuOp fn
  | _ => none

/-- The instructions of form B by major opcode (R153). -/
def formBOp (op : Nat) : Option MakeB :=
  match op with
  | 0x02 => some .addi
  | 0x03 => some .addis
  | 0x04 => some .cmpi
  | 0x05 => some .andi
  | 0x06 => some .ori
  | 0x07 => some .xori
  | 0x08 => some .shi
  | 0x09 => some .lui
  | 0x10 => some .lb
  | 0x11 => some .lbu
  | 0x12 => some .lh
  | 0x13 => some .lhu
  | 0x14 => some .lw
  | 0x15 => some .sb
  | 0x16 => some .sh
  | 0x17 => some .sw
  | 0x18 => some .flw
  | 0x19 => some .fld
  | 0x1A => some .fsw
  | 0x1B => some .fsd
  | 0x23 => some .jalr
  | 0x25 => some .edge
  | 0x27 => some .pil
  | 0x28 => some .pis
  | _ => none

/-- The system group by sub code (R219). -/
def sysOp (sub : Nat) : Option MakeD :=
  match sub with
  | 0x00 => some .cyend
  | 0x01 => some .isync
  | 0x02 => some .dsync
  | 0x03 => some .fence
  | 0x04 => some .retfb
  | 0x05 => some .svc
  | 0x06 => some .brk
  | 0x07 => some .eret
  | _ => none

/-- The long form by lop (R188). -/
def longOp (lop : Nat) : Option MakeL :=
  match lop with
  | 0x01 => some .li
  | 0x02 => some .addl
  | 0x03 => some .andl
  | 0x04 => some .orl
  | 0x05 => some .xorl
  | 0x06 => some .cmpl
  | 0x07 => some .lwl
  | 0x08 => some .swl
  | 0x09 => some .jl
  | 0x0A => some .callfbl
  | 0x0B => some .fli
  | _ => none

/-! ## Reserved fields (R151, R152 and the description of each instruction) -/

/-- Whether the fields that an instruction's description says are zero are so, and no field holds a reserved value; CYEND at level X (R180) is no matter of
its word. -/
def fieldsZero (i : Instr) : Bool :=
  match i with
  | .clz _ _ _ rb _ x | .sextb _ _ _ rb _ x | .sexth _ _ _ rb _ x => rb == 0 && x == 0#4
  | .csel _ _ _ _ st x => !st && x != 0xF#4
  | .mff _ _ ra rb st x => ra == 0 && rb == 0 && !st && x == 0#4
  | .mtf _ rd _ rb st x => rd == 0 && rb == 0 && !st && x == 0#4
  | .add _ _ _ _ _ x | .sub _ _ _ _ _ x | .adc _ _ _ _ _ x | .sbc _ _ _ _ _ x | .and _ _ _ _ _ x | .or _ _ _ _ _ x | .xor _ _ _ _ _ x
  | .andn _ _ _ _ _ x | .shl _ _ _ _ _ x | .shr _ _ _ _ _ x | .sar _ _ _ _ _ x | .ror _ _ _ _ _ x | .mul _ _ _ _ _ x | .mulhs _ _ _ _ _ x
  | .mulhu _ _ _ _ _ x | .div _ _ _ _ _ x | .divu _ _ _ _ _ x | .rem _ _ _ _ _ x | .remu _ _ _ _ _ x | .min _ _ _ _ _ x | .max _ _ _ _ _ x
  | .minu _ _ _ _ _ x | .maxu _ _ _ _ _ x | .fadd _ _ _ _ _ x | .fsub _ _ _ _ _ x | .fmul _ _ _ _ _ x | .fdiv _ _ _ _ _ x
  | .fma _ _ _ _ _ x | .fmin _ _ _ _ _ x | .fmax _ _ _ _ _ x | .fcvtF _ _ _ _ _ x | .fcvtFi _ _ _ _ _ x | .fcvtFu _ _ _ _ _ x => x == 0#4
  | .lwx _ _ _ _ st x | .swx _ _ _ _ st x | .casw _ _ _ _ st x | .swapw _ _ _ _ st x | .tstart _ _ _ _ st x | .tstop _ _ _ _ st x
  | .tread _ _ _ _ st x | .tdone _ _ _ _ st x | .fmvFw _ _ _ _ st x | .fmvWf _ _ _ _ st x | .fmvWfh _ _ _ _ st x | .fmvFwh _ _ _ _ st x =>
    !st && x == 0#4
  | .fsqrt _ _ _ rb _ x | .fabs _ _ _ rb _ x | .fneg _ _ _ rb _ x => rb == 0 && x == 0#4
  | .fcmp _ rd _ _ _ x => rd == 0 && x == 0#4
  | .fcvtIf _ _ _ rb _ x | .fcvtUf _ _ _ rb _ x => decide (rb.val < 2) && x == 0#4
  | .cmpi _ rd _ _ => rd == 0
  | .shi _ _ _ imm => decide (imm.toNat < 128)
  | .lui _ _ ra _ => ra == 0
  | .edge _ _ _ imm => bitsOf imm.toNat 15 14 != 3
  | .pil _ _ _ imm => decide (bitsOf imm.toNat 15 13 ≤ 5)
  | .pis _ _ _ imm => [0, 1, 3, 5].contains (bitsOf imm.toNat 15 13)
  | .bcc _ cond _ => cond != 0xF#4
  | .cyend _ o | .isync _ o | .dsync _ o | .fence _ o | .retfb _ o | .eret _ o => o == 0#20
  | .li _ _ ra z _ | .jl _ _ ra z _ | .callfbl _ _ ra z _ | .fli _ _ ra z _ => ra == 0 && z == 0#10
  | .cmpl _ rd _ z _ => rd == 0 && z == 0#10
  | .addl _ _ _ z _ | .andl _ _ _ z _ | .orl _ _ _ z _ | .xorl _ _ _ z _ | .lwl _ _ _ z _ | .swl _ _ _ z _ => z == 0#10
  | _ => true

/-! ## The instruction that words spell -/

/-- The instruction whose codes the first word `w` and, of a long form, the second word `i` hold; none where an opcode, fn, sub or lop code is reserved. -/
def codesOf (n : Core) (w i : Word) : Option Instr :=
  let op := opOf w
  let a := fun (f : MakeA) => f n (regField w 21) (regField w 16) (regField w 11) (sOf w) (xOf w)
  match op with
  | 0x20 => some (.bcc n (BitVec.ofNat 4 (bitsOf w.toNat 25 22)) (BitVec.ofNat 22 w.toNat))
  | 0x21 => some (.jmp n (BitVec.ofNat 26 w.toNat))
  | 0x22 => some (.call n (BitVec.ofNat 26 w.toNat))
  | 0x24 => some (.callfb n (regField w 21) (BitVec.ofNat 21 w.toNat))
  | 0x29 => (sysOp (bitsOf w.toNat 5 0)).map fun f => f n (BitVec.ofNat 20 (w.toNat / 64))
  | 0x3F => (longOp (bitsOf w.toNat 25 20)).map fun f => f n (regField w 15) (regField w 10) (BitVec.ofNat 10 w.toNat) i
  | _ => match formBOp op with
    | some f => some (f n (regField w 21) (regField w 16) (immOf w))
    | none => (groupA op (bitsOf w.toNat 5 0)).map a

/-- The instruction that the words at an address spell; none where the word is ILLEGAL (R152). -/
def instrOf (n : Core) (w i : Word) : Option Instr := (codesOf n w i).filter fieldsZero

/-- The length of what a first word begins (R149). A word with a reserved lop begins one word: no second word is fetched before ILLEGAL, a choice the spec
leaves open (log entry 99). -/
def lenOf (w : Word) : Nat := if opOf w == 0x3F && (longOp (bitsOf w.toNat 25 20)).isSome then 8 else 4

/-- A word with a reserved major opcode, fn, sub or lop code, a non-zero reserved field, or condition 0xF, raises ILLEGAL with no other effect (R152); a
word that spells an instruction is no such word, and nothing happens. -/
def execIllegalInstruction (n : Core) (word : Word) (m : State) : Out :=
  .next (if (instrOf n word 0#32).isSome then m else m.instr n word (lenOf word) false fun m => m)

end Sys2Proof.Machine
end

