-- ==== Sys2Proof/Machine/Dispatch.lean ====
section
/-!
DEFINITION. What each command does: one arm per command, one direct call of its meaning per arm.
-/

namespace Sys2Proof.Machine

/-- The effect of a command on everything but the queue. -/
def exec (i : Instr) (s : State) : Host.Outcome State Fault Refusal :=
  match i with
  | .registerWrite src size addr value => Sys2Proof.Machine.execRegisterWrite src size addr value s
  | .crossIslandWriteEffect src dst => Sys2Proof.Machine.execCrossIslandWriteEffect src dst s
  | .crossPlaneMessage src addr value => Sys2Proof.Machine.execCrossPlaneMessage src addr value s
  | .readResponse src size addr => Sys2Proof.Machine.execReadResponse src size addr s
  | .fenceAcknowledge src dst => Sys2Proof.Machine.execFenceAcknowledge src dst s
  | .publishMessage ring producer bytes ecc => Sys2Proof.Machine.execPublishMessage ring producer bytes ecc s
  | .bufferRelease ring ecc => Sys2Proof.Machine.execBufferRelease ring ecc s
  | .ringReservationWrite src value => Sys2Proof.Machine.execRingReservationWrite src value s
  | .ringMaximumWrite src value => Sys2Proof.Machine.execRingMaximumWrite src value s
  | .ringControlWrite src value => Sys2Proof.Machine.execRingControlWrite src value s
  | .modeRequest src value => Sys2Proof.Machine.execModeRequest src value s
  | .modeTransition => Sys2Proof.Machine.execModeTransition s
  | .transitionAcknowledge island => Sys2Proof.Machine.execTransitionAcknowledge island s
  | .transitionTimeout => Sys2Proof.Machine.execTransitionTimeout s
  | .actCheck actiLow => Sys2Proof.Machine.execActCheck actiLow s
  | .bootComplete => Sys2Proof.Machine.execBootComplete s
  | .keyContactChange contactA contactB => Sys2Proof.Machine.execKeyContactChange contactA contactB s
  | .keyPositionValid => Sys2Proof.Machine.execKeyPositionValid s
  | .keyFault => Sys2Proof.Machine.execKeyFault s
  | .keyChange => Sys2Proof.Machine.execKeyChange s
  | .logicInputsLow => Sys2Proof.Machine.execLogicInputsLow s
  | .logicInputRecover => Sys2Proof.Machine.execLogicInputRecover s
  | .powerFailure => Sys2Proof.Machine.execPowerFailure s
  | .powerRestored ago => Sys2Proof.Machine.execPowerRestored ago s
  | .flushProfileExecute => Sys2Proof.Machine.execFlushProfileExecute s
  | .flushArm src value => Sys2Proof.Machine.execFlushArm src value s
  | .flushDisarm src value => Sys2Proof.Machine.execFlushDisarm src value s
  | .powerStateRequest src value => Sys2Proof.Machine.execPowerStateRequest src value s
  | .islandReturnComplete island => Sys2Proof.Machine.execIslandReturnComplete island s
  | .autostartWrite src value => Sys2Proof.Machine.execAutostartWrite src value s
  | .configStore => Sys2Proof.Machine.execConfigStore s
  | .powerOnReset positions => Sys2Proof.Machine.execPowerOnReset positions s
  | .brownOut => Sys2Proof.Machine.execBrownOut s
  | .rstNAssert ns => Sys2Proof.Machine.execRstNAssert ns s
  | .hardwareWatchdog => Sys2Proof.Machine.execHardwareWatchdog s
  | .systemReset source => Sys2Proof.Machine.execSystemReset source s
  | .coreReset source => Sys2Proof.Machine.execCoreReset source s
  | .internalResetRise bootsel clksel image failing => Sys2Proof.Machine.execInternalResetRise bootsel clksel image failing s
  | .clockFallback => Sys2Proof.Machine.execClockFallback s
  | .pinRelease src value => Sys2Proof.Machine.execPinRelease src value s
  | .blockResetRequest src value => Sys2Proof.Machine.execBlockResetRequest src value s
  | .blockIdle => Sys2Proof.Machine.execBlockIdle s
  | .blockResetTimeout => Sys2Proof.Machine.execBlockResetTimeout s
  | .coreRelease core => Sys2Proof.Machine.execCoreRelease core s
  | .add core rd ra rb setf x => Sys2Proof.Machine.execAdd core rd ra rb setf x s
  | .sub core rd ra rb setf x => Sys2Proof.Machine.execSub core rd ra rb setf x s
  | .adc core rd ra rb setf x => Sys2Proof.Machine.execAdc core rd ra rb setf x s
  | .sbc core rd ra rb setf x => Sys2Proof.Machine.execSbc core rd ra rb setf x s
  | .and core rd ra rb setf x => Sys2Proof.Machine.execAnd core rd ra rb setf x s
  | .or core rd ra rb setf x => Sys2Proof.Machine.execOr core rd ra rb setf x s
  | .xor core rd ra rb setf x => Sys2Proof.Machine.execXor core rd ra rb setf x s
  | .andn core rd ra rb setf x => Sys2Proof.Machine.execAndn core rd ra rb setf x s
  | .shl core rd ra rb setf x => Sys2Proof.Machine.execShl core rd ra rb setf x s
  | .shr core rd ra rb setf x => Sys2Proof.Machine.execShr core rd ra rb setf x s
  | .sar core rd ra rb setf x => Sys2Proof.Machine.execSar core rd ra rb setf x s
  | .ror core rd ra rb setf x => Sys2Proof.Machine.execRor core rd ra rb setf x s
  | .mul core rd ra rb setf x => Sys2Proof.Machine.execMul core rd ra rb setf x s
  | .mulhs core rd ra rb setf x => Sys2Proof.Machine.execMulhs core rd ra rb setf x s
  | .mulhu core rd ra rb setf x => Sys2Proof.Machine.execMulhu core rd ra rb setf x s
  | .div core rd ra rb setf x => Sys2Proof.Machine.execDiv core rd ra rb setf x s
  | .divu core rd ra rb setf x => Sys2Proof.Machine.execDivu core rd ra rb setf x s
  | .rem core rd ra rb setf x => Sys2Proof.Machine.execRem core rd ra rb setf x s
  | .remu core rd ra rb setf x => Sys2Proof.Machine.execRemu core rd ra rb setf x s
  | .min core rd ra rb setf x => Sys2Proof.Machine.execMin core rd ra rb setf x s
  | .max core rd ra rb setf x => Sys2Proof.Machine.execMax core rd ra rb setf x s
  | .minu core rd ra rb setf x => Sys2Proof.Machine.execMinu core rd ra rb setf x s
  | .maxu core rd ra rb setf x => Sys2Proof.Machine.execMaxu core rd ra rb setf x s
  | .clz core rd ra rb setf x => Sys2Proof.Machine.execClz core rd ra rb setf x s
  | .sextb core rd ra rb setf x => Sys2Proof.Machine.execSextb core rd ra rb setf x s
  | .sexth core rd ra rb setf x => Sys2Proof.Machine.execSexth core rd ra rb setf x s
  | .csel core rd ra rb setf x => Sys2Proof.Machine.execCsel core rd ra rb setf x s
  | .mff core rd ra rb setf x => Sys2Proof.Machine.execMff core rd ra rb setf x s
  | .mtf core rd ra rb setf x => Sys2Proof.Machine.execMtf core rd ra rb setf x s
  | .addi core rd ra imm => Sys2Proof.Machine.execAddi core rd ra imm s
  | .addis core rd ra imm => Sys2Proof.Machine.execAddis core rd ra imm s
  | .cmpi core rd ra imm => Sys2Proof.Machine.execCmpi core rd ra imm s
  | .andi core rd ra imm => Sys2Proof.Machine.execAndi core rd ra imm s
  | .ori core rd ra imm => Sys2Proof.Machine.execOri core rd ra imm s
  | .xori core rd ra imm => Sys2Proof.Machine.execXori core rd ra imm s
  | .shi core rd ra imm => Sys2Proof.Machine.execShi core rd ra imm s
  | .lui core rd ra imm => Sys2Proof.Machine.execLui core rd ra imm s
  | .lb core rd ra imm => Sys2Proof.Machine.execLb core rd ra imm s
  | .lbu core rd ra imm => Sys2Proof.Machine.execLbu core rd ra imm s
  | .lh core rd ra imm => Sys2Proof.Machine.execLh core rd ra imm s
  | .lhu core rd ra imm => Sys2Proof.Machine.execLhu core rd ra imm s
  | .lw core rd ra imm => Sys2Proof.Machine.execLw core rd ra imm s
  | .sb core rd ra imm => Sys2Proof.Machine.execSb core rd ra imm s
  | .sh core rd ra imm => Sys2Proof.Machine.execSh core rd ra imm s
  | .sw core rd ra imm => Sys2Proof.Machine.execSw core rd ra imm s
  | .flw core rd ra imm => Sys2Proof.Machine.execFlw core rd ra imm s
  | .fld core rd ra imm => Sys2Proof.Machine.execFld core rd ra imm s
  | .fsw core rd ra imm => Sys2Proof.Machine.execFsw core rd ra imm s
  | .fsd core rd ra imm => Sys2Proof.Machine.execFsd core rd ra imm s
  | .lwx core rd ra rb setf x => Sys2Proof.Machine.execLwx core rd ra rb setf x s
  | .swx core rd ra rb setf x => Sys2Proof.Machine.execSwx core rd ra rb setf x s
  | .casw core rd ra rb setf x => Sys2Proof.Machine.execCasw core rd ra rb setf x s
  | .swapw core rd ra rb setf x => Sys2Proof.Machine.execSwapw core rd ra rb setf x s
  | .bcc core cond disp => Sys2Proof.Machine.execBcc core cond disp s
  | .jmp core disp => Sys2Proof.Machine.execJmp core disp s
  | .call core disp => Sys2Proof.Machine.execCall core disp s
  | .jalr core rd ra imm => Sys2Proof.Machine.execJalr core rd ra imm s
  | .callfb core ri disp => Sys2Proof.Machine.execCallfb core ri disp s
  | .retfb core operand => Sys2Proof.Machine.execRetfb core operand s
  | .edge core rd ra imm => Sys2Proof.Machine.execEdge core rd ra imm s
  | .tstart core rd ra rb setf x => Sys2Proof.Machine.execTstart core rd ra rb setf x s
  | .tstop core rd ra rb setf x => Sys2Proof.Machine.execTstop core rd ra rb setf x s
  | .tread core rd ra rb setf x => Sys2Proof.Machine.execTread core rd ra rb setf x s
  | .tdone core rd ra rb setf x => Sys2Proof.Machine.execTdone core rd ra rb setf x s
  | .pil core rd ra imm => Sys2Proof.Machine.execPil core rd ra imm s
  | .pis core rd ra imm => Sys2Proof.Machine.execPis core rd ra imm s
  | .cyend core operand => Sys2Proof.Machine.execCyend core operand s
  | .dsync core operand => Sys2Proof.Machine.execDsync core operand s
  | .fence core operand => Sys2Proof.Machine.execFence core operand s
  | .isync core operand => Sys2Proof.Machine.execIsync core operand s
  | .svc core operand => Sys2Proof.Machine.execSvc core operand s
  | .brk core operand => Sys2Proof.Machine.execBrk core operand s
  | .eret core operand => Sys2Proof.Machine.execEret core operand s
  | .fadd core rd ra rb setf x => Sys2Proof.Machine.execFadd core rd ra rb setf x s
  | .fsub core rd ra rb setf x => Sys2Proof.Machine.execFsub core rd ra rb setf x s
  | .fmul core rd ra rb setf x => Sys2Proof.Machine.execFmul core rd ra rb setf x s
  | .fdiv core rd ra rb setf x => Sys2Proof.Machine.execFdiv core rd ra rb setf x s
  | .fsqrt core rd ra rb setf x => Sys2Proof.Machine.execFsqrt core rd ra rb setf x s
  | .fma core rd ra rb setf x => Sys2Proof.Machine.execFma core rd ra rb setf x s
  | .fmin core rd ra rb setf x => Sys2Proof.Machine.execFmin core rd ra rb setf x s
  | .fmax core rd ra rb setf x => Sys2Proof.Machine.execFmax core rd ra rb setf x s
  | .fabs core rd ra rb setf x => Sys2Proof.Machine.execFabs core rd ra rb setf x s
  | .fneg core rd ra rb setf x => Sys2Proof.Machine.execFneg core rd ra rb setf x s
  | .fcmp core rd ra rb setf x => Sys2Proof.Machine.execFcmp core rd ra rb setf x s
  | .fcvtF core rd ra rb setf x => Sys2Proof.Machine.execFcvtF core rd ra rb setf x s
  | .fcvtFi core rd ra rb setf x => Sys2Proof.Machine.execFcvtFi core rd ra rb setf x s
  | .fcvtFu core rd ra rb setf x => Sys2Proof.Machine.execFcvtFu core rd ra rb setf x s
  | .fcvtIf core rd ra rb setf x => Sys2Proof.Machine.execFcvtIf core rd ra rb setf x s
  | .fcvtUf core rd ra rb setf x => Sys2Proof.Machine.execFcvtUf core rd ra rb setf x s
  | .fmvFw core rd ra rb setf x => Sys2Proof.Machine.execFmvFw core rd ra rb setf x s
  | .fmvWf core rd ra rb setf x => Sys2Proof.Machine.execFmvWf core rd ra rb setf x s
  | .fmvWfh core rd ra rb setf x => Sys2Proof.Machine.execFmvWfh core rd ra rb setf x s
  | .fmvFwh core rd ra rb setf x => Sys2Proof.Machine.execFmvFwh core rd ra rb setf x s
  | .li core rd ra zero imm => Sys2Proof.Machine.execLi core rd ra zero imm s
  | .addl core rd ra zero imm => Sys2Proof.Machine.execAddl core rd ra zero imm s
  | .andl core rd ra zero imm => Sys2Proof.Machine.execAndl core rd ra zero imm s
  | .orl core rd ra zero imm => Sys2Proof.Machine.execOrl core rd ra zero imm s
  | .xorl core rd ra zero imm => Sys2Proof.Machine.execXorl core rd ra zero imm s
  | .cmpl core rd ra zero imm => Sys2Proof.Machine.execCmpl core rd ra zero imm s
  | .lwl core rd ra zero imm => Sys2Proof.Machine.execLwl core rd ra zero imm s
  | .swl core rd ra zero imm => Sys2Proof.Machine.execSwl core rd ra zero imm s
  | .jl core rd ra zero imm => Sys2Proof.Machine.execJl core rd ra zero imm s
  | .callfbl core rd ra zero imm => Sys2Proof.Machine.execCallfbl core rd ra zero imm s
  | .fli core rd ra zero imm => Sys2Proof.Machine.execFli core rd ra zero imm s
  | .interruptEntry core => Sys2Proof.Machine.execInterruptEntry core s
  | .storeRetire core => Sys2Proof.Machine.execStoreRetire core s
  | .impreciseBuserr core => Sys2Proof.Machine.execImpreciseBuserr core s
  | .timerTick => Sys2Proof.Machine.execTimerTick s
  | .timerSlotDone core slot => Sys2Proof.Machine.execTimerSlotDone core slot s
  | .taskEnable src task value => Sys2Proof.Machine.execTaskEnable src task value s
  | .taskDisable src task value => Sys2Proof.Machine.execTaskDisable src task value s
  | .taskBoundary task feed => Sys2Proof.Machine.execTaskBoundary task feed s
  | .mirrorStream task => Sys2Proof.Machine.execMirrorStream task s
  | .taskEnd src value => Sys2Proof.Machine.execTaskEnd src value s
  | .watchdogTrip task => Sys2Proof.Machine.execWatchdogTrip task s
  | .remoteInputFrame task station module => Sys2Proof.Machine.execRemoteInputFrame task station module s
  | .patchRequest src value => Sys2Proof.Machine.execPatchRequest src value s
  | .patchDone src value => Sys2Proof.Machine.execPatchDone src value s
  | .leFrame => Sys2Proof.Machine.execLeFrame s
  | .stageEvaluation stage => Sys2Proof.Machine.execStageEvaluation stage s
  | .stageDirectWrite src stage word value => Sys2Proof.Machine.execStageDirectWrite src stage word value s
  | .updateSetCommit src value => Sys2Proof.Machine.execUpdateSetCommit src value s
  | .leDisable src value => Sys2Proof.Machine.execLeDisable src value s
  | .remoteSetpoint => Sys2Proof.Machine.execRemoteSetpoint s
  | .echo => Sys2Proof.Machine.execEcho s
  | .rtmoExpiry stage => Sys2Proof.Machine.execRtmoExpiry stage s
  | .traceArm src value => Sys2Proof.Machine.execTraceArm src value s
  | .swtrig src value => Sys2Proof.Machine.execSwtrig src value s
  | .tapEnable src tap value => Sys2Proof.Machine.execTapEnable src tap value s
  | .sampleDelivery chan signal sensor => Sys2Proof.Machine.execSampleDelivery chan signal sensor s
  | .triggerArrival chan => Sys2Proof.Machine.execTriggerArrival chan s
  | .cgSwtrig src group high value => Sys2Proof.Machine.execCgSwtrig src group high value s
  | .roundStart group => Sys2Proof.Machine.execRoundStart group s
  | .handover chan agree => Sys2Proof.Machine.execHandover chan agree s
  | .calibratePhaseEnd chan dev gap => Sys2Proof.Machine.execCalibratePhaseEnd chan dev gap s
  | .handBack chan agree => Sys2Proof.Machine.execHandBack chan agree s
  | .shadowCalibrationEnd chan => Sys2Proof.Machine.execShadowCalibrationEnd chan s
  | .resume src group value => Sys2Proof.Machine.execResume src group value s
  | .serviceCalibration src group value => Sys2Proof.Machine.execServiceCalibration src group value s
  | .serviceCalibrationDone chan dev gap => Sys2Proof.Machine.execServiceCalibrationDone chan dev gap s
  | .rangeRampEnd chan => Sys2Proof.Machine.execRangeRampEnd chan s
  | .outputApply chan => Sys2Proof.Machine.execOutputApply chan s
  | .rbdev chan present => Sys2Proof.Machine.execRbdev chan present s
  | .wirebreak chan present => Sys2Proof.Machine.execWirebreak chan present s
  | .short chan present => Sys2Proof.Machine.execShort chan present s
  | .limitDelay chan upper => Sys2Proof.Machine.execLimitDelay chan upper s
  | .hartRequest group => Sys2Proof.Machine.execHartRequest group s
  | .hartResponse chan result => Sys2Proof.Machine.execHartResponse chan result s
  | .burstFrame chan cmd rsp dev data => Sys2Proof.Machine.execBurstFrame chan cmd rsp dev data s
  | .ctInval src value => Sys2Proof.Machine.execCtInval src value s
  | .entryApply chan => Sys2Proof.Machine.execEntryApply chan s
  | .ctCommit src value => Sys2Proof.Machine.execCtCommit src value s
  | .statusWriteback chan => Sys2Proof.Machine.execStatusWriteback chan s
  | .ctStatclr src value => Sys2Proof.Machine.execCtStatclr src value s
  | .ctBaseWrite src value => Sys2Proof.Machine.execCtBaseWrite src value s
  | .diPulsedSample chan level => Sys2Proof.Machine.execDiPulsedSample chan level s
  | .diContSample chan => Sys2Proof.Machine.execDiContSample chan s
  | .filteredChange chan level edge => Sys2Proof.Machine.execFilteredChange chan level edge s
  | .soeDelivery group => Sys2Proof.Machine.execSoeDelivery group s
  | .overload chan => Sys2Proof.Machine.execOverload chan s
  | .overtemp chan => Sys2Proof.Machine.execOvertemp chan s
  | .imbalance chan present => Sys2Proof.Machine.execImbalance chan present s
  | .rbmismatch chan present => Sys2Proof.Machine.execRbmismatch chan present s
  | .openload chan present => Sys2Proof.Machine.execOpenload chan present s
  | .fieldSupplyLow group mv => Sys2Proof.Machine.execFieldSupplyLow group mv s
  | .fieldSupplyMissing group mv => Sys2Proof.Machine.execFieldSupplyMissing group mv s
  | .fieldSupplyRestored group mv => Sys2Proof.Machine.execFieldSupplyRestored group mv s
  | .fieldBufferCharged group => Sys2Proof.Machine.execFieldBufferCharged group s
  | .linkFrame => Sys2Proof.Machine.execLinkFrame s
  | .linkFrameReceive group down good => Sys2Proof.Machine.execLinkFrameReceive group down good s
  | .linkTimeoutField group => Sys2Proof.Machine.execLinkTimeoutField group s
  | .linkTimeout group => Sys2Proof.Machine.execLinkTimeout group s
  | .linkResume src group value => Sys2Proof.Machine.execLinkResume src group value s
  | .temperatureUpdate a b => Sys2Proof.Machine.execTemperatureUpdate a b s
  | .safetyLaneFrame group lane up good => Sys2Proof.Machine.execSafetyLaneFrame group lane up good s
  | .matrixEvaluation => Sys2Proof.Machine.execMatrixEvaluation s
  | .laneTimeoutField group lane => Sys2Proof.Machine.execLaneTimeoutField group lane s
  | .laneFailed group => Sys2Proof.Machine.execLaneFailed group s
  | .laneRecover group => Sys2Proof.Machine.execLaneRecover group s
  | .abFault pair => Sys2Proof.Machine.execAbFault pair s
  | .comparatorChange chan input => Sys2Proof.Machine.execComparatorChange chan input s
  | .cmpDiscrepancy chan high present since => Sys2Proof.Machine.execCmpDiscrepancy chan high present since s
  | .progtripWrite src index value => Sys2Proof.Machine.execProgtripWrite src index value s
  | .triprst src value => Sys2Proof.Machine.execTriprst src value s
  | .switchStuck pair low since => Sys2Proof.Machine.execSwitchStuck pair low since s
  | .switchNotClosed pair low since => Sys2Proof.Machine.execSwitchNotClosed pair low since s
  | .proofTest pair => Sys2Proof.Machine.execProofTest pair s
  | .proofTestStep pair opened => Sys2Proof.Machine.execProofTestStep pair opened s
  | .sw1Change a b positions => Sys2Proof.Machine.execSw1Change a b positions s
  | .tpCfgcommit src value => Sys2Proof.Machine.execTpCfgcommit src value s
  | .hashComplete => Sys2Proof.Machine.execHashComplete s
  | .hashrefWrite src index value => Sys2Proof.Machine.execHashrefWrite src index value s
  | .portTrained port lanes => Sys2Proof.Machine.execPortTrained port lanes s
  | .packetForward port pkt linkSeq => Sys2Proof.Machine.execPacketForward port pkt linkSeq s
  | .packetTail port direct pkt linkSeq ack tail ago => Sys2Proof.Machine.execPacketTail port direct pkt linkSeq ack tail ago s
  | .nack port lastSeq => Sys2Proof.Machine.execNack port lastSeq s
  | .linkFailed port => Sys2Proof.Machine.execLinkFailed port s
  | .joinSend => Sys2Proof.Machine.execJoinSend s
  | .join port direct pkt => Sys2Proof.Machine.execJoin port direct pkt s
  | .stationAbsent station => Sys2Proof.Machine.execStationAbsent station s
  | .quarClear => Sys2Proof.Machine.execQuarClear s
  | .windowFree station => Sys2Proof.Machine.execWindowFree station s
  | .routeWrite src dest value => Sys2Proof.Machine.execRouteWrite src dest value s
  | .requestIssue ring => Sys2Proof.Machine.execRequestIssue ring s
  | .read pkt => Sys2Proof.Machine.execRead pkt s
  | .write pkt => Sys2Proof.Machine.execWrite pkt s
  | .fetchadd pkt => Sys2Proof.Machine.execFetchadd pkt s
  | .cas pkt => Sys2Proof.Machine.execCas pkt s
  | .ringput pkt => Sys2Proof.Machine.execRingput pkt s
  | .post pkt => Sys2Proof.Machine.execPost pkt s
  | .response pkt => Sys2Proof.Machine.execResponse pkt s
  | .notice pkt => Sys2Proof.Machine.execNotice pkt s
  | .transactionDeadline tag => Sys2Proof.Machine.execTransactionDeadline tag s
  | .exportLoad src value => Sys2Proof.Machine.execExportLoad src value s
  | .mappingPublish => Sys2Proof.Machine.execMappingPublish s
  | .announceSend => Sys2Proof.Machine.execAnnounceSend s
  | .syncSend => Sys2Proof.Machine.execSyncSend s
  | .dreqSend => Sys2Proof.Machine.execDreqSend s
  | .announce port pkt => Sys2Proof.Machine.execAnnounce port pkt s
  | .sync port pkt ago => Sys2Proof.Machine.execSync port pkt ago s
  | .dreq port pkt ago => Sys2Proof.Machine.execDreq port pkt ago s
  | .drsp port pkt ago => Sys2Proof.Machine.execDrsp port pkt ago s
  | .gmTimeout => Sys2Proof.Machine.execGmTimeout s
  | .holdoverEntry => Sys2Proof.Machine.execHoldoverEntry s
  | .timeSet src value => Sys2Proof.Machine.execTimeSet src value s
  | .scheduleEnable src sched value => Sys2Proof.Machine.execScheduleEnable src sched value s
  | .scheduleFiring sched => Sys2Proof.Machine.execScheduleFiring sched s
  | .ptpMessage port domain udp msg => Sys2Proof.Machine.execPtpMessage port domain udp msg s
  | .frameLaunch port => Sys2Proof.Machine.execFrameLaunch port s
  | .ltFrameDiscard port queue => Sys2Proof.Machine.execLtFrameDiscard port queue s
  | .ethernetReceive port ring frame ago => Sys2Proof.Machine.execEthernetReceive port ring frame ago s
  | .canModeWrite src ctl value => Sys2Proof.Machine.execCanModeWrite src ctl value s
  | .busIntegration ctl => Sys2Proof.Machine.execBusIntegration ctl s
  | .bitTimingWrite src ctl data value => Sys2Proof.Machine.execBitTimingWrite src ctl data value s
  | .canArbitration ctl => Sys2Proof.Machine.execCanArbitration ctl s
  | .canFrameSent ctl measured => Sys2Proof.Machine.execCanFrameSent ctl measured s
  | .canFrameReceive ctl frame ago => Sys2Proof.Machine.execCanFrameReceive ctl frame ago s
  | .canError ctl err => Sys2Proof.Machine.execCanError ctl err s
  | .recover src ctl value => Sys2Proof.Machine.execRecover src ctl value s
  | .recovered ctl => Sys2Proof.Machine.execRecovered ctl s
  | .launchInstant ctl queue => Sys2Proof.Machine.execLaunchInstant ctl queue s
  | .canLate ctl queue => Sys2Proof.Machine.execCanLate ctl queue s
  | .canCancel src ctl value => Sys2Proof.Machine.execCanCancel src ctl value s
  | .canBasicCycle ctl => Sys2Proof.Machine.execCanBasicCycle ctl s
  | .slotDue ctl slot => Sys2Proof.Machine.execSlotDue ctl slot s
  | .slotmiss ctl slot => Sys2Proof.Machine.execSlotmiss ctl slot s
  | .heartbeatSend => Sys2Proof.Machine.execHeartbeatSend s
  | .heartbeat pl1 beat offset => Sys2Proof.Machine.execHeartbeat pl1 beat offset s
  | .heartbeatLoss actiHigh released => Sys2Proof.Machine.execHeartbeatLoss actiHigh released s
  | .partnerLost => Sys2Proof.Machine.execPartnerLost s
  | .partnerModeRequest mode => Sys2Proof.Machine.execPartnerModeRequest mode s
  | .partnerSample chan stamp value quality => Sys2Proof.Machine.execPartnerSample chan stamp value quality s
  | .partnerDrain chan value => Sys2Proof.Machine.execPartnerDrain chan value s
  | .outputCompare task cycle items => Sys2Proof.Machine.execOutputCompare task cycle items s
  | .stageMirror stages words => Sys2Proof.Machine.execStageMirror stages words s
  | .inputDivergence chan value ms => Sys2Proof.Machine.execInputDivergence chan value ms s
  | .forwardedChange change cycle differs => Sys2Proof.Machine.execForwardedChange change cycle differs s
  | .referee active own => Sys2Proof.Machine.execReferee active own s
  | .handoverAgreement lead why released => Sys2Proof.Machine.execHandoverAgreement lead why released s
  | .crossfade => Sys2Proof.Machine.execCrossfade s
  | .crossfadeEnd => Sys2Proof.Machine.execCrossfadeEnd s
  | .replayWindowSync windows seqs => Sys2Proof.Machine.execReplayWindowSync windows seqs s
  | .swap src value => Sys2Proof.Machine.execSwap src value s
  | .leave src value => Sys2Proof.Machine.execLeave src value s
  | .joinSet src value => Sys2Proof.Machine.execJoinSet src value s
  | .periodicSwap => Sys2Proof.Machine.execPeriodicSwap s
  | .resynchronisation copy windows seqs stages => Sys2Proof.Machine.execResynchronisation copy windows seqs stages s
  | .counterReadLo src addr => Sys2Proof.Machine.execCounterReadLo src addr s
  | .counterWriteHi src addr value => Sys2Proof.Machine.execCounterWriteHi src addr value s
  | .counterWriteLo src addr value => Sys2Proof.Machine.execCounterWriteLo src addr value s
  | .counterWrap addr sel => Sys2Proof.Machine.execCounterWrap addr sel s
  | .flashRead src value => Sys2Proof.Machine.execFlashRead src value s
  | .flashProgram src value fetch => Sys2Proof.Machine.execFlashProgram src value fetch s
  | .flashErase src value fetch => Sys2Proof.Machine.execFlashErase src value fetch s
  | .flashOperationComplete bank => Sys2Proof.Machine.execFlashOperationComplete bank s
  | .breathCheck bank => Sys2Proof.Machine.execBreathCheck bank s
  | .holdupEnergyUpdate mv charging => Sys2Proof.Machine.execHoldupEnergyUpdate mv charging s
  | .btRampgm value => Sys2Proof.Machine.execBtRampgm value s
  | .eventRecord => Sys2Proof.Machine.execEventRecord s
  | .recorderFlush => Sys2Proof.Machine.execRecorderFlush s
  | .opmsStore => Sys2Proof.Machine.execOpmsStore s
  | .appEvent => Sys2Proof.Machine.execAppEvent s
  | .recordRead => Sys2Proof.Machine.execRecordRead s
  | .streamCapacityWrite src value => Sys2Proof.Machine.execStreamCapacityWrite src value s
  | .namespaceMount ns info => Sys2Proof.Machine.execNamespaceMount ns info s
  | .historianFile bind_ => Sys2Proof.Machine.execHistorianFile bind_ s
  | .segmentSeal ns seg => Sys2Proof.Machine.execSegmentSeal ns seg s
  | .shelfLoad src value => Sys2Proof.Machine.execShelfLoad src value s
  | .ident path => Sys2Proof.Machine.execIdent path s
  | .readreg path => Sys2Proof.Machine.execReadreg path s
  | .writereg path => Sys2Proof.Machine.execWritereg path s
  | .mode path => Sys2Proof.Machine.execMode path s
  | .reset path => Sys2Proof.Machine.execReset path s
  | .recclear path => Sys2Proof.Machine.execRecclear path s
  | .histfmt path => Sys2Proof.Machine.execHistfmt path s
  | .updBegin path => Sys2Proof.Machine.execUpdBegin path s
  | .updData path => Sys2Proof.Machine.execUpdData path s
  | .updEnd path => Sys2Proof.Machine.execUpdEnd path s
  | .updTrial path => Sys2Proof.Machine.execUpdTrial path s
  | .updCommit path => Sys2Proof.Machine.execUpdCommit path s
  | .updAbandon path => Sys2Proof.Machine.execUpdAbandon path s
  | .keyStage path => Sys2Proof.Machine.execKeyStage path s
  | .keyCommit path => Sys2Proof.Machine.execKeyCommit path s
  | .rollbackAdvance => Sys2Proof.Machine.execRollbackAdvance s
  | .slice test => Sys2Proof.Machine.execSlice test s
  | .sliceResult test signature lines => Sys2Proof.Machine.execSliceResult test signature lines s
  | .testStarved test => Sys2Proof.Machine.execTestStarved test s
  | .selfTestReset => Sys2Proof.Machine.execSelfTestReset s
  | .lockstepMismatch => Sys2Proof.Machine.execLockstepMismatch s
  | .holdupMeasurement esr cap => Sys2Proof.Machine.execHoldupMeasurement esr cap s
  | .crackLoopCheck die groups => Sys2Proof.Machine.execCrackLoopCheck die groups s
  | .irBlind => Sys2Proof.Machine.execIrBlind s
  | .irRearm => Sys2Proof.Machine.execIrRearm s
  | .status frame => Sys2Proof.Machine.execStatus frame s
  | .recread frame => Sys2Proof.Machine.execRecread frame s
  | .almlist frame => Sys2Proof.Machine.execAlmlist frame s
  | .almack frame => Sys2Proof.Machine.execAlmack frame s
  | .mgAlmack src value => Sys2Proof.Machine.execMgAlmack src value s
  | .logicInputLost inputB => Sys2Proof.Machine.execLogicInputLost inputB s
  | .logicInputRestored inputB => Sys2Proof.Machine.execLogicInputRestored inputB s
  | .bankDisconnect => Sys2Proof.Machine.execBankDisconnect s
  | .illegalInstruction core word => Sys2Proof.Machine.execIllegalInstruction core word s
  | .junctionCooled chan => Sys2Proof.Machine.execJunctionCooled chan s
  | .segmentAgeExpiry ns seg => Sys2Proof.Machine.execSegmentAgeExpiry ns seg s
  | .nvmeCommandComplete ns => Sys2Proof.Machine.execNvmeCommandComplete ns s
  | .unknownService frame => Sys2Proof.Machine.execUnknownService frame s
  | .reservedCmd path => Sys2Proof.Machine.execReservedCmd path s

end Sys2Proof.Machine
end

