-- ==== Sys2Proof/Machine/Step.lean ====
section
/-!
DEFINITION. One step of the block: the command at the front of the queue takes effect; with none waiting the block idles
and a nanosecond passes (log entry 11).
-/

namespace Sys2Proof.Machine

/-- The state with the command at the front of its queue taken. -/
def State.withPending (s : State) (q : List Instr) : State := { s with pending := q }

/-- The block idles for one nanosecond (log entry 11). -/
def State.idle (s : State) : State := { s with chip := { s.chip with now := s.chip.now + 1 } }

/-- One step. -/
def step (s : State) : Host.Outcome State Fault Refusal :=
  match s.pending with
  | [] => .next s.idle
  | c :: q => exec c (s.withPending q)

/-- The state with the command a word spells put at the front of its queue; unchanged where the word spells none. -/
def State.withFetchWord (s : State) (nbits w : Nat) : State :=
  match Sys2Proof.decodeTableWord nbits w with
  | some c => s.withPending (c :: s.pending)
  | none => s

end Sys2Proof.Machine
end

