-- ==== Sys2Proof/WellFormed.lean ====
section
/-!
DEFINITION. Which commands are well formed: what the operand types do not already say (R46, R403, R537, R538, R569, R621, R658, R804).
-/

namespace Sys2Proof

/-- The bytes of the longest message: what fits in the pool's buffers of 256 bytes (R46). -/
def maxMessage : Nat := 131072 * 256

/-- Every header field fits its place, the payload is whole words and at most 64 of them (R537, R562). -/
def Packet.wf (p : Packet) : Bool :=
  decide (p.kind < 16 ∧ p.tc < 16 ∧ p.hops < 256 ∧ p.dst < 4096 ∧ p.src < 4096 ∧ p.dstMod < 256 ∧ p.srcMod < 256 ∧
    p.dring < 65536 ∧ p.sring < 65536 ∧ p.seq < 4294967296 ∧ p.tag < 4096 ∧ p.op < 256 ∧ p.len < 256 ∧
    p.epoch < 65536 ∧ p.sepoch < 65536 ∧ p.addr < 18446744073709551616 ∧ p.payload.length % 4 = 0 ∧ p.payload.length ≤ 256)

/-- The data bytes of a frame's DLC (R621, R622). -/
def CanFrame.size (f : CanFrame) : Nat :=
  if f.rtr then 0
  else if f.dlc.val ≤ 8 then f.dlc.val
  else if f.fdf then [12, 16, 20, 24, 32, 48, 64].getD (f.dlc.val - 9) 64 else 8

/-- A standard identifier has 11 bits, a CAN FD frame is no remote frame, the data fill the DLC (R621). -/
def CanFrame.wf (f : CanFrame) : Bool :=
  (f.xtd || decide (f.id.toNat < 2048)) && !(f.fdf && f.rtr) && decide (f.data.length = f.size)

/-- A HART reply has at most 255 data bytes (R403). -/
def HartEnd.wf : HartEnd → Bool
  | .reply _ _ data => decide (data.length ≤ 255)
  | .silent | .garbled => true

/-- A replay window keeps the last 64 sequence numbers (R569). -/
def Window.wf (w : Window) : Bool := decide (w.seen.length ≤ 64)

/-- A forwarded table entry has 256 bytes, a forwarded stage record 32 words (R281, R407, R658). -/
def Forwarded.wf : Forwarded → Bool
  | .patch .. => true
  | .single _ _ _ e => decide (e.length = 256)
  | .commit _ _ items => items.all fun p => decide (p.2.length = 256)
  | .update _ recs => recs.all fun p => decide (p.2.length = 32)

/-- Whether a command is well formed. -/
def Instr.wf : Instr → Bool
  | .publishMessage _ _ bytes _ => decide (0 < bytes.length ∧ bytes.length ≤ maxMessage)
  | .hartResponse _ result => result.wf
  | .burstFrame _ _ _ _ data => decide (data.length ≤ 255)
  | .packetForward _ pkt _ => pkt.wf
  | .packetTail _ _ pkt _ _ _ _ => pkt.wf
  | .join _ _ pkt => pkt.wf
  | .read pkt => pkt.wf
  | .write pkt => pkt.wf
  | .fetchadd pkt => pkt.wf
  | .cas pkt => pkt.wf
  | .ringput pkt => pkt.wf
  | .post pkt => pkt.wf
  | .response pkt => pkt.wf
  | .notice pkt => pkt.wf
  | .announce _ pkt => pkt.wf
  | .sync _ pkt _ => pkt.wf
  | .dreq _ pkt _ => pkt.wf
  | .drsp _ pkt _ => pkt.wf
  | .ethernetReceive _ _ frame _ => decide (0 < frame.length)
  | .canFrameReceive _ frame _ => frame.wf
  | .forwardedChange change _ _ => change.wf
  | .replayWindowSync windows _ => windows.all Window.wf
  | .resynchronisation _ windows _ _ => windows.all Window.wf
  | .status frame => decide (frame.length ≤ 255)
  | .recread frame => decide (frame.length ≤ 255)
  | .almlist frame => decide (frame.length ≤ 255)
  | .almack frame => decide (frame.length ≤ 255)
  | .unknownService frame => decide (frame.length ≤ 255)
  | .registerWrite .. | .crossIslandWriteEffect .. | .crossPlaneMessage .. | .readResponse .. | .fenceAcknowledge ..
  | .bufferRelease .. | .ringReservationWrite .. | .ringMaximumWrite .. | .ringControlWrite .. | .modeRequest ..
  | .modeTransition .. | .transitionAcknowledge .. | .transitionTimeout .. | .actCheck .. | .bootComplete ..
  | .keyContactChange .. | .keyPositionValid .. | .keyFault .. | .keyChange .. | .logicInputsLow .. | .logicInputRecover ..
  | .powerFailure .. | .powerRestored .. | .flushProfileExecute .. | .flushArm .. | .flushDisarm .. | .powerStateRequest ..
  | .islandReturnComplete .. | .autostartWrite .. | .configStore .. | .powerOnReset .. | .brownOut .. | .rstNAssert ..
  | .hardwareWatchdog .. | .systemReset .. | .coreReset .. | .internalResetRise .. | .clockFallback .. | .pinRelease ..
  | .blockResetRequest .. | .blockIdle .. | .blockResetTimeout .. | .coreRelease .. | .add .. | .sub .. | .adc .. | .sbc ..
  | .and .. | .or .. | .xor .. | .andn .. | .shl .. | .shr .. | .sar .. | .ror .. | .mul .. | .mulhs .. | .mulhu .. | .div ..
  | .divu .. | .rem .. | .remu .. | .min .. | .max .. | .minu .. | .maxu .. | .clz .. | .sextb .. | .sexth .. | .csel ..
  | .mff .. | .mtf .. | .addi .. | .addis .. | .cmpi .. | .andi .. | .ori .. | .xori .. | .shi .. | .lui .. | .lb .. | .lbu ..
  | .lh .. | .lhu .. | .lw .. | .sb .. | .sh .. | .sw .. | .flw .. | .fld .. | .fsw .. | .fsd .. | .lwx .. | .swx .. | .casw ..
  | .swapw .. | .bcc .. | .jmp .. | .call .. | .jalr .. | .callfb .. | .retfb .. | .edge .. | .tstart .. | .tstop .. | .tread ..
  | .tdone .. | .pil .. | .pis .. | .cyend .. | .dsync .. | .fence .. | .isync .. | .svc .. | .brk .. | .eret .. | .fadd ..
  | .fsub .. | .fmul .. | .fdiv .. | .fsqrt .. | .fma .. | .fmin .. | .fmax .. | .fabs .. | .fneg .. | .fcmp .. | .fcvtF ..
  | .fcvtFi .. | .fcvtFu .. | .fcvtIf .. | .fcvtUf .. | .fmvFw .. | .fmvWf .. | .fmvWfh .. | .fmvFwh .. | .li .. | .addl ..
  | .andl .. | .orl .. | .xorl .. | .cmpl .. | .lwl .. | .swl .. | .jl .. | .callfbl .. | .fli .. | .interruptEntry ..
  | .storeRetire .. | .impreciseBuserr .. | .timerTick .. | .timerSlotDone .. | .taskEnable .. | .taskDisable ..
  | .taskBoundary .. | .mirrorStream .. | .taskEnd .. | .watchdogTrip .. | .remoteInputFrame .. | .patchRequest ..
  | .patchDone .. | .leFrame .. | .stageEvaluation .. | .stageDirectWrite .. | .updateSetCommit .. | .leDisable ..
  | .remoteSetpoint .. | .echo .. | .rtmoExpiry .. | .traceArm .. | .swtrig .. | .tapEnable .. | .sampleDelivery ..
  | .triggerArrival .. | .cgSwtrig .. | .roundStart .. | .handover .. | .calibratePhaseEnd .. | .handBack ..
  | .shadowCalibrationEnd .. | .resume .. | .serviceCalibration .. | .serviceCalibrationDone .. | .rangeRampEnd ..
  | .outputApply .. | .rbdev .. | .wirebreak .. | .short .. | .limitDelay .. | .hartRequest .. | .ctInval .. | .entryApply ..
  | .ctCommit .. | .statusWriteback .. | .ctStatclr .. | .ctBaseWrite .. | .diPulsedSample .. | .diContSample ..
  | .filteredChange .. | .soeDelivery .. | .overload .. | .overtemp .. | .imbalance .. | .rbmismatch .. | .openload ..
  | .fieldSupplyLow .. | .fieldSupplyMissing .. | .fieldSupplyRestored .. | .fieldBufferCharged .. | .linkFrame ..
  | .linkFrameReceive .. | .linkTimeoutField .. | .linkTimeout .. | .linkResume .. | .temperatureUpdate .. | .safetyLaneFrame ..
  | .matrixEvaluation .. | .laneTimeoutField .. | .laneFailed .. | .laneRecover .. | .abFault .. | .comparatorChange ..
  | .cmpDiscrepancy .. | .progtripWrite .. | .triprst .. | .switchStuck .. | .switchNotClosed .. | .proofTest ..
  | .proofTestStep .. | .sw1Change .. | .tpCfgcommit .. | .hashComplete .. | .hashrefWrite .. | .portTrained .. | .nack ..
  | .linkFailed .. | .joinSend .. | .stationAbsent .. | .quarClear .. | .windowFree .. | .routeWrite .. | .requestIssue ..
  | .transactionDeadline .. | .exportLoad .. | .mappingPublish .. | .announceSend .. | .syncSend .. | .dreqSend ..
  | .gmTimeout .. | .holdoverEntry .. | .timeSet .. | .scheduleEnable .. | .scheduleFiring .. | .ptpMessage .. | .frameLaunch ..
  | .ltFrameDiscard .. | .canModeWrite .. | .busIntegration .. | .bitTimingWrite .. | .canArbitration .. | .canFrameSent ..
  | .canError .. | .recover .. | .recovered .. | .launchInstant .. | .canLate .. | .canCancel .. | .canBasicCycle ..
  | .slotDue .. | .slotmiss .. | .heartbeatSend .. | .heartbeat .. | .heartbeatLoss .. | .partnerLost ..
  | .partnerModeRequest .. | .partnerSample .. | .partnerDrain .. | .outputCompare .. | .stageMirror .. | .inputDivergence ..
  | .referee .. | .handoverAgreement .. | .crossfade .. | .crossfadeEnd .. | .swap .. | .leave .. | .joinSet ..
  | .periodicSwap .. | .counterReadLo .. | .counterWriteHi .. | .counterWriteLo .. | .counterWrap .. | .flashRead ..
  | .flashProgram .. | .flashErase .. | .flashOperationComplete .. | .breathCheck .. | .holdupEnergyUpdate .. | .btRampgm ..
  | .eventRecord .. | .recorderFlush .. | .opmsStore .. | .appEvent .. | .recordRead .. | .streamCapacityWrite ..
  | .namespaceMount .. | .historianFile .. | .segmentSeal .. | .shelfLoad .. | .ident .. | .readreg .. | .writereg .. | .mode ..
  | .reset .. | .recclear .. | .histfmt .. | .updBegin .. | .updData .. | .updEnd .. | .updTrial .. | .updCommit ..
  | .updAbandon .. | .keyStage .. | .keyCommit .. | .rollbackAdvance .. | .slice .. | .sliceResult .. | .testStarved ..
  | .selfTestReset .. | .lockstepMismatch .. | .holdupMeasurement .. | .crackLoopCheck .. | .irBlind .. | .irRearm ..
  | .mgAlmack .. | .logicInputLost .. | .logicInputRestored .. | .bankDisconnect .. | .illegalInstruction ..
  | .junctionCooled .. | .segmentAgeExpiry .. | .nvmeCommandComplete .. | .reservedCmd .. => true

end Sys2Proof
end

