-- ==== Sys2Proof/Safety.lean ====
section
/-!
DEFINITION. What the claims about the block are stated in: when a core can run an instruction, the next states that instructions reach,
the invariant of the machine, and what a command leaves alone.
-/

namespace Sys2Proof.Machine

/-! ## When a core runs an instruction -/

/-- A core runs (R143, R218), waits for no load, has its clock (R100), and may fetch the `len` bytes at its program counter (R144, R189). -/
def State.ready (s : State) (n : Core) (len : Nat) : Prop :=
  (s.core n).run = .running ∧ (s.core n).wait = none ∧ s.chip.islandOn n.val = true ∧ s.fetchable n (s.core n).pc = true ∧
    (len = 8 → s.fetchable n ((s.core n).pc + 4#32) = true)

/-- The next state of an instruction whose only effects are rd, the flags and the program counter. -/
def State.wrote (s : State) (n : Core) (rd : RegN) (v : Word) (fl : Flags) (len : Nat) : State :=
  s.setCore n { (s.core n).ww rd v with flags := fl, pc := (s.core n).pc + BitVec.ofNat 32 len }

/-- The next state of an instruction whose only effects are an F register, the sticky flags of FCSR (R187) and the program counter. -/
def State.wroteF (s : State) (n : Core) (rd : RegN) (v : DWord) (sticky : Nat) (len : Nat) : State :=
  s.setCore n { s.core n with
    f := (s.core n).f.set rd v, fcsr := (s.core n).fcsr ||| BitVec.ofNat 32 (sticky * 16), pc := (s.core n).pc + BitVec.ofNat 32 len }

/-- The next state of a jump: the program counter alone. -/
def State.jumped (s : State) (n : Core) (target : Word) : State := s.setCore n { s.core n with pc := target }

/-- The next state of an instruction that raises an exception (R216), for a core that is in no handler. -/
def State.entered (s : State) (n : Core) (code : Nat) (epc eaddr : Word) : State :=
  let c := s.core n
  s.setCore n { c with
    epc := epc, ecause := BitVec.ofNat 32 code, eaddr := eaddr, pc := c.vbase, ovlSeen := false
    cstatus := BitVec.ofNat 32 (0b10001 + (if c.cstatus.getLsbD 0 then 4 else 0) + (if c.cstatus.getLsbD 1 then 8 else 0)) }

/-! ## The invariant of the machine -/

/-- What holds of a load that waits for the fabric. -/
def CoreSt.waitOk (c : CoreSt) : Bool :=
  match c.wait with
  | none => true
  | some w => w.len % 4 == 0 && (match w.dest with
      | .frame => (c.rw 30).toNat % 4 == 0
      | .edge .. => decide (c.sb.length < sbSize)
      | _ => true)

/-- A core's registers keep to the forms the spec gives them: W0 holds 0 (R139), the program counter and VBASE are word-aligned (R137), CSTATUS has no bit above
EXL, STKLIM is a multiple of 8 (R168), and the store buffer holds at most 16 entries (R198). -/
def CoreSt.ok (c : CoreSt) : Bool :=
  c.w[0] == 0#32 && decide (c.pc.toNat % 4 = 0) && decide (c.vbase.toNat % 4 = 0) && decide (c.cstatus.toNat < 32) &&
    decide (c.stklim.toNat % 8 = 0) && decide (c.sb.length ≤ sbSize) && c.waitOk

/-- The invariant: memory is canonical, and every core keeps its forms. -/
def State.Inv (s : State) : Prop := memWf s.mem = true ∧ ∀ n : Core, (s.core n).ok = true

/-! ## What a command leaves alone -/

/-- The cores, memory and the queue are as they were. -/
def State.restSame (s t : State) : Prop := t.cores = s.cores ∧ t.mem = s.mem ∧ t.pending = s.pending

/-- Every register of the file but those listed is as it was. -/
def Chip.regsSameBut (c d : Chip) (ks : List Nat) : Prop := ∀ k, k ∉ ks → d.reg k = c.reg k

end Sys2Proof.Machine
end

