-- ==== Sys2Proof/Certificates/Slice0/Obligations.lean ====
section
/-!
DEFINITION. The statements about the block, for the provers.
-/

open Sys2Proof Sys2Proof.Machine

/-! ## The program cores: computing -/

/-- A result outside the signed range of a word. -/
def Sys2Proof.Claim.outOfRange (i : Int) : Bool := decide (i < -2 ^ 31 ∨ 2 ^ 31 ≤ i)

/-- What an ALU instruction answers: rd, the flags where S = 1, the program counter, and nothing else. -/
def Sys2Proof.Claim.aluNext (s : State) (n : Core) (rd : RegN) (st : Bool) (r : Word) (cf vf : Bool) (len : Nat) : Out :=
  .next (s.wrote n rd r (if st then ⟨r.msb, r == 0#32, cf, vf⟩ else (s.core n).flags) len)

/-- A shift or rotation of `a` by `k` < 32 with its carry (R154). -/
def Sys2Proof.Claim.shifted (sel k : Nat) (a : Word) (old : Bool) : Word × Bool :=
  match sel with
  | 0 => (BitVec.ofNat 32 (a.toNat * 2 ^ k), if k = 0 then old else a.getLsbD (32 - k))
  | 1 => (BitVec.ofNat 32 (a.toNat / 2 ^ k), if k = 0 then old else a.getLsbD (k - 1))
  | 2 => (BitVec.ofInt 32 (a.toInt / 2 ^ k), if k = 0 then old else a.getLsbD (k - 1))
  | _ => (BitVec.ofNat 32 (a.toNat / 2 ^ k + a.toNat * 2 ^ (32 - k)), if k = 0 then old else a.getLsbD (k - 1))

/-- ADD, SUB, ADC, SBC (R154, R155), the other register instructions that compute without multiplying (R154), the shifts and ROR (R154) and SHI (R157), which sets no
flags: the result in rd, the flags where S = 1, with carry and overflow said by the exact integers, and nothing else. -/
def Obligations.ArithmeticLogicAndShifts : Prop :=
  (∀ (s : State) (n : Core) (rd ra rb : RegN) (st : Bool), s.ready n 4 →
     let a := (s.core n).rw ra
     let b := (s.core n).rw rb
     let k : Nat := if (s.core n).flags.c then 1 else 0
     exec (.add n rd ra rb st 0#4) s = Claim.aluNext s n rd st (BitVec.ofNat 32 (a.toNat + b.toNat))
       (decide (2 ^ 32 ≤ a.toNat + b.toNat)) (Claim.outOfRange (a.toInt + b.toInt)) 4 ∧
     exec (.sub n rd ra rb st 0#4) s = Claim.aluNext s n rd st (BitVec.ofInt 32 (a.toInt - b.toInt))
       (decide (b.toNat ≤ a.toNat)) (Claim.outOfRange (a.toInt - b.toInt)) 4 ∧
     exec (.adc n rd ra rb st 0#4) s = Claim.aluNext s n rd st (BitVec.ofNat 32 (a.toNat + b.toNat + k))
       (decide (2 ^ 32 ≤ a.toNat + b.toNat + k)) (Claim.outOfRange (a.toInt + b.toInt + k)) 4 ∧
     exec (.sbc n rd ra rb st 0#4) s = Claim.aluNext s n rd st (BitVec.ofInt 32 (a.toInt - b.toInt - (1 - k)))
       (decide (b.toNat + 1 ≤ a.toNat + k)) (Claim.outOfRange (a.toInt - b.toInt - (1 - k))) 4) ∧
  (∀ (s : State) (n : Core) (rd ra rb : RegN) (st : Bool), s.ready n 4 →
     let c := s.core n
     let a := c.rw ra
     let b := c.rw rb
     let nz := fun (r : Word) => Claim.aluNext s n rd st r c.flags.c c.flags.v 4
     exec (.and n rd ra rb st 0#4) s = nz (a &&& b) ∧
     exec (.or n rd ra rb st 0#4) s = nz (a ||| b) ∧
     exec (.xor n rd ra rb st 0#4) s = nz (a ^^^ b) ∧
     exec (.andn n rd ra rb st 0#4) s = nz (a &&& ~~~b) ∧
     exec (.min n rd ra rb st 0#4) s = nz (if a.toInt < b.toInt then a else b) ∧
     exec (.max n rd ra rb st 0#4) s = nz (if a.toInt < b.toInt then b else a) ∧
     exec (.minu n rd ra rb st 0#4) s = nz (if a.toNat < b.toNat then a else b) ∧
     exec (.maxu n rd ra rb st 0#4) s = nz (if a.toNat < b.toNat then b else a) ∧
     (∃ k : Nat, exec (.clz n rd ra 0 st 0#4) s = nz (BitVec.ofNat 32 k) ∧ k ≤ 32 ∧ a.toNat < 2 ^ (32 - k) ∧
       (k < 32 → 2 ^ (31 - k) ≤ a.toNat)) ∧
     exec (.sextb n rd ra 0 st 0#4) s = nz (BitVec.ofInt 32 (BitVec.ofNat 8 a.toNat).toInt) ∧
     exec (.sexth n rd ra 0 st 0#4) s = nz (BitVec.ofInt 32 (BitVec.ofNat 16 a.toNat).toInt)) ∧
  (∀ (s : State) (n : Core) (rd ra rb : RegN) (st : Bool), s.ready n 4 →
     let c := s.core n
     let by_ := fun (sel k : Nat) =>
       let r := Claim.shifted sel k (c.rw ra) c.flags.c
       Claim.aluNext s n rd st r.1 r.2 c.flags.v 4
     let k := (c.rw rb).toNat % 32
     exec (.shl n rd ra rb st 0#4) s = by_ 0 k ∧ exec (.shr n rd ra rb st 0#4) s = by_ 1 k ∧
     exec (.sar n rd ra rb st 0#4) s = by_ 2 k ∧ exec (.ror n rd ra rb st 0#4) s = by_ 3 k ∧
     ∀ (sel : Fin 4) (j : Fin 32), exec (.shi n rd ra (BitVec.ofNat 16 (sel.val * 32 + j.val))) s =
       .next (s.wrote n rd (Claim.shifted sel.val j.val (c.rw ra) false).1 c.flags 4))

/-- MUL, MULHS, MULHU and the divisions (R154, R156): a division never traps. -/
def Obligations.MultiplyAndDivide : Prop :=
  ∀ (s : State) (n : Core) (rd ra rb : RegN) (st : Bool), s.ready n 4 →
    let a := (s.core n).rw ra
    let b := (s.core n).rw rb
    let ans := fun (r : Word) (cf vf : Bool) => Claim.aluNext s n rd st r cf vf 4
    let wide := a = 0x80000000#32 ∧ b = 0xFFFFFFFF#32
    exec (.mul n rd ra rb st 0#4) s = ans (BitVec.ofNat 32 (a.toNat * b.toNat)) (decide (2 ^ 32 ≤ a.toNat * b.toNat))
      (Claim.outOfRange (a.toInt * b.toInt)) ∧
    exec (.mulhs n rd ra rb st 0#4) s = ans (BitVec.ofInt 32 (a.toInt * b.toInt / 2 ^ 32)) false false ∧
    exec (.mulhu n rd ra rb st 0#4) s = ans (BitVec.ofNat 32 (a.toNat * b.toNat / 2 ^ 32)) false false ∧
    (b = 0#32 → exec (.div n rd ra rb st 0#4) s = ans 0#32 false true ∧ exec (.divu n rd ra rb st 0#4) s = ans 0#32 false true ∧
      exec (.rem n rd ra rb st 0#4) s = ans a false true ∧ exec (.remu n rd ra rb st 0#4) s = ans a false true) ∧
    (wide → exec (.div n rd ra rb st 0#4) s = ans 0x80000000#32 false true ∧ exec (.rem n rd ra rb st 0#4) s = ans 0#32 false true) ∧
    (b ≠ 0#32 → exec (.divu n rd ra rb st 0#4) s = ans (BitVec.ofNat 32 (a.toNat / b.toNat)) false false ∧
      exec (.remu n rd ra rb st 0#4) s = ans (BitVec.ofNat 32 (a.toNat % b.toNat)) false false) ∧
    (b ≠ 0#32 → ¬wide → exec (.div n rd ra rb st 0#4) s = ans (BitVec.ofInt 32 (a.toInt.tdiv b.toInt)) false false ∧
      exec (.rem n rd ra rb st 0#4) s = ans (BitVec.ofInt 32 (a.toInt.tmod b.toInt)) false false)

/-- A predicate of R164 on the flags, by bits 2:0 of the condition. -/
def Sys2Proof.Claim.predicate (f : Flags) (p : Nat) : Prop :=
  match p with
  | 0 => f.z = true
  | 1 => f.c = true
  | 2 => f.n = true
  | 3 => f.v = true
  | 4 => f.c = true ∧ f.z = false
  | 5 => f.n = f.v
  | 6 => f.z = false ∧ f.n = f.v
  | _ => True

/-- A condition of R164: the predicate, or with bit 3 its complement. -/
def Sys2Proof.Claim.holds (f : Flags) (cond : BitVec 4) : Prop :=
  if cond.toNat < 8 then Claim.predicate f cond.toNat else ¬Claim.predicate f (cond.toNat - 8)

/-- BCC and CSEL under every condition but 0xF (R154, R164); MFF and MTF move the flags (R141, R154); the instructions with an immediate (R157). -/
def Obligations.ConditionsAndImmediates : Prop :=
  (∀ (s : State) (n : Core) (rd ra rb : RegN), s.ready n 4 →
     let c := s.core n
     (∀ cond : BitVec 4, cond ≠ 0xF#4 →
       (∀ disp : BitVec 22, (Claim.holds c.flags cond →
           exec (.bcc n cond disp) s = .next (s.jumped n (BitVec.ofInt 32 (c.pc.toInt + 4 * disp.toInt)))) ∧
         (¬Claim.holds c.flags cond → exec (.bcc n cond disp) s = .next (s.jumped n (c.pc + 4#32)))) ∧
       (Claim.holds c.flags cond → exec (.csel n rd ra rb false cond) s = .next (s.wrote n rd (c.rw ra) c.flags 4)) ∧
       (¬Claim.holds c.flags cond → exec (.csel n rd ra rb false cond) s = .next (s.wrote n rd (c.rw rb) c.flags 4))) ∧
     (∃ v : Word, exec (.mff n rd 0 0 false 0#4) s = .next (s.wrote n rd v c.flags 4) ∧ v.toNat < 16 ∧
       v.getLsbD 3 = c.flags.n ∧ v.getLsbD 2 = c.flags.z ∧ v.getLsbD 1 = c.flags.c ∧ v.getLsbD 0 = c.flags.v) ∧
     exec (.mtf n 0 ra 0 false 0#4) s = .next (s.wrote n 0 0#32
       ⟨(c.rw ra).getLsbD 3, (c.rw ra).getLsbD 2, (c.rw ra).getLsbD 1, (c.rw ra).getLsbD 0⟩ 4)) ∧
  (∀ (s : State) (n : Core) (rd ra : RegN) (imm : BitVec 16) (w : Word),
     let c := s.core n
     let a := c.rw ra
     let sx := BitVec.ofInt 32 imm.toInt
     let zx := BitVec.ofNat 32 imm.toNat
     let put := fun (r : Word) (len : Nat) => (.next (s.wrote n rd r c.flags len) : Out)
     (s.ready n 4 →
       exec (.addi n rd ra imm) s = put (a + sx) 4 ∧ exec (.andi n rd ra imm) s = put (a &&& zx) 4 ∧
       exec (.ori n rd ra imm) s = put (a ||| zx) 4 ∧ exec (.xori n rd ra imm) s = put (a ^^^ zx) 4 ∧
       exec (.lui n rd 0 imm) s = put (BitVec.ofNat 32 (imm.toNat * 65536)) 4 ∧
       exec (.addis n rd ra imm) s = Claim.aluNext s n rd true (a + sx) (decide (2 ^ 32 ≤ a.toNat + sx.toNat))
         (Claim.outOfRange (a.toInt + imm.toInt)) 4 ∧
       exec (.cmpi n 0 ra imm) s = Claim.aluNext s n 0 true (a - sx) (decide (sx.toNat ≤ a.toNat))
         (Claim.outOfRange (a.toInt - imm.toInt)) 4) ∧
     (s.ready n 8 →
       exec (.li n rd 0 0#10 w) s = put w 8 ∧ exec (.addl n rd ra 0#10 w) s = put (a + w) 8 ∧
       exec (.andl n rd ra 0#10 w) s = put (a &&& w) 8 ∧ exec (.orl n rd ra 0#10 w) s = put (a ||| w) 8 ∧
       exec (.xorl n rd ra 0#10 w) s = put (a ^^^ w) 8 ∧
       exec (.cmpl n 0 ra 0#10 w) s = Claim.aluNext s n 0 true (a - w) (decide (w.toNat ≤ a.toNat))
         (Claim.outOfRange (a.toInt - w.toInt)) 8))

/-! ## The program cores: going elsewhere -/

/-- JMP, CALL, JALR and JL (R165, R166, R188): the target, the link register, and ALIGN where a computed target is no multiple of 4; JALR reads ra
before it writes rd. -/
def Obligations.JumpsAndCalls : Prop :=
  ∀ (s : State) (n : Core) (rd ra : RegN) (disp : BitVec 26) (imm : BitVec 16) (w : Word),
    let c := s.core n
    let rel := BitVec.ofInt 32 (c.pc.toInt + 4 * disp.toInt)
    let t := c.rw ra + BitVec.ofInt 32 imm.toInt
    (s.ready n 4 →
      exec (.jmp n disp) s = .next (s.jumped n rel) ∧
      exec (.call n disp) s = .next (s.setCore n { c with w := c.w.set 30 (c.pc + 4#32), pc := rel }) ∧
      (t.toNat % 4 = 0 → exec (.jalr n rd ra imm) s = .next (s.setCore n { c.ww rd (c.pc + 4#32) with pc := t })) ∧
      (t.toNat % 4 ≠ 0 → c.exl = false → exec (.jalr n rd ra imm) s = .next (s.entered n 3 c.pc t))) ∧
    (s.ready n 8 →
      (w.toNat % 4 = 0 → exec (.jl n rd 0 0#10 w) s = .next (s.setCore n { c.ww rd (c.pc + 8#32) with pc := w })) ∧
      (w.toNat % 4 ≠ 0 → c.exl = false → exec (.jl n rd 0 0#10 w) s = .next (s.entered n 3 c.pc w)))

/-- The core after a function-block call (R168): the two stores in the store buffer, the registers, the program counter. -/
def Sys2Proof.Claim.called (c : CoreSt) (p q : Nat) (wi target ret : Word) : CoreSt :=
  let sp := c.rw 31 - 8#32
  { c with
    w := ((c.w.set 31 sp).set 28 wi).set 30 ret
    sb := c.sb ++ [⟨.dram p, sp, 4, (c.rw 28).toNat, none⟩, ⟨.dram q, sp + 4#32, 4, (c.rw 30).toNat, none⟩]
    pc := target }

/-- The number a load of `size` bytes gets from the DRAM bytes at `p` (R199, R200): memory where no buffered store overlaps them, else the youngest that
overlaps them where it holds them all. -/
def Sys2Proof.Claim.loads (s : State) (n : Core) (p size x : Nat) : Prop :=
  s.chip.poisoned p size = false ∧
  (((∀ e ∈ (s.core n).sb, e.overlaps (.dram p) size = false) ∧ x = memRead s.mem size p) ∨
   (∃ (older younger : List StoreEntry) (e : StoreEntry), (s.core n).sb = older ++ e :: younger ∧
     e.overlaps (.dram p) size = true ∧ e.contains (.dram p) size = true ∧ (∀ y ∈ younger, y.overlaps (.dram p) size = false) ∧
     x = e.extract (.dram p) size))

/-- Function block frames: CALLFB and CALLFBL complete where every check of R168 passes and two entries of the store buffer are free (R170), with W28 and W30 in the
frame at W31 - 8; each check that fails raises its exception with no effect (R168); RETFB takes the frame back, W31 moves up by 8 and the program counter takes the
old W30, a misaligned W31, then a misaligned W30, being ALIGN (R169). -/
def Obligations.FunctionBlockFrames : Prop :=
  (∀ (s : State) (n : Core) (ri : RegN) (disp : BitVec 21) (w : Word) (p q : Nat),
     let c := s.core n
     let wi := c.rw ri
     let sp := c.rw 31 - 8#32
     c.pc.toNat % 4 = 0 → (c.rw 31).toNat % 8 = 0 → wi.toNat % 16 = 0 → 0x10000000 ≤ wi.toNat → wi.toNat ≤ 0x4FFFFFF0 →
     (c.isX = false → c.stklim.toNat ≤ sp.toNat) → 0x10000000 ≤ sp.toNat → sp.toNat < 0x50000000 →
     s.map n .write sp.toNat 4 = .at (.dram p) → s.map n .write (sp + 4#32).toNat 4 = .at (.dram q) → c.sb.length ≤ 14 →
     (s.ready n 4 → exec (.callfb n ri disp) s =
       .next (s.setCore n (Claim.called c p q wi (BitVec.ofInt 32 (c.pc.toInt + 4 * disp.toInt)) (c.pc + 4#32)))) ∧
     (s.ready n 8 → w.toNat % 4 = 0 → exec (.callfbl n ri 0 0#10 w) s =
       .next (s.setCore n (Claim.called c p q wi w (c.pc + 8#32))))) ∧
  (∀ (s : State) (n : Core) (ri : RegN) (disp : BitVec 21), s.ready n 4 → (s.core n).exl = false → (s.core n).pc.toNat % 4 = 0 →
     let c := s.core n
     let wi := c.rw ri
     let sp := c.rw 31 - 8#32
     let badInstance := wi.toNat % 16 ≠ 0 ∨ wi.toNat < 0x10000000 ∨ 0x4FFFFFF0 < wi.toNat
     let below := c.isX = false ∧ sp.toNat < c.stklim.toNat
     let refused := fun (v : Word) => s.map n .write v.toNat 4 = .denied
     (let r := exec (.callfb n ri disp) s
      ((c.rw 31).toNat % 8 ≠ 0 → r = .next (s.entered n 3 c.pc (c.rw 31))) ∧
      ((c.rw 31).toNat % 8 = 0 → badInstance → r = .next (s.entered n 8 c.pc wi)) ∧
      ((c.rw 31).toNat % 8 = 0 → ¬badInstance → below → r = .next (s.entered n 5 c.pc sp)) ∧
      ((c.rw 31).toNat % 8 = 0 → ¬badInstance → ¬below → refused sp → r = .next (s.entered n 5 c.pc sp)))) ∧
  (∀ (s : State) (n : Core) (p q x y : Nat), s.ready n 4 →
     let c := s.core n
     let sp := c.rw 31
     (sp.toNat % 8 = 0 → (c.rw 30).toNat % 4 = 0 → s.map n .read sp.toNat 4 = .at (.dram p) →
       s.map n .read (sp + 4#32).toNat 4 = .at (.dram q) → Claim.loads s n p 4 x → Claim.loads s n q 4 y →
       x < 2 ^ 32 → y < 2 ^ 32 → exec (.retfb n 0#20) s = .next (s.setCore n { c with
         ovlSeen := false, w := ((c.w.set 28 (BitVec.ofNat 32 x)).set 30 (BitVec.ofNat 32 y)).set 31 (sp + 8#32), pc := c.rw 30 })) ∧
     (c.exl = false → sp.toNat % 8 ≠ 0 → exec (.retfb n 0#20) s = .next (s.entered n 3 c.pc sp)) ∧
     (c.exl = false → sp.toNat % 8 = 0 → (c.rw 30).toNat % 4 ≠ 0 → exec (.retfb n 0#20) s = .next (s.entered n 3 c.pc (c.rw 30))))

/-! ## The program cores: memory -/

/-- An access of a memory instruction: the instruction, its length, its address and width, and what it does there. -/
structure Sys2Proof.Claim.Access where
  instr : Instr
  len   : Nat
  addr  : Word
  size  : Nat
  kind  : AccKind

/-- Every load, store and atomic of a core (R158, R159, R188) with the address it names. -/
def Sys2Proof.Claim.accesses (s : State) (n : Core) (rd ra rb : RegN) (imm : BitVec 16) (w : Word) : List Claim.Access :=
  let c := s.core n
  let b := c.rw ra + BitVec.ofInt 32 imm.toInt
  let x := c.rw ra + c.rw rb
  let l := c.rw ra + w
  [⟨.lb n rd ra imm, 4, b, 1, .read⟩, ⟨.lbu n rd ra imm, 4, b, 1, .read⟩, ⟨.lh n rd ra imm, 4, b, 2, .read⟩, ⟨.lhu n rd ra imm, 4, b, 2, .read⟩,
   ⟨.lw n rd ra imm, 4, b, 4, .read⟩, ⟨.flw n rd ra imm, 4, b, 4, .read⟩, ⟨.fld n rd ra imm, 4, b, 8, .read⟩,
   ⟨.sb n rd ra imm, 4, b, 1, .write⟩, ⟨.sh n rd ra imm, 4, b, 2, .write⟩, ⟨.sw n rd ra imm, 4, b, 4, .write⟩,
   ⟨.fsw n rd ra imm, 4, b, 4, .write⟩, ⟨.fsd n rd ra imm, 4, b, 8, .write⟩,
   ⟨.lwx n rd ra rb false 0#4, 4, x, 4, .read⟩, ⟨.swx n rd ra rb false 0#4, 4, x, 4, .write⟩,
   ⟨.casw n rd ra rb false 0#4, 4, c.rw ra, 4, .atomic⟩, ⟨.swapw n rd ra rb false 0#4, 4, c.rw ra, 4, .atomic⟩,
   ⟨.lwl n rd ra 0#10 w, 8, l, 4, .read⟩, ⟨.swl n rd ra 0#10 w, 8, l, 4, .write⟩]

/-- A data access whose address is no multiple of its width raises ALIGN and has no other effect (R160); one that the map does not permit
raises ACCESS, or BUSERR in the register window (R144, R163). -/
def Obligations.AccessesRefused : Prop :=
  ∀ (s : State) (n : Core) (rd ra rb : RegN) (imm : BitVec 16) (w : Word), (s.core n).exl = false →
    ∀ a ∈ Claim.accesses s n rd ra rb imm w, s.ready n a.len →
      (a.addr.toNat % a.size ≠ 0 → exec a.instr s = .next (s.entered n 3 (s.core n).pc a.addr)) ∧
      (a.addr.toNat % a.size = 0 → s.map n a.kind a.addr.toNat a.size = .denied →
        exec a.instr s = .next (s.entered n 5 (s.core n).pc a.addr)) ∧
      (a.addr.toNat % a.size = 0 → s.map n a.kind a.addr.toNat a.size = .busError → a.kind ≠ .atomic →
        exec a.instr s = .next (s.entered n 6 (s.core n).pc a.addr))

/-- A load from DRAM (R158, R159, R188, R199, R200): rd takes the bytes, sign- or zero-extended, an F register takes them with zeros above (R182); nothing else
changes but the program counter. A load that finds its bytes in buffered stores, but not all of them in the youngest that overlaps them, waits until every store up
to that one has retired, and OVLWAIT counts it once (R201, R203); here every buffered store goes to DRAM. The model marks a load whose wait has been counted, and the
mark goes with the load. -/
def Obligations.Loads : Prop :=
  (∀ (s : State) (n : Core) (rd ra rb : RegN) (imm : BitVec 16) (w : Word) (p x : Nat),
     let c := s.core n
     let b := c.rw ra + BitVec.ofInt 32 imm.toInt
     let from_ := fun (v : Word) (size : Nat) => v.toNat % size = 0 ∧ s.map n .read v.toNat size = .at (.dram p) ∧ Claim.loads s n p size x
     let unmarked := s.setCore n { c with ovlSeen := false }
     let toW := fun (v : Word) (len : Nat) => (.next (unmarked.wrote n rd v c.flags len) : Out)
     let toF := (.next (unmarked.wroteF n rd (BitVec.ofNat 64 x) 0 4) : Out)
     (s.ready n 4 →
       (from_ b 1 → exec (.lb n rd ra imm) s = toW (BitVec.ofInt 32 (BitVec.ofNat 8 x).toInt) 4) ∧
       (from_ b 1 → exec (.lbu n rd ra imm) s = toW (BitVec.ofNat 32 x) 4) ∧
       (from_ b 2 → exec (.lh n rd ra imm) s = toW (BitVec.ofInt 32 (BitVec.ofNat 16 x).toInt) 4) ∧
       (from_ b 2 → exec (.lhu n rd ra imm) s = toW (BitVec.ofNat 32 x) 4) ∧
       (from_ b 4 → exec (.lw n rd ra imm) s = toW (BitVec.ofNat 32 x) 4) ∧
       (from_ b 4 → exec (.flw n rd ra imm) s = toF) ∧ (from_ b 8 → exec (.fld n rd ra imm) s = toF) ∧
       (from_ (c.rw ra + c.rw rb) 4 → exec (.lwx n rd ra rb false 0#4) s = toW (BitVec.ofNat 32 x) 4)) ∧
     (s.ready n 8 → from_ (c.rw ra + w) 4 → exec (.lwl n rd ra 0#10 w) s = toW (BitVec.ofNat 32 x) 8)) ∧
  (∀ (s : State) (n : Core) (rd ra : RegN) (imm : BitVec 16) (p : Nat) (older younger : List StoreEntry) (e : StoreEntry),
     let c := s.core n
     let v := c.rw ra + BitVec.ofInt 32 imm.toInt
     s.ready n 4 → v.toNat % 4 = 0 → s.map n .read v.toNat 4 = .at (.dram p) → s.chip.poisoned p 4 = false →
     c.sb = older ++ e :: younger → (∀ y ∈ c.sb, ∃ a, y.place = .dram a) → e.overlaps (.dram p) 4 = true →
     e.contains (.dram p) 4 = false → (∀ y ∈ younger, y.overlaps (.dram p) 4 = false) → c.ovlwait + 1 < 2 ^ 64 →
     ∃ t, exec (.lw n rd ra imm) s = .next t ∧ (t.core n).sb = younger ∧
       (t.core n).ovlwait = (if c.ovlSeen then c.ovlwait else c.ovlwait + 1) ∧ (t.core n).ovlSeen = false ∧
       (t.core n).rw rd = (if rd = 0 then 0#32 else BitVec.ofNat 32 (memRead t.mem 4 p)) ∧ (t.core n).pc = c.pc + 4#32 ∧
       (∀ r, r ≠ rd → (t.core n).rw r = c.rw r) ∧ t.chip = s.chip ∧ t.pending = s.pending ∧
       ∀ i, (∀ y ∈ older ++ [e], ∀ a, y.place = .dram a → i < a ∨ a + y.size ≤ i) → memByte t.mem i = memByte s.mem i)

/-- A store enters the store buffer with its place, width and data (R158, R159, R188, R198): memory, the registers and the flags stay as they are. STORE_RETIRE takes
the head entry (R851): a store to DRAM writes its bytes there and no other byte, one to the output image writes that image alone; the other entries keep their order. -/
def Obligations.Stores : Prop :=
  (∀ (s : State) (n : Core) (rd ra rb : RegN) (imm : BitVec 16) (w : Word) (p : Place), (∀ o, p ≠ .loc o) → (s.core n).sb.length < 16 →
     let c := s.core n
     let b := c.rw ra + BitVec.ofInt 32 imm.toInt
     let to_ := fun (v : Word) (size : Nat) => v.toNat % size = 0 ∧ s.map n .write v.toNat size = .at p
     let put := fun (v : Word) (size data len : Nat) => (.next (s.setCore n { c with
       sb := c.sb ++ [⟨p, v, size, data, none⟩], pc := c.pc + BitVec.ofNat 32 len
       codeWr := if v.toNat < 0x10000000 then c.codeWr ++ [(c.pc, v.toNat)] else c.codeWr }) : Out)
     (s.ready n 4 →
       (to_ b 1 → exec (.sb n rd ra imm) s = put b 1 ((c.rw rd).toNat % 256) 4) ∧
       (to_ b 2 → exec (.sh n rd ra imm) s = put b 2 ((c.rw rd).toNat % 65536) 4) ∧
       (to_ b 4 → exec (.sw n rd ra imm) s = put b 4 (c.rw rd).toNat 4) ∧
       (to_ b 4 → exec (.fsw n rd ra imm) s = put b 4 (c.f[rd].toNat % 2 ^ 32) 4) ∧
       (to_ b 8 → exec (.fsd n rd ra imm) s = put b 8 c.f[rd].toNat 4) ∧
       (to_ (c.rw ra + c.rw rb) 4 → exec (.swx n rd ra rb false 0#4) s = put (c.rw ra + c.rw rb) 4 (c.rw rd).toNat 4)) ∧
     (s.ready n 8 → to_ (c.rw ra + w) 4 → exec (.swl n rd ra 0#10 w) s = put (c.rw ra + w) 4 (c.rw rd).toNat 8)) ∧
  (∀ (s : State) (n : Core) (e : StoreEntry) (es : List StoreEntry), s.chip.islandOn n.val = true → (s.core n).sb = e :: es →
     (∀ a, e.place = .dram a → ∃ t, exec (.storeRetire n) s = .next t ∧ t.chip = s.chip ∧ t.pending = s.pending ∧
       t.core n = { s.core n with sb := es } ∧ (∀ k, k ≠ n → t.core k = s.core k) ∧ memRead t.mem e.size a = e.data % 256 ^ e.size ∧
       ∀ i, i < a ∨ a + e.size ≤ i → memByte t.mem i = memByte s.mem i) ∧
     (∀ o, e.place = .outImg o → ∃ t, exec (.storeRetire n) s = .next t ∧ t.mem = s.mem ∧ t.pending = s.pending ∧
       t.core n = { s.core n with sb := es } ∧ (∀ k, k ≠ n → t.core k = s.core k) ∧ t.chip = s.chip.putImage n o e))

/-- CASW and SWAPW once the store buffer is empty (R159, R162): the word is read and written in one step, CASW sets Z alone of the flags; outside instance
data they raise ACCESS. -/
def Obligations.AtomicsSwap : Prop :=
  ∀ (s : State) (n : Core) (rd ra rb : RegN) (p : Nat), s.ready n 4 →
    let c := s.core n
    let v := c.rw ra
    let old := BitVec.ofNat 32 (memRead s.mem 4 p)
    let after := fun (z : Bool) (new : Word) => (.next ({ s with mem := memWrite s.mem 4 p new.toNat }.setCore n
      { c.ww rd old with flags := { c.flags with z := z }, pc := c.pc + 4#32 }) : Out)
    (v.toNat % 4 = 0 → c.sb = [] → s.map n .atomic v.toNat 4 = .at (.dram p) → s.chip.poisoned p 4 = false →
      (old = c.rw rd → exec (.casw n rd ra rb false 0#4) s = after true (c.rw rb)) ∧
      (old ≠ c.rw rd → exec (.casw n rd ra rb false 0#4) s = after false old) ∧
      exec (.swapw n rd ra rb false 0#4) s = after c.flags.z (c.rw rb)) ∧
    (v.toNat % 4 = 0 → c.exl = false → v.toNat < 0x10000000 ∨ 0x50000000 ≤ v.toNat →
      exec (.casw n rd ra rb false 0#4) s = .next (s.entered n 5 c.pc v) ∧
      exec (.swapw n rd ra rb false 0#4) s = .next (s.entered n 5 c.pc v))

/-! ## The program cores: timers -/

/-- The slot that a TMR operand names (R173, R222). -/
def Sys2Proof.Claim.slotNamed (c : CoreSt) (a : Word) (i : Nat) : Prop :=
  (c.isX = true ∧ i = a.toNat ∧ i < 2048) ∨
  (c.isX = false ∧ a.toNat < (c.tmrwin.toNat / 65536) % 4096 ∧ i = c.tmrwin.toNat % 2048 + a.toNat ∧ i < 2048)

/-- A slot once every tick up to an instant has been counted (R174): the ticks are the multiples of 1 µs, from the first that lies 1 µs or more after the instant from
which the slot counts; a count that reaches 0 sets done and stops the slot. -/
def Sys2Proof.Claim.counted (t : Slot) (now : Nat) : Slot :=
  let ticks := now / 1000 - (t.since + 999) / 1000
  if t.running = false ∨ (ticks = 0 ∧ 0 < t.remaining) then t
  else if t.remaining ≤ ticks then ⟨0, true, false, t.since⟩
  else ⟨t.remaining - ticks, t.done, true, now / 1000 * 1000⟩

/-- EDGE on a state byte in DRAM (R171): prev is bit 0 of the byte, cur says whether ra is not 0; rd and Z by the kind, and the new state byte stored; kind 3 is
ILLEGAL. TSTART, TSTOP, TREAD and TDONE on the slot that ra names (R173), after every tick up to their own instant (R175), and TIMER where ra names none (R173, R222).
The ticks of the timers (R174): each running slot of a core with its clock counts down by one at each from the first tick at least 1 µs after its TSTART; at 0 it is
done and stops; the cores change in nothing else. -/
def Obligations.EdgesAndTimers : Prop :=
  (∀ (s : State) (n : Core) (rd ra : RegN) (off : BitVec 14) (p x : Nat), s.ready n 4 →
     let c := s.core n
     let v := c.rw 28 + BitVec.ofNat 32 off.toNat
     let prev := decide (x % 2 = 1)
     let cur := decide (c.rw ra ≠ 0#32)
     let imm := fun (kind : Nat) => BitVec.ofNat 16 (kind * 16384 + off.toNat)
     let after := fun (r : Bool) => (.next (s.setCore n { c.ww rd (if r then 1#32 else 0#32) with
       ovlSeen := false, flags := { c.flags with z := !r }, pc := c.pc + 4#32, sb := c.sb ++ [⟨.dram p, v, 1, if cur then 1 else 0, none⟩]
       codeWr := if v.toNat < 0x10000000 then c.codeWr ++ [(c.pc, v.toNat)] else c.codeWr }) : Out)
     (s.map n .read v.toNat 1 = .at (.dram p) → s.map n .write v.toNat 1 = .at (.dram p) → Claim.loads s n p 1 x → c.sb.length < 16 →
       exec (.edge n rd ra (imm 0)) s = after (!prev && cur) ∧ exec (.edge n rd ra (imm 1)) s = after (prev && !cur) ∧
       exec (.edge n rd ra (imm 2)) s = after (prev != cur)) ∧
     (c.exl = false → ∃ word, exec (.edge n rd ra (imm 3)) s = .next (s.entered n 1 c.pc word))) ∧
  (∀ (s : State) (n : Core) (rd ra rb : RegN) (i : Nat), s.ready n 4 →
     let c := s.core n
     let t := Claim.counted (mapGet Slot.idle c.timers i) s.chip.mono
     let after := fun (r : Word) (z : Bool) (slot : Slot) => (.next (s.setCore n { c.ww rd r with
       flags := { c.flags with z := z }, pc := c.pc + 4#32, timers := mapSet Slot.idle c.timers i slot }) : Out)
     (Claim.slotNamed c (c.rw ra) i →
       exec (.tstart n rd ra rb false 0#4) s =
         after 0#32 c.flags.z ⟨(c.rw rb).toNat, c.rw rb == 0#32, c.rw rb != 0#32, s.chip.mono⟩ ∧
       exec (.tstop n rd ra rb false 0#4) s =
         after (BitVec.ofNat 32 t.remaining) c.flags.z { t with running := false } ∧
       exec (.tread n rd ra rb false 0#4) s = after (BitVec.ofNat 32 t.remaining) c.flags.z t ∧
       exec (.tdone n rd ra rb false 0#4) s = after (if t.done then 1#32 else 0#32) (!t.done) t) ∧
     (c.exl = false → (∀ j, ¬Claim.slotNamed c (c.rw ra) j) →
       ∀ x ∈ [Instr.tstart n rd ra rb false 0#4, .tstop n rd ra rb false 0#4, .tread n rd ra rb false 0#4, .tdone n rd ra rb false 0#4],
         exec x s = .next (s.entered n 9 c.pc (c.rw ra)))) ∧
  (∀ (s : State) (n : Core) (i : Fin 2048),
     let t := mapGet Slot.idle (s.core n).timers i.val
     (∃ u, exec .timerTick s = .next u ∧ u.mem = s.mem ∧ u.chip = s.chip ∧ u.pending = s.pending ∧
       u.core n = { s.core n with timers := (u.core n).timers } ∧
       mapGet Slot.idle (u.core n).timers i.val = (if (s.core n).stopped = none then Claim.counted t s.chip.mono else t)) ∧
     (t.running = true → (s.core n).stopped = none → t.remaining ≤ s.chip.mono / 1000 - (t.since + 999) / 1000 →
       exec (.timerSlotDone n i) s = .next (s.setCore n { s.core n with
         timers := mapSet Slot.idle (s.core n).timers i.val ⟨0, true, false, t.since⟩ })))

/-- PIL and PIS within the image (R177, R179): each width of R177 reads its bytes of the input image, or puts its bytes, or one bit, into the store buffer for the
output image. An image offset that is no multiple of the width raises ALIGN, one beyond the last unit of the image IMAGE, both with the offset in EADDR (R178, R212,
R213); width codes 6 and 7, and the signed widths of PIS, are ILLEGAL (R177). -/
def Obligations.ProcessImageAccesses : Prop :=
  (∀ (s : State) (n : Core) (rd ra : RegN) (off : BitVec 13), s.ready n 4 → (s.core n).isX = true →
     let c := s.core n
     let o := c.rw ra + BitVec.ofNat 32 off.toNat
     let imm := fun (code : Nat) => BitVec.ofNat 16 (code * 8192 + off.toNat)
     let x := fun (size at_ : Nat) => bytesFrom s.chip.img.inF size (n.val * 0x40000 + at_)
     let get := fun (code : Nat) (v : Word) => exec (.pil n rd ra (imm code)) s = .next (s.wrote n rd v c.flags 4)
     let put := fun (code at_ size data : Nat) (bit : Option Nat) => exec (.pis n rd ra (imm code)) s = .next (s.setCore n { c with
       sb := c.sb ++ [⟨.outImg at_, BitVec.ofNat 32 (0x60040000 + at_), size, data, bit⟩], pc := c.pc + 4#32 })
     (o.toNat < 0x200000 → get 0 (BitVec.ofNat 32 (x 1 (o.toNat / 8) / 2 ^ (o.toNat % 8) % 2)) ∧
       (c.sb.length < 16 → put 0 (o.toNat / 8) 1 ((c.rw rd).toNat % 256) (some (o.toNat % 8)))) ∧
     (o.toNat < 0x40000 → get 1 (BitVec.ofNat 32 (x 1 o.toNat)) ∧ get 2 (BitVec.ofInt 32 (BitVec.ofNat 8 (x 1 o.toNat)).toInt) ∧
       (c.sb.length < 16 → put 1 o.toNat 1 ((c.rw rd).toNat % 256) none)) ∧
     (o.toNat < 0x40000 → o.toNat % 2 = 0 → get 3 (BitVec.ofNat 32 (x 2 o.toNat)) ∧
       get 4 (BitVec.ofInt 32 (BitVec.ofNat 16 (x 2 o.toNat)).toInt) ∧ (c.sb.length < 16 → put 3 o.toNat 2 ((c.rw rd).toNat % 65536) none)) ∧
     (o.toNat < 0x40000 → o.toNat % 4 = 0 → get 5 (BitVec.ofNat 32 (x 4 o.toNat)) ∧ (c.sb.length < 16 → put 5 o.toNat 4 (c.rw rd).toNat none))) ∧
  (∀ (s : State) (n : Core) (rd ra : RegN) (off : BitVec 13) (code : Fin 8), s.ready n 4 → (s.core n).exl = false →
     let c := s.core n
     let o := c.rw ra + BitVec.ofNat 32 off.toNat
     let imm := BitVec.ofNat 16 (code.val * 8192 + off.toNat)
     let unit := if code.val ≤ 2 then 1 else if code.val ≤ 4 then 2 else 4
     let last := if code.val = 0 then 0x200000 else 0x40000
     let pil := exec (.pil n rd ra imm) s
     let pis := exec (.pis n rd ra imm) s
     let pisOk := code.val = 0 ∨ code.val = 1 ∨ code.val = 3 ∨ code.val = 5
     (code.val ≤ 5 → o.toNat % unit ≠ 0 → pil = .next (s.entered n 3 c.pc o)) ∧
     (code.val ≤ 5 → o.toNat % unit = 0 → last ≤ o.toNat → pil = .next (s.entered n 10 c.pc o)) ∧
     (pisOk → o.toNat % unit ≠ 0 → pis = .next (s.entered n 3 c.pc o)) ∧
     (pisOk → o.toNat % unit = 0 → last ≤ o.toNat → pis = .next (s.entered n 10 c.pc o)) ∧
     (5 < code.val → ∃ w, pil = .next (s.entered n 1 c.pc w)) ∧ (¬pisOk → ∃ w, pis = .next (s.entered n 1 c.pc w)))

/-! ## The program cores: waiting for stores, exceptions, interrupts -/

/-- The core after the BUSERR of a failed store (R211, R216). -/
def Sys2Proof.Claim.imprecise (s : State) (n : Core) (a : Word) : State :=
  let c := s.core n
  { s with chip := { s.chip with impErrs := s.chip.impErrs.erase (n.val, a) } }.setCore n { c with
    ovlSeen := false, epc := c.pc, ecause := 0x40000006#32, eaddr := a, pc := c.vbase
    cstatus := BitVec.ofNat 32 (17 + (if c.cstatus.getLsbD 0 then 4 else 0) + (if c.cstatus.getLsbD 1 then 8 else 0)) }

/-- DSYNC, FENCE, ISYNC, and CYEND at level T complete once the core's stores have taken effect (R68, R180, R190 to R192): here every buffered store goes to DRAM, no
register write of the core is under way, FX holds no store of it and none has failed; FENCE and CYEND wait too while an acknowledgement finds no room in its ring (R74). The buffer is then empty and memory holds the stores in their order. A store of
a core that failed after it left the buffer raises BUSERR before DSYNC, FENCE, ISYNC and CYEND (R211), with the address of that instruction in EPC and the store's in
EADDR; IMPRECISE_BUSERR raises it at the instruction boundary. -/
def Obligations.Synchronisation : Prop :=
  (∀ (s : State) (n : Core), s.ready n 4 → (∀ e ∈ (s.core n).sb, ∃ a, e.place = .dram a) → s.chip.writesOut n.val = [] →
     s.chip.windowStores n = false → (∀ e ∈ s.chip.impErrs, e.1 ≠ n.val) →
     let c := s.core n
     let stored := (c.sb.foldl (fun (m : List Host.Cell) e => match e.place with
       | .dram a => memWrite m e.size a e.data
       | _ => m) s.mem)
     let after := fun (chip : Chip) (d : CoreSt) => (.next ({ s with mem := stored, chip := chip }.setCore n d) : Out)
     let done := { c with sb := [], pc := c.pc + 4#32 }
     exec (.dsync n 0#20) s = after s.chip done ∧
     (s.chip.ackHeld n.val = false → exec (.fence n 0#20) s = after (s.chip.dropAcks n.val) done) ∧
     (s.chip.ackHeld n.val = true → exec (.fence n 0#20) s = after s.chip { c with sb := [] }) ∧
     exec (.isync n 0#20) s = after s.chip { done with codeWr := [] } ∧
     (c.isX = false → c.exl = false → s.chip.ackHeld n.val = false → exec (.cyend n 0#20) s = after (s.chip.dropAcks n.val) { c with
       ovlSeen := false, sb := [], epc := c.pc + 4#32, ecause := 14#32, eaddr := 0#32, pc := c.vbase
       cstatus := BitVec.ofNat 32 (17 + (if c.cstatus.getLsbD 1 then 8 else 0)) }) ∧
     (c.isX = true → c.exl = false → ∃ w, exec (.cyend n 0#20) s = .next (s.entered n 1 c.pc w))) ∧
  (∀ (s : State) (n : Core) (a : Word) (older younger : List (Nat × Word)), s.ready n 4 → (s.core n).exl = false →
     s.chip.impErrs = older ++ (n.val, a) :: younger → (∀ e ∈ older, e.1 ≠ n.val) →
     let next := (.next (Claim.imprecise s n a) : Out)
     exec (.dsync n 0#20) s = next ∧ exec (.fence n 0#20) s = next ∧ exec (.isync n 0#20) s = next ∧
     ((s.core n).isX = false → exec (.cyend n 0#20) s = next) ∧ exec (.impreciseBuserr n) s = next)

/-- SVC, BRK and ERET (R212, R216, R217): the two exceptions with their EPC and EADDR; ERET restores level, IE and EXL at level X and is PRIV at level T. The program
counter after ERET is EPC with bits 1:0 cleared (log entry 6). An exception or an interrupt while EXL = 1 halts the core, and the core then executes nothing (R216,
R218). INTERRUPT_ENTRY (R214 to R216): at level T, or at level X with IE = 1, DISPATCH before DOORBELL; the interrupt taken is no longer pending. Otherwise nothing
happens. CORE_RELEASE (R143): a core that a reset left held starts at the entry address of the verified image, at level X with IE = 0. -/
def Obligations.ExceptionsAndInterrupts : Prop :=
  (∀ (s : State) (n : Core) (op : BitVec 20), s.ready n 4 →
     let c := s.core n
     (c.exl = false → exec (.svc n op) s = .next (s.entered n 12 (c.pc + 4#32) (BitVec.ofNat 32 op.toNat))) ∧
     (c.exl = false → exec (.brk n op) s = .next (s.entered n 13 c.pc (BitVec.ofNat 32 op.toNat))) ∧
     (c.isX = true → ∃ st : Word, exec (.eret n 0#20) s = .next (s.setCore n { c with cstatus := st, pc := c.epc &&& 0xFFFFFFFC#32 }) ∧
       st.getLsbD 0 = c.cstatus.getLsbD 2 ∧ st.getLsbD 1 = c.cstatus.getLsbD 3 ∧ st.getLsbD 2 = c.cstatus.getLsbD 2 ∧
       st.getLsbD 3 = c.cstatus.getLsbD 3 ∧ st.toNat < 16) ∧
     (c.isX = false → c.exl = false → exec (.eret n 0#20) s = .next (s.entered n 2 c.pc 0#32))) ∧
  (∀ (s : State) (n : Core) (op : BitVec 20) (i : Instr), (s.core n).exl = true → s.ready n 4 →
     exec (.svc n op) s = .next (s.setCore n { s.core n with run := .dead }) ∧
     exec (.brk n op) s = .next (s.setCore n { s.core n with run := .dead }) ∧
     (i ∈ [Instr.svc n op, .brk n op, .eret n 0#20, .dsync n 0#20, .jmp n 0#26, .interruptEntry n, .impreciseBuserr n] →
       ∀ t : State, (t.core n).run = .dead → exec i t = .next t)) ∧
  (∀ (s : State) (n : Core), s.ready n 4 → (s.core n).exl = false → (∀ e ∈ s.chip.impErrs, e.1 ≠ n.val) →
     let c := s.core n
     let taken := fun (chip : Chip) (code : Nat) => (.next ({ s with chip := chip }.setCore n { c with
       ovlSeen := false, epc := c.pc, ecause := BitVec.ofNat 32 (2 ^ 31 + code), eaddr := 0#32, pc := c.vbase
       cstatus := BitVec.ofNat 32 (17 + (if c.cstatus.getLsbD 0 then 4 else 0) + (if c.cstatus.getLsbD 1 then 8 else 0)) }) : Out)
     let may := c.isX = false ∨ c.ie = true
     (may → n.val ∈ s.chip.dispatchIrq →
       exec (.interruptEntry n) s = taken { s.chip with dispatchIrq := s.chip.dispatchIrq.erase n.val } 0) ∧
     (may → n.val ∉ s.chip.dispatchIrq → n.val ∈ s.chip.doorbellIrq →
       exec (.interruptEntry n) s = taken { s.chip with doorbellIrq := s.chip.doorbellIrq.erase n.val } 1) ∧
     (¬may ∨ (n.val ∉ s.chip.dispatchIrq ∧ n.val ∉ s.chip.doorbellIrq) → exec (.interruptEntry n) s = .next s)) ∧
  (∀ (s : State) (n : Core), (s.core n).run = .held → s.chip.sec.image ≠ [] → s.chip.islandOn n.val = true →
     ∃ st : Word, exec (.coreRelease n) s = .next (s.setCore n { s.core n with
       run := .running, pc := s.chip.entry &&& 0xFFFFFFFC#32, cstatus := st, start := s.chip.now }) ∧
       st.getLsbD 0 = true ∧ st.getLsbD 1 = false)

/-! ## The program cores: encodings that are not allowed -/

/-- An instruction with a reserved field that is not 0, or a reserved value of a field, raises ILLEGAL with no other effect (R152, R210, R212). An instruction that
cannot be fetched raises FETCH with its address in EPC and EADDR (R144, R167, R212); where only the second word of a long form cannot, EPC holds the first word's
address and EADDR the second's (R189). -/
def Obligations.FetchesAndFieldsRefused : Prop :=
  (∀ (s : State) (n : Core) (rd ra rb : RegN) (x : BitVec 4) (imm : BitVec 16) (zero : BitVec 10) (w : Word) (op : BitVec 20),
     (s.core n).exl = false →
     let forms : List (Instr × Nat) :=
       (if x ≠ 0#4 then
         [(.add n rd ra rb false x, 4), (.sub n rd ra rb true x, 4), (.mtf n 0 ra 0 false x, 4), (.lwx n rd ra rb false x, 4), (.casw n rd ra rb false x, 4),
          (.tstart n rd ra rb false x, 4), (.fadd n rd ra rb false x, 4), (.fcmp n 0 ra rb true x, 4)] else []) ++
       (if rb ≠ 0 then [(.clz n rd ra rb false 0#4, 4), (.sextb n rd ra rb true 0#4, 4), (.mff n rd 0 rb false 0#4, 4), (.fsqrt n rd ra rb false 0#4, 4),
          (.fabs n rd ra rb true 0#4, 4)] else []) ++
       (if rd ≠ 0 then [(.cmpi n rd ra imm, 4), (.mtf n rd ra 0 false 0#4, 4), (.fcmp n rd ra rb false 0#4, 4), (.cmpl n rd ra 0#10 w, 8)] else []) ++
       (if ra ≠ 0 then [(.lui n rd ra imm, 4), (.li n rd ra 0#10 w, 8), (.jl n rd ra 0#10 w, 8), (.callfbl n rd ra 0#10 w, 8), (.fli n rd ra 0#10 w, 8)] else []) ++
       (if zero ≠ 0#10 then [(.addl n rd ra zero w, 8), (.lwl n rd ra zero w, 8), (.swl n rd ra zero w, 8)] else []) ++
       (if op ≠ 0#20 then [(.retfb n op, 4), (.dsync n op, 4), (.fence n op, 4), (.isync n op, 4), (.eret n op, 4), (.cyend n op, 4)] else []) ++
       (if 128 ≤ imm.toNat then [(.shi n rd ra imm, 4)] else []) ++
       (if 1 < rb.val then [(.fcvtIf n rd ra rb false 0#4, 4), (.fcvtUf n rd ra rb true 0#4, 4)] else []) ++
       [(.bcc n 0xF#4 0#22, 4), (.csel n rd ra rb false 0xF#4, 4), (.csel n rd ra rb true x, 4), (.fmvFw n rd ra rb true 0#4, 4)] ++
       (if instrOf n w 0#32 = none then [(.illegalInstruction n w, lenOf w)] else [])
     ∀ i ∈ forms, s.ready n i.2 → ∃ word, exec i.1 s = .next (s.entered n 1 (s.core n).pc word)) ∧
  (∀ (n : Core) (w i : Word), instrOf n 0#32 i = none ∧ (w.toNat / 2 ^ 26 ∈ [0x00, 0x0B, 0x0F, 0x1C, 0x1F, 0x2A, 0x2F, 0x31, 0x3E] → instrOf n w i = none) ∧
     (w.toNat / 2 ^ 26 = 0x29 → 8 ≤ w.toNat % 64 → instrOf n w i = none) ∧ instrOf n 0x18000000#32 i = some (.ori n 0 0 0#16)) ∧
  (∀ (s : State) (n : Core) (rd ra rb : RegN) (disp : BitVec 26) (w : Word),
     let c := s.core n
     c.run = .running → c.wait = none → s.chip.islandOn n.val = true → c.exl = false →
     (s.fetchable n c.pc = false → ∀ i ∈ [Instr.add n rd ra rb false 0#4, .jmp n disp, .lw n rd ra 0#16, .sw n rd ra 0#16, .dsync n 0#20,
         .li n rd 0 0#10 w, .jl n rd 0 0#10 w], exec i s = .next (s.entered n 4 c.pc c.pc)) ∧
     (s.fetchable n c.pc = true → s.fetchable n (c.pc + 4#32) = false →
       ∀ i ∈ [Instr.li n rd 0 0#10 w, .addl n rd ra 0#10 w, .lwl n rd ra 0#10 w, .swl n rd ra 0#10 w, .jl n rd 0 0#10 w, .fli n rd 0 0#10 w],
         exec i s = .next (s.entered n 4 c.pc (c.pc + 4#32))))

/-- The words of the instruction set (R149 to R154, R157 to R159, R164, R173, R181, R188, R219): for every value of their fields, the words that the forms and the tables of codes give an
instruction spell that instruction and no other; a long form is two words, every other one word. -/
def Obligations.InstructionWords : Prop :=
  ∀ (n : Core) (rd ra rb : RegN) (st : Bool) (imm : BitVec 16) (cond : BitVec 4) (disp : BitVec 22) (rel : BitVec 26) (fb : BitVec 21) (op : BitVec 20) (k : Word),
    let word := fun (major rest : Nat) => BitVec.ofNat 32 (major * 2 ^ 26 + rest)
    let regs := fun (d a b : RegN) => d.val * 2 ^ 21 + a.val * 2 ^ 16 + b.val * 2 ^ 11
    let formA := fun (major fn : Nat) (d a b : RegN) (s : Bool) (x : Nat) => word major (regs d a b + (if s then 2 ^ 10 else 0) + x * 2 ^ 6 + fn)
    let formB := fun (major : Nat) (d a : RegN) (i : BitVec 16) => word major (regs d a 0 + i.toNat)
    let formL := fun (lop : Nat) (d a : RegN) => word 0x3F (lop * 2 ^ 20 + d.val * 2 ^ 15 + a.val * 2 ^ 10)
    let one := fun (w : Word) (i : Instr) => instrOf n w k = some i ∧ lenOf w = 4
    let two := fun (w : Word) (i : Instr) => instrOf n w k = some i ∧ lenOf w = 8
    (∀ p ∈ ([(0x00, .add), (0x01, .sub), (0x02, .adc), (0x03, .sbc), (0x04, .and), (0x05, .or), (0x06, .xor), (0x07, .andn), (0x08, .shl), (0x09, .shr), (0x0A, .sar),
      (0x0B, .ror), (0x0C, .mul), (0x0D, .mulhs), (0x0E, .mulhu), (0x10, .div), (0x11, .divu), (0x12, .rem), (0x13, .remu), (0x14, .min), (0x15, .max), (0x16, .minu),
      (0x17, .maxu)] : List (Nat × MakeA)),
      one (formA 0x01 p.1 rd ra rb st 0) (p.2 n rd ra rb st 0#4)) ∧
    (∀ p ∈ ([(0x18, .clz), (0x19, .sextb), (0x1A, .sexth)] : List (Nat × MakeA)), one (formA 0x01 p.1 rd ra 0 st 0) (p.2 n rd ra 0 st 0#4)) ∧
    (cond ≠ 0xF#4 → one (formA 0x01 0x1B rd ra rb false cond.toNat) (.csel n rd ra rb false cond) ∧
      one (word 0x20 (cond.toNat * 2 ^ 22 + disp.toNat)) (.bcc n cond disp)) ∧
    one (formA 0x01 0x1C rd 0 0 false 0) (.mff n rd 0 0 false 0#4) ∧ one (formA 0x01 0x1D 0 ra 0 false 0) (.mtf n 0 ra 0 false 0#4) ∧
    (∀ p ∈ ([(0x0A, 0x00, .lwx), (0x0A, 0x01, .swx), (0x0A, 0x02, .casw), (0x0A, 0x03, .swapw), (0x26, 0x00, .tstart), (0x26, 0x01, .tstop), (0x26, 0x02, .tread),
      (0x26, 0x03, .tdone), (0x30, 0x11, .fmvFw), (0x30, 0x12, .fmvWf), (0x30, 0x13, .fmvWfh), (0x30, 0x14, .fmvFwh)] : List (Nat × Nat × MakeA)),
      one (formA p.1 p.2.1 rd ra rb false 0) (p.2.2 n rd ra rb false 0#4)) ∧
    (∀ p ∈ ([(0x00, .fadd), (0x01, .fsub), (0x02, .fmul), (0x03, .fdiv), (0x05, .fma), (0x06, .fmin), (0x07, .fmax), (0x0C, .fcvtF), (0x0D, .fcvtFi), (0x0E, .fcvtFu)] : List (Nat × MakeA)),
      one (formA 0x30 p.1 rd ra rb st 0) (p.2 n rd ra rb st 0#4)) ∧
    (∀ p ∈ ([(0x04, .fsqrt), (0x08, .fabs), (0x09, .fneg)] : List (Nat × MakeA)), one (formA 0x30 p.1 rd ra 0 st 0) (p.2 n rd ra 0 st 0#4)) ∧
    one (formA 0x30 0x0A 0 ra rb st 0) (.fcmp n 0 ra rb st 0#4) ∧
    (rb.val < 2 → one (formA 0x30 0x0F rd ra rb st 0) (.fcvtIf n rd ra rb st 0#4) ∧ one (formA 0x30 0x10 rd ra rb st 0) (.fcvtUf n rd ra rb st 0#4)) ∧
    (∀ p ∈ ([(0x02, .addi), (0x03, .addis), (0x05, .andi), (0x06, .ori), (0x07, .xori), (0x10, .lb), (0x11, .lbu), (0x12, .lh), (0x13, .lhu), (0x14, .lw), (0x15, .sb),
      (0x16, .sh), (0x17, .sw), (0x18, .flw), (0x19, .fld), (0x1A, .fsw), (0x1B, .fsd), (0x23, .jalr)] : List (Nat × MakeB)),
      one (formB p.1 rd ra imm) (p.2 n rd ra imm)) ∧
    one (formB 0x04 0 ra imm) (.cmpi n 0 ra imm) ∧ one (formB 0x09 rd 0 imm) (.lui n rd 0 imm) ∧
    (imm.toNat < 128 → one (formB 0x08 rd ra imm) (.shi n rd ra imm)) ∧ (imm.toNat / 2 ^ 14 ≠ 3 → one (formB 0x25 rd ra imm) (.edge n rd ra imm)) ∧
    (imm.toNat / 2 ^ 13 ≤ 5 → one (formB 0x27 rd ra imm) (.pil n rd ra imm)) ∧
    (imm.toNat / 2 ^ 13 ∈ [0, 1, 3, 5] → one (formB 0x28 rd ra imm) (.pis n rd ra imm)) ∧
    one (word 0x21 rel.toNat) (.jmp n rel) ∧ one (word 0x22 rel.toNat) (.call n rel) ∧ one (word 0x24 (ra.val * 2 ^ 21 + fb.toNat)) (.callfb n ra fb) ∧
    (∀ p ∈ ([(0x00, .cyend), (0x01, .isync), (0x02, .dsync), (0x03, .fence), (0x04, .retfb), (0x07, .eret)] : List (Nat × MakeD)), one (word 0x29 p.1) (p.2 n 0#20)) ∧
    one (word 0x29 (op.toNat * 2 ^ 6 + 0x05)) (.svc n op) ∧ one (word 0x29 (op.toNat * 2 ^ 6 + 0x06)) (.brk n op) ∧
    (∀ p ∈ ([(0x02, .addl), (0x03, .andl), (0x04, .orl), (0x05, .xorl), (0x07, .lwl), (0x08, .swl)] : List (Nat × MakeL)), two (formL p.1 rd ra) (p.2 n rd ra 0#10 k)) ∧
    (∀ p ∈ ([(0x01, .li), (0x09, .jl), (0x0A, .callfbl), (0x0B, .fli)] : List (Nat × MakeL)), two (formL p.1 rd 0) (p.2 n rd 0 0#10 k)) ∧
    two (formL 0x06 0 ra) (.cmpl n 0 ra 0#10 k)

/-! ## The program cores: floating point -/

/-- The FPU group's answer for a result and the exceptions it signals (R187): the sticky flags, and rd, or FPE with rd as it was where a trap is enabled. -/
def Sys2Proof.Claim.fpNext (s : State) (n : Core) (rd : RegN) (o : FOut) : Out :=
  let c := s.core n
  let fcsr := c.fcsr ||| BitVec.ofNat 32 (o.ex * 16)
  if (c.fcsr.toNat / 4096 % 32) &&& o.ex = 0 then .next (s.wroteF n rd (BitVec.ofNat 64 o.bits) o.ex 4)
  else .next ((s.setCore n { c with fcsr := fcsr }).entered n 11 c.pc 0#32)

/-- An instruction of the FPU group that produces a NaN produces the canonical quiet NaN of its format (R183). -/
def Obligations.CanonicalNaN : Prop :=
  ∀ (s : State) (n : Core) (rd ra rb : RegN) (st : Bool), s.ready n 4 → (s.core n).fcsr.toNat / 4096 % 32 = 0 →
    let isNaN := fun (x : DWord) => if st then (x.toNat / 2 ^ 52 % 2048 = 2047 ∧ x.toNat % 2 ^ 52 ≠ 0)
      else (x.toNat / 2 ^ 23 % 256 = 255 ∧ x.toNat % 2 ^ 23 ≠ 0)
    ∀ i ∈ [Instr.fadd n rd ra rb st 0#4, .fsub n rd ra rb st 0#4, .fmul n rd ra rb st 0#4, .fdiv n rd ra rb st 0#4, .fsqrt n rd ra 0 st 0#4,
        .fma n rd ra rb st 0#4, .fmin n rd ra rb st 0#4, .fmax n rd ra rb st 0#4, .fabs n rd ra 0 st 0#4, .fneg n rd ra 0 st 0#4,
        .fcvtF n rd ra rb st 0#4, .fcvtFi n rd ra rb st 0#4, .fcvtFu n rd ra rb st 0#4],
      ∃ t, exec i s = .next t ∧ (isNaN (t.core n).f[rd] →
        (t.core n).f[rd] = if st then 0x7FF8000000000000#64 else 0x7FC00000#64)

/-- The computing instructions of the FPU group (R181, R182, R187) in either format, in terms of the exact arithmetic of Machine/Float: operands from the low bits of
their F registers, results with zeros above. FABS, FNEG, the moves and FLI on the bits (R181, R182, R188), for operands of FABS and FNEG that are no NaN; FCMP sets
the four flags by the relation (R186); FCVT.IF and FCVT.UF of a number that is an integer below 2^31 in magnitude give it, of a NaN 0 with NV (R185). -/
def Obligations.FloatingPointInstructions : Prop :=
  (∀ (s : State) (n : Core) (rd ra rb : RegN) (st : Bool), s.ready n 4 → (s.core n).exl = false →
     let c := s.core n
     let t : Fmt := if st then binary64 else binary32
     let bits := fun (r : RegN) (dbl : Bool) => if dbl then c.f[r].toNat else c.f[r].toNat % 2 ^ 32
     let v := fun (r : RegN) => t.read (bits r st)
     let rm := c.fcsr.toNat % 4
     let ans := Claim.fpNext s n rd
     exec (.fadd n rd ra rb st 0#4) s = ans (t.add rm (v ra) (v rb)) ∧
     exec (.fsub n rd ra rb st 0#4) s = ans (t.add rm (v ra) (v rb).neg) ∧
     exec (.fmul n rd ra rb st 0#4) s = ans (t.mul rm (v ra) (v rb)) ∧
     exec (.fdiv n rd ra rb st 0#4) s = ans (t.div rm (v ra) (v rb)) ∧
     exec (.fsqrt n rd ra 0 st 0#4) s = ans (t.sqrt rm (v ra)) ∧
     exec (.fma n rd ra rb st 0#4) s = ans (t.fma rm (v rd) (v ra) (v rb)) ∧
     exec (.fmin n rd ra rb st 0#4) s = ans (t.minMax false (bits ra st) (bits rb st)) ∧
     exec (.fmax n rd ra rb st 0#4) s = ans (t.minMax true (bits ra st) (bits rb st)) ∧
     exec (.fcvtF n rd ra rb st 0#4) s = ans (t.ofVal rm ((if st then binary32 else binary64).read (bits ra (!st)))) ∧
     exec (.fcvtFi n rd ra rb st 0#4) s = ans (t.ofInt rm (c.rw ra).toInt) ∧
     exec (.fcvtFu n rd ra rb st 0#4) s = ans (t.ofInt rm ((c.rw ra).toNat : Int))) ∧
  (∀ (s : State) (n : Core) (rd ra rb : RegN) (st : Bool) (w : Word),
     let c := s.core n
     let t : Fmt := if st then binary64 else binary32
     let width := if st then 64 else 32
     let bits := fun (r : RegN) => c.f[r].toNat % 2 ^ width
     let num := fun (r : RegN) => ∀ q, t.read (bits r) ≠ .nan q
     let top := 2 ^ (width - 1)
     (s.ready n 4 →
       (num ra → exec (.fabs n rd ra 0 st 0#4) s = .next (s.wroteF n rd (BitVec.ofNat 64 (bits ra % top)) 0 4)) ∧
       (num ra → exec (.fneg n rd ra 0 st 0#4) s = .next (s.wroteF n rd (BitVec.ofNat 64 ((bits ra + top) % 2 ^ width)) 0 4)) ∧
       exec (.fmvFw n rd ra rb false 0#4) s = .next (s.wroteF n rd (BitVec.ofNat 64 (c.rw ra).toNat) 0 4) ∧
       exec (.fmvWf n rd ra rb false 0#4) s = .next (s.wrote n rd (BitVec.ofNat 32 c.f[ra].toNat) c.flags 4) ∧
       exec (.fmvWfh n rd ra rb false 0#4) s = .next (s.wrote n rd (BitVec.ofNat 32 (c.f[ra].toNat / 2 ^ 32)) c.flags 4) ∧
       exec (.fmvFwh n rd ra rb false 0#4) s =
         .next (s.wroteF n rd (BitVec.ofNat 64 ((c.rw ra).toNat * 2 ^ 32 + c.f[rd].toNat % 2 ^ 32)) 0 4) ∧
       (num ra → num rb → exec (.fcmp n 0 ra rb st 0#4) s = .next (s.wrote n 0 0#32
         (if (t.read (bits ra)).lt (t.read (bits rb)) then ⟨true, false, false, false⟩
          else if (t.read (bits rb)).lt (t.read (bits ra)) then ⟨false, false, true, false⟩ else ⟨false, true, true, false⟩) 4)) ∧
       (rb = 0 ∨ rb = 1 →
         (∀ (neg : Bool) (f m : Nat) (e : Int), t.read (bits ra) = .fin neg f e → f * 2 ^ e.toNat = m * 2 ^ (-e).toNat → m < 2 ^ 31 →
           exec (.fcvtIf n rd ra rb st 0#4) s = .next (s.wrote n rd (BitVec.ofInt 32 (if neg then -(m : Int) else m)) c.flags 4) ∧
           (neg = false → exec (.fcvtUf n rd ra rb st 0#4) s = .next (s.wrote n rd (BitVec.ofNat 32 m) c.flags 4))) ∧
         (∀ q, t.read (bits ra) = .nan q → c.fcsr.toNat / 4096 % 32 = 0 →
           let r := (.next (s.setCore n { c.ww rd 0#32 with fcsr := c.fcsr ||| 0x100#32, pc := c.pc + 4#32 }) : Out)
           exec (.fcvtIf n rd ra rb st 0#4) s = r ∧ exec (.fcvtUf n rd ra rb st 0#4) s = r))) ∧
     (s.ready n 8 → exec (.fli n rd 0 0#10 w) s = .next (s.wroteF n rd (BitVec.ofNat 64 w.toNat) 0 8)))

/-! ## Registers, islands and rings -/

/-- A next state in which nothing but the chip has changed. -/
def Sys2Proof.Claim.chipNext (s : State) (c : Chip) : Out := .next { s with chip := c }

/-- A write that an island sends now takes effect at another at once: its earlier writes there have (R66), the ring between their planes has room (R74), and the
island is ON (R71). -/
def Sys2Proof.Claim.reaches (c : Chip) (src dst : Nat) : Prop := c.writeClear src dst = true ∧ c.islandOn dst = true

/-- A register write of a row of its own, sent to an island that is not ON, gets a bus error and has no effect (R71); it waits, and nothing changes, behind its sender's
earlier writes there and for room in the ring between their planes (R66, R74). What a register access of the wrong form, or to an island that is not ON, gets: a bus
error, and no effect (R17, R71); one of the right form waits in the same way, a read also for room on the way back (R69, R74). -/
def Obligations.ClosedIslandsAnswerBusError : Prop :=
  (∀ (s : State) (src : Island) (v : Word) (k : Task) (g : Group) (ctl : CanCtl) (st : Stage) (w : Fin 32) (tap : Fin 64) (dest : Station)
     (sched : Fin 256) (j : Fin 2) (h : Fin 8) (b : Bool) (fetch : Option (BitVec 12)),
     let stops := fun (dst : Nat) (rows : List Instr) => ∀ i ∈ rows,
       (s.chip.writeClear src.val dst = false → exec i s = .next s) ∧
       (s.chip.writeClear src.val dst = true → s.chip.islandOn dst = false → exec i s = Claim.chipNext s (s.chip.answer src.val .busError))
     stops 0x17 [.ringReservationWrite src v, .ringMaximumWrite src v, .ringControlWrite src v] ∧
     stops 0x15 [.modeRequest src v, .powerStateRequest src v, .flushArm src v, .flushDisarm src v, .autostartWrite src v, .pinRelease src v,
       .blockResetRequest src v, .taskEnable src k v, .taskDisable src k v, .taskEnd src v, .patchRequest src v, .patchDone src v, .swap src v,
       .leave src v, .joinSet src v, .streamCapacityWrite src v, .mgAlmack src v] ∧
     stops 0x08 [.stageDirectWrite src st w v, .updateSetCommit src v, .leDisable src v, .traceArm src v, .swtrig src v, .tapEnable src tap v] ∧
     stops 0x09 [.progtripWrite src j v, .triprst src v, .tpCfgcommit src v, .hashrefWrite src h v] ∧
     stops (0x0A + g.val) [.cgSwtrig src g b v, .resume src g v, .serviceCalibration src g v, .linkResume src g v] ∧
     stops 0x0A [.ctInval src v, .ctCommit src v, .ctStatclr src v, .ctBaseWrite src v] ∧
     stops 0x12 [.routeWrite src dest v, .exportLoad src v, .timeSet src v, .scheduleEnable src sched v] ∧
     stops 0x13 [.canModeWrite src ctl v, .bitTimingWrite src ctl b v, .recover src ctl v, .canCancel src ctl v] ∧
     stops 0x14 [.flashRead src v, .flashProgram src v fetch, .flashErase src v fetch, .shelfLoad src v]) ∧
  (∀ (s : State) (src : Island) (size : Size) (a v : Word),
     let island := (a.toNat - 0xE0000000) / 0x100000
     let formed := sizeBytes size = 4 ∧ a.toNat % 4 = 0 ∧ 0xE0800000 ≤ a.toNat ∧ a.toNat ≤ 0xE17FFFFF
     let bus := Claim.chipNext s (s.chip.answer src.val .busError)
     let word := size = .word ∧ a ≠ 0xF0000018#32 ∧ a ≠ 0xF0000030#32
     (¬formed ∨ (s.chip.writeClear src.val island = true ∧ s.chip.islandOn island = false) → exec (.registerWrite src size a v) s = bus) ∧
     (formed → s.chip.writeClear src.val island = false → exec (.registerWrite src size a v) s = .next s) ∧
     (¬formed ∨ (s.chip.readClear src.val island = true ∧ s.chip.islandOn island = false) →
       exec (.readResponse src size a) s = bus ∧ (word → exec (.counterReadLo src a) s = bus)) ∧
     (formed → s.chip.readClear src.val island = false →
       exec (.readResponse src size a) s = .next s ∧ (word → exec (.counterReadLo src a) s = .next s)))

/-- Registers and their traffic between islands (R20, R65, R66, R68, R69, R72 to R74): a write of a register of ST that starts no action follows its access codes; a
read that arrives answers what the register shows; a write to another plane is a message of that pair's ring, or waits for its room; the oldest write under way takes
effect and is acknowledged, but for one that a core reset has muted (R115); an acknowledgement arrives. `k` is the place of a register, 0xE0000000 below its address. The 64-bit counters (R687 to R691): a read of
the low word answers it and latches the high word for the reading island alone; OVLWAIT of a core that runs at level X takes a staged high word together with the low word, and at level T the access raises ACCESS (R220); a counter at
2^64 - 1 wraps, sets OVF and records an event. The counters that a selection register chooses, and OPMS, are not spoken of here. -/
def Obligations.RegistersAndCounters : Prop :=
  (∀ (s : State) (src dst : Island) (k : Nat) (v : Word), 0x800000 ≤ k → k < 0x1800000 → k % 4 = 0 →
     let c := s.chip
     let a := BitVec.ofNat 32 (0xE0000000 + k)
     let island := k / 0x100000
     (island = 0x14 → isBanked k = false → k ≠ BT_FLREQ → k ≠ EV_HCFG → Claim.reaches c src.val 0x14 → ∀ d, regDesc k = some d → d.hasLock = false →
       exec (.registerWrite src .word a v) s = Claim.chipNext s (c.setReg k (writeWord c.modeLockOpen (c.reg k) v d.fields (c.reg k)))) ∧
     (c.islandOn island = true → c.readClear src.val island = true →
       ∃ t, exec (.readResponse src .word a) s = .next t ∧ s.restSame t ∧
         t.chip.answers = mapSet .none (s.readReg src.val k).2.chip.answers src.val (.data (s.readReg src.val k).1)) ∧
     (planeOf src.val ≠ planeOf island → exec (.crossPlaneMessage src a v) s = Claim.chipNext s
       (c.offer (crossRing (planeOf src.val) (planeOf island)) ⟨[], false, src.val, some ⟨src.val, k, v, false, false⟩⟩).2) ∧
     (planeOf src.val = planeOf dst.val → ∀ (older younger : List Machine.Access) (x : Machine.Access), c.inflight = older ++ x :: younger →
       (∀ y ∈ older, ¬(y.src = src.val ∧ islandOf y.key = dst.val)) → x.src = src.val → islandOf x.key = dst.val → c.islandOn dst.val = true →
       let lands := ({ s with chip := { c with inflight := older ++ younger } } : State).writeReg src.val x.key x.value
       exec (.crossIslandWriteEffect src dst) s =
         .next (if x.mute then lands else lands.onChip fun d => { d with acks := d.acks ++ [(src.val, dst.val)] })) ∧
     (planeOf src.val = planeOf dst.val →
       exec (.fenceAcknowledge src dst) s = Claim.chipNext s { c with acks := c.acks.erase (src.val, dst.val) })) ∧
  (∀ (s : State) (src : Island) (n : Core) (i : Fin 24) (k : Nat) (v w : Word) (sel : Fin 16384),
     let c := s.chip
     let a := BitVec.ofNat 32 (0xE0000000 + k)
     let plain := 0x800000 ≤ k ∧ k < 0x1800000 ∧ k % 4 = 0 ∧ counterAt k = some (k, false) ∧ k ≠ SG_RINGDROP_LO ∧ k ≠ EV_STRLOST_LO ∧ k ≠ EV_OPMS_LO
     (plain → c.islandOn (k / 0x100000) = true → c.readClear src.val (k / 0x100000) = true → exec (.counterReadLo src a) s = Claim.chipNext s
       ((c.setReg (latchKey k src.val) (BitVec.ofNat 32 (c.counter k / 2 ^ 32))).answer src.val (.data (BitVec.ofNat 32 (c.counter k))))) ∧
     (plain → c.counter k = 2 ^ 64 - 1 → ∃ t, exec (.counterWrap a sel) s = .next t ∧ s.restSame t ∧
       t.chip.regs = (((c.setReg k 0#32).setReg (k + 4) 0#32).setReg (ovfKey k) 1#32).regs ∧
       ∃ e, t.chip.events = c.events ++ [e] ∧ e.code = 0x1B01 ∧ e.sev = 2) ∧
     (i.val = n.val → (s.core n).run = .running → (s.core n).wait = none → c.islandOn n.val = true →
       ((s.core n).isX = true →
         exec (.counterWriteHi i 0xF0000034#32 v) s = .next (s.setCore n { s.core n with ovlStage := v }) ∧
         exec (.counterWriteLo i 0xF0000030#32 w) s =
           .next (s.setCore n { s.core n with ovlwait := w.toNat + (s.core n).ovlStage.toNat * 2 ^ 32, ovlStage := 0#32 })) ∧
       ((s.core n).isX = false → (s.core n).exl = false →
         exec (.counterWriteHi i 0xF0000034#32 v) s = .next (s.entered n excAccess (s.core n).pc 0xF0000034#32) ∧
         exec (.counterWriteLo i 0xF0000030#32 w) s = .next (s.entered n excAccess (s.core n).pc 0xF0000030#32) ∧
         exec (.counterReadLo i 0xF0000030#32) s = .next (s.entered n excAccess (s.core n).pc 0xF0000030#32))))

/-- Messages and rings of the pool (R47 to R50, R52, R55, R58, R103, R647, R757): a whole message is published, or discarded and counted, or held, as the ring's policy
says; of two islands that ask for the last unreserved buffer at once the lower code has it (R48); ring 48 takes messages of a core at level X alone, and a unit in
STANDBY takes none of a core or the loop engine for FX or NX; the consumer takes the oldest, where its island is ON, and then the executive's messages that wait go
where they find room; a reservation above the maximum, or a maximum below the reservation, is refused; the system rings are fixed. -/
def Obligations.PoolRings : Prop :=
  ∀ (s : State) (src prod other : Island) (ring : Fin 16384) (bytes : List Byte) (v : Word),
    let c := s.chip
    let r := c.pool.ring ring.val
    let m : Msg := ⟨bytes, false, prod.val, none⟩
    let alone := ∀ h ∈ c.pool.held, h.ring ≠ ring.val
    let fits := alone ∧ c.pool.take ring.val m.need 0 = m.need
    let full := alone ∧ c.pool.take ring.val m.need 0 ≠ m.need
    let publish := exec (.publishMessage ring ⟨prod, none⟩ bytes .good) s
    let contest := exec (.publishMessage ring ⟨prod, some other⟩ bytes .good) s
    let level := ring.val = 48 → ∀ n : Core, n.val = prod.val → (s.core n).isX = true
    let standby := prod.val ≤ 8 ∧ c.mode = 6 ∧ (r.cons = 0x12 ∨ r.cons = 0x13)
    (c.islandOn prod.val = true → level → ¬standby →
      (r.en = false → publish = Claim.chipNext s (c.ringDrop ring.val)) ∧
      (r.en = true → fits → publish = Claim.chipNext s { c with pool := c.pool.setRing ring.val { r with queue := r.queue ++ [m] } }) ∧
      (r.en = true → full → r.drop = true → publish = Claim.chipNext s (c.ringDrop ring.val)) ∧
      (r.en = true → full → r.drop = false → publish = Claim.chipNext s
        { c with pool := { c.pool with held := c.pool.held ++ [⟨ring.val, c.pool.take ring.val m.need 0, m⟩] } })) ∧
    (prod.val ≤ other.val → contest = publish) ∧
    (let asking : Pool := { c.pool with held := ⟨ring.val, 0, ⟨[], false, 0, none⟩⟩ :: c.pool.held }
     c.islandOn prod.val = true → level → ¬standby → other.val < prod.val → r.en = true → alone → bytes.length ≤ 256 →
       r.resv ≤ asking.occ ring.val → asking.free = 1 → r.drop = false →
       contest = Claim.chipNext s { c with pool := { c.pool with held := c.pool.held ++ [⟨ring.val, 0, m⟩] } }) ∧
    (c.islandOn prod.val = false ∨ ¬level ∨ standby → publish = .next s) ∧
    (c.islandOn r.cons = true → ∀ (x : Msg) (ms : List Msg), r.queue = x :: ms → x.poisoned = false →
      ∃ p : Pool, p.rings = (c.pool.setRing ring.val { r with queue := ms }).rings ∧ p.lastOut = some (ring.val, x) ∧ p.retired = c.pool.retired ∧
        p.held = c.pool.held ∧ exec (.bufferRelease ring .good) s = Claim.chipNext s ({ c with pool := p.settle } : Chip).sendUnsent) ∧
    (c.islandOn r.cons = false ∨ r.queue = [] → exec (.bufferRelease ring .good) s = Claim.chipNext s c.sendUnsent) ∧
    (Claim.reaches c src.val 0x17 →
      let sel := c.ringSel src.val
      let q := c.pool.ring sel
      let want := v.toNat % 2 ^ 18
      (sel < 64 → exec (.ringReservationWrite src v) s = .next s ∧ exec (.ringMaximumWrite src v) s = .next s ∧ exec (.ringControlWrite src v) s = .next s) ∧
      (64 ≤ sel → q.max < want → exec (.ringReservationWrite src v) s = Claim.chipNext s (c.setFlag SG_ERR_RESV_REFUSED true)) ∧
      (64 ≤ sel → want ≤ q.max → c.pool.resvSum - q.resv + want ≤ 131072 → exec (.ringReservationWrite src v) s =
        Claim.chipNext s { c with pool := (c.pool.setRing sel { q with resv := want }).settle }) ∧
      (64 ≤ sel → want < q.resv → exec (.ringMaximumWrite src v) s = Claim.chipNext s (c.setFlag SG_ERR_LIMIT_REFUSED true)) ∧
      (64 ≤ sel → q.resv ≤ want → exec (.ringMaximumWrite src v) s =
        Claim.chipNext s { c with pool := (c.pool.setRing sel { q with max := want }).settle }) ∧
      (64 ≤ sel → v.toNat / 2 ^ 31 % 2 = 1 → q.en = true → exec (.ringControlWrite src v) s =
        Claim.chipNext s { c with pool := (c.pool.setRing sel { q with drop := decide (v.toNat / 2 ^ 30 % 2 = 1) }).settle }))

/-! ## Modes, key switch, power, resets -/

/-- Requests to the mode controller (R61, R63, R83, R85, R98, R848): a host request waits, or is refused BUSY where eight wait; the next one is refused in the order of R85
or starts its transition, which every other island that is ON has to acknowledge; the last acknowledgement ends it, and the module is in its mode; 1 ms without one
fails it with an event, and the module is in SAFE-HOLD; an island that returns shows ON then. -/
def Obligations.ModeController : Prop :=
  ∀ (s : State) (src i : Island) (v : Word) (r : ModeReq),
    let c := s.chip
    let host : ModeReq := ⟨.host (getF MG_MODEREQ_TARGET v), getF MG_MODEREQ_TAG v⟩
    let power : ModeReq := ⟨.power (getF PW_ISLREQ_ISLAND v) (getF PW_ISLREQ_STATE v), getF PW_ISLREQ_TAG v⟩
    let idle := c.ctl.trans = none ∧ c.ctl.flushing = none ∧ c.ctl.flush = false ∧ c.ctl.fatal = false ∧ c.ctl.key = none
    let popped := s.onChip fun d => d.onCtl fun y => { y with queue := y.queue.erase r }
    let asked := List.filter (fun k => k != 21 && c.islandOn k) (List.range 24)
    let still := c.mode = 2 ∨ c.mode = 3 ∨ c.mode = 7
    (Claim.reaches c src.val 0x15 →
      (c.ctl.queue.length < 8 → ∃ t, exec (.modeRequest src v) s = .next t ∧ s.restSame t ∧
        t.chip.ctl = { c.ctl with queue := c.ctl.queue ++ [host] } ∧ t.chip.events = c.events ∧ c.regsSameBut t.chip [MG_MODE]) ∧
      (c.ctl.queue.length < 8 → ∃ t, exec (.powerStateRequest src v) s = .next t ∧ s.restSame t ∧
        t.chip.ctl = { c.ctl with queue := c.ctl.queue ++ [power] } ∧ t.chip.events = c.events ∧ c.regsSameBut t.chip [MG_MODE]) ∧
      (8 ≤ c.ctl.queue.length → exec (.modeRequest src v) s = Claim.chipNext s (c.modeOutcome host.tag 1) ∧
        exec (.powerStateRequest src v) s = Claim.chipNext s (c.modeOutcome power.tag 1))) ∧
    (idle → nextReq c.ctl.queue = some r →
      (∀ goal, r.kind = .host goal →
        (∀ why, popped.modeRefusal goal = some why → exec .modeTransition s = .next (popped.onChip fun d => d.modeOutcome r.tag why)) ∧
        (popped.modeRefusal goal = none → ∃ t waiting since, exec .modeTransition s = .next t ∧
          t.chip.ctl.trans = some ⟨goal, none, some r.tag, waiting, since, false⟩) ∧
        (still → popped.modeRefusal goal = none → ∃ t, exec .modeTransition s = .next t ∧ s.restSame t ∧ t.chip.mode = c.mode ∧
          t.chip.ctl = { c.ctl with queue := c.ctl.queue.erase r, trans := some ⟨goal, none, some r.tag, asked, c.mono, false⟩ })) ∧
      (∀ island goal, r.kind = .power island goal → popped.powerRefusal island goal = none → c.islandState island ≠ goal →
        ∃ t, exec .modeTransition s = .next t ∧ s.restSame t ∧
          t.chip.ctl.trans = some ⟨goal, some island, some r.tag, [island], c.mono, false⟩)) ∧
    (∀ x : Trans, c.ctl.trans = some x →
      (i.val ∈ x.waiting → x.waiting.filter (· ≠ i.val) ≠ [] → ∃ t, exec (.transitionAcknowledge i) s = .next t ∧ s.restSame t ∧
        t.chip.ctl.trans = some { x with waiting := x.waiting.filter (· ≠ i.val) }) ∧
      (x.waiting = [i.val] → x.island = none → x.goal = 2 ∨ x.goal = 3 ∨ x.goal = 7 →
        (∃ t, exec (.transitionAcknowledge i) s = .next t ∧ t.chip.mode = x.goal ∧ t.chip.ctl.trans = none) ∧
        (still → ∃ t, exec (.transitionAcknowledge i) s = .next t ∧ s.restSame t ∧ t.chip.mode = x.goal ∧
          t.chip.ctl = { c.ctl with trans := none, doneAt := c.mono } ∧ t.chip.events = c.events)) ∧
      (x.waiting = [i.val] → x.island = some i.val → x.goal = 0 → ∃ t, exec (.transitionAcknowledge i) s = .next t ∧ s.restSame t ∧
        t.chip.ctl.trans = some { x with waiting := [], back := true }) ∧
      (i.val ∉ x.waiting → exec (.transitionAcknowledge i) s = .next s) ∧
      (x.waiting ≠ [] → x.since + 1000000 ≤ c.mono →
        (2 ≤ c.mode → ∃ t, exec .transitionTimeout s = .next t ∧ t.chip.mode = 2 ∧ t.chip.ctl.trans = none) ∧
        (still ∨ c.mode = 1 → ∃ t, exec .transitionTimeout s = .next t ∧ s.restSame t ∧ t.chip.mode = (if c.mode = 1 then 1 else 2) ∧
          t.chip.ctl = { c.ctl with trans := none, doneAt := c.mono } ∧ ∃ e, t.chip.events = c.events ++ [e] ∧ e.code = 0x1E01 ∧ e.sev = 6)) ∧
      (c.mono < x.since + 1000000 → exec .transitionTimeout s = .next s) ∧
      (x.back = true → x.island = some i.val → ∃ t, exec (.islandReturnComplete i) s = .next t ∧ t.chip.ctl.trans = none ∧ t.pending = s.pending ∧ t.mem = s.mem))

/-- The key switch (R89 to R91, R93, R95): a change of the contacts is shown and restarts the 20 ms; a valid pattern that has stood 20 ms is the position in force and asks for
the mode controller; a fault acts as LOCK and is recorded; a key change moves the module out of the modes that the position does not grant. -/
def Obligations.KeySwitch : Prop :=
  ∀ (s : State) (a b : BitVec 4),
    let c := s.chip
    ((c.fld MG_KEYSW_CONTACT_A ≠ a.toNat ∨ c.fld MG_KEYSW_CONTACT_B ≠ b.toNat) → ∃ t, exec (.keyContactChange a b) s = .next t ∧ s.restSame t ∧
      t.chip.key.since = c.now ∧ t.chip.events = c.events ∧ t.chip.ctl = c.ctl ∧ c.regsSameBut t.chip [MG_KEYSW]) ∧
    (c.fld MG_KEYSW_CONTACT_A = a.toNat → c.fld MG_KEYSW_CONTACT_B = b.toNat → exec (.keyContactChange a b) s = .next s) ∧
    (∀ p, c.keyShown = some p → c.power.reset = none → c.monoBase ≤ c.key.since → c.key.since + 20000000 ≤ c.now →
      ∃ t, exec .keyPositionValid s = .next t ∧ s.restSame t ∧ t.chip.key.valid = true ∧
        t.chip.ctl.key = (if c.key.valid = true ∧ c.flag MG_KEYSW_FAULT = false ∧ c.keyPos = p then c.ctl.key else some p)) ∧
    (c.keyFaultDue = true → ∃ t, exec .keyFault s = .next t ∧ s.restSame t ∧ t.chip.ctl.key = some 0 ∧
      ∃ e, t.chip.events = c.events ++ [e] ∧ e.code = 0x1D02 ∧ e.sev = 4) ∧
    (c.keyFaultDue = false → exec .keyFault s = .next s) ∧
    (∀ p, c.ctl.key = some p → c.ctl.trans = none → c.ctl.flushing = none → c.ctl.flush = false → c.ctl.fatal = false →
      (keyMoves c.mode p = none → ∃ t, exec .keyChange s = .next t ∧ s.restSame t ∧ t.chip.ctl = { c.ctl with key := none }) ∧
      ((c.mode = 3 → p ≤ 1 → ∃ t w q, exec .keyChange s = .next t ∧ t.chip.ctl.trans = some ⟨2, none, none, w, q, false⟩) ∧
       (c.mode = 4 → p = 0 → ∃ t w q, exec .keyChange s = .next t ∧ t.chip.ctl.trans = some ⟨5, none, none, w, q, false⟩) ∧
       (c.mode = 7 → p ≠ 3 → ∃ t w q, exec .keyChange s = .next t ∧ t.chip.ctl.trans = some ⟨2, none, none, w, q, false⟩)))

/-- Logic power and the FLUSH profile (R104 to R106, R108, R111, R819, R824, R847). -/
def Obligations.LogicPower : Prop :=
  ∀ (s : State) (src : Island) (v : Word) (ago : BitVec 64) (inB : Bool),
    let c := s.chip
    exec .logicInputsLow s = Claim.chipNext s { c with power := { c.power with
      onStore := c.power.risen, dropped := c.power.dropped || !c.power.risen, lowAt := some (c.power.lowAt.getD c.now) } } ∧
    exec .logicInputRecover s = Claim.chipNext s { c with power := { c.power with onStore := false, lowAt := none } } ∧
    (∀ t0, c.power.lowAt = some t0 → c.power.risen = true → c.power.failAt = none → t0 + 200000 ≤ c.now →
      ∃ t, exec .powerFailure s = .next t ∧ s.restSame t ∧ t.chip.power.failAt = some t0 ∧ t.chip.recWanted = true) ∧
    (∀ t0, c.power.failAt = some t0 → c.power.lowAt = none → 100000000 ≤ ago.toNat → t0 + ago.toNat ≤ c.now →
      ∃ t e, exec (.powerRestored ago) s = .next t ∧ s.restSame t ∧ t.chip.power.failAt = none ∧ t.chip.events = c.events ++ [e] ∧
        e.code = (if c.power.ran then 0x1E03 else 0x1E02)) ∧
    (∀ t0, c.power.failAt = some t0 → c.flag PW_FLUSHCTL_ARM = true → c.power.ran = false → c.ctl.flushing = none → c.red.xAt = none ∨ c.red.why ≠ 3 →
      t0 + 200000 + c.fld PW_FLUSHCTL_RIDE_MS * 1000000 ≤ c.now →
      ∃ t, exec .flushProfileExecute s = .next t ∧ s.restSame t ∧ t.chip.ctl = { c.ctl with flush := true }) ∧
    (c.power.failAt = none → exec .flushProfileExecute s = .next s) ∧
    (Claim.reaches c src.val 0x15 →
      (let s1 := s.onChip fun d => d.writeFlushctl v
       (s1.chip.flag PW_FLUSHCTL_ARM = true → exec (.flushArm src v) s = .next s1) ∧
       (s1.chip.flag PW_FLUSHCTL_ARM = false → s1.chip.fld PW_FLUSHCTL_RIDE_MS ≤ 2000 → s1.profileAllowed = true →
         exec (.flushArm src v) s = .next (s1.onChip fun d => d.setFlag PW_FLUSHCTL_ARM true)) ∧
       (s1.chip.flag PW_FLUSHCTL_ARM = false → 2000 < s1.chip.fld PW_FLUSHCTL_RIDE_MS ∨ s1.profileAllowed = false →
         exec (.flushArm src v) s = .next (s1.onChip fun d => d.setFlag PW_FLUSHCTL_ARMREF true)) ∧
       ∃ t, exec (.flushDisarm src v) s = .next t ∧ s.restSame t ∧ t.chip.ctl = { c.ctl with flush := false } ∧
         c.regsSameBut t.chip [PW_FLUSHCTL, MG_MODE])) ∧
    (let lost := if inB then c.power.lostB else c.power.lostA
     let mark := fun (x : Bool) => if inB then { c.power with lostB := x } else { c.power with lostA := x }
     (lost = false → c.power.lowAt = none → ∃ t e, exec (.logicInputLost inB) s = .next t ∧ s.restSame t ∧ t.chip.power = mark true ∧
       t.chip.events = c.events ++ [e] ∧ e.code = 0x1E09) ∧
     exec (.logicInputRestored inB) s = Claim.chipNext s { c with power := mark false }) ∧
    (c.power.lowAt ≠ none → ∃ t, exec .bankDisconnect s = .next t ∧ s.restSame t ∧ t.chip.energy = 0 ∧ t.chip.power.bankOpen = true)

/-- The resets (R113 to R121, R143): every core is held with its registers at reset; a power-on or system reset clears DRAM, a core reset keeps it; RST_N below 2 µs
does nothing, and a longer one keeps internal reset until it has ended (R114, R119); a reset of the same or a lower level during a reset is absorbed (R119), but where a
power-up was abandoned an input at 18 V starts its timing again (R846). -/
def Obligations.Resets : Prop :=
  ∀ (s : State) (pos : BitVec 7) (ns : BitVec 32) (src : Fin 7),
    let power := s.chip.power.reset
    let held := fun (t : State) => (∀ n : Core, t.core n = CoreSt.atReset) ∧ t.pending = s.pending
    ((∀ x, power ≠ some (1, x)) →
      (∃ t, exec (.powerOnReset pos) s = .next t ∧ held t ∧ t.mem = [] ∧ t.chip.power.reset = some (1, s.chip.now) ∧ t.chip.ctl.queue = []) ∧
      (∃ t, exec .brownOut s = .next t ∧ held t ∧ t.mem = [] ∧ t.chip.power.reset = some (1, s.chip.now))) ∧
    (∀ x, power = some (1, x) → exec .brownOut s = .next s ∧ (s.chip.power.dropped = true → ∃ t, exec (.powerOnReset pos) s = .next t ∧ s.restSame t ∧
      t.chip.power = { s.chip.power with dropped := false, lowAt := none, reset := some (1, s.chip.now) })) ∧
    (power = none →
      (ns.toNat < 2000 → exec (.rstNAssert ns) s = .next s) ∧
      (∀ i ∈ [Instr.rstNAssert ns, .hardwareWatchdog, .systemReset src], (2000 ≤ ns.toNat ∧ 2 ≤ src.val) →
        ∃ t, exec i s = .next t ∧ held t ∧ t.mem = [] ∧ t.chip.power.reset = some (2, s.chip.now) ∧ t.chip.ctl.queue = []) ∧
      (2000 ≤ ns.toNat → ∃ t, exec (.rstNAssert ns) s = .next t ∧ s.chip.now + ns.toNat ≤ t.chip.power.rstHigh) ∧
      (src.val = 4 ∨ src.val = 6 →
        (s.chip.inCoreReset = false → ∃ t, exec (.coreReset src) s = .next t ∧ held t ∧ t.mem = s.mem ∧ t.chip.img = Images.empty ∧
          t.chip.loop = Loop.atReset ∧ t.chip.impErrs = [] ∧ t.chip.dispatchIrq = [] ∧ t.chip.power.coreAt = some s.chip.now) ∧
        (s.chip.inCoreReset = true → exec (.coreReset src) s =
          Claim.chipNext s (s.chip.setFld MG_RSTCAUSE_SRC (s.chip.fld MG_RSTCAUSE_SRC ||| 2 ^ src.val))))) ∧
    (∀ x, power = some (2, x) → 2 ≤ src.val → exec (.systemReset src) s =
      Claim.chipNext s (s.chip.setFld MG_RSTCAUSE_SRC (s.chip.fld MG_RSTCAUSE_SRC ||| 2 ^ src.val)))

/-- Coming up, and the rest of the module's own registers (R87, R93, R117, R122, R125, R126, R132, R133, R528, R825, R846, R849): internal reset rises once nothing holds it,
and the monotonic timebase counts from there; with the key in PROG and no fault BOOT ends in PROGRAM; ACTO_N is driven once software has released the pins. -/
def Obligations.BootAndBlocks : Prop :=
  ∀ (s : State) (src : Island) (v : Word) (bootsel : BitVec 2) (clk : Bool) (img : Option (List Byte)) (failing : List (Fin 20 × BitVec 32 × BitVec 32)),
    let c := s.chip
    (c.power.reset = none ∨ c.power.lowAt ≠ none → exec (.internalResetRise bootsel clk img failing) s = .next s) ∧
    (c.mayRise = true → ∃ t, exec (.internalResetRise bootsel clk img failing) s = .next t ∧ t.pending = s.pending ∧
      t.cores = s.cores ∧ t.chip.power = { c.power with risen := true, reset := none } ∧ t.chip.monoBase = c.now) ∧
    (c.mayRise = false → exec (.internalResetRise bootsel clk img failing) s = .next s) ∧
    (c.mode ≠ 0 → exec .bootComplete s = .next s) ∧
    (c.mode = 0 → c.power.reset = none → c.sec.testOpen = false → c.ctl.trans = none → c.sec.image ≠ [] → c.keyPos = 2 →
      c.flag MG_STSTAT_BOOTFAIL = false → c.ctl.bootSafe = false → c.ctl.fatal = false → c.cyc.broken = [] →
      ∃ t, exec .bootComplete s = .next t ∧ s.restSame t ∧ t.chip.mode = 3 ∧ t.chip.ctl.warm = false) ∧
    (c.mode = 0 → c.power.reset = none → c.sec.testOpen = false → c.ctl.trans = none → c.sec.image = [] → exec .bootComplete s = Claim.chipNext s c.enterRecovery) ∧
    (c.flag MG_STRAP_CLKSEL = true → c.flag MG_STRAP_CLK_FALLBACK = false → c.power.reset = none → 10000000 ≤ c.mono →
      ∃ t e, exec .clockFallback s = .next t ∧ s.restSame t ∧ t.chip.regs = (c.setFlag MG_STRAP_CLK_FALLBACK true).regs ∧
        t.chip.events = c.events ++ [e] ∧ e.code = 0x1E04) ∧
    (c.flag MG_PINREL_RELEASE = false → c.actoPin = .highZ) ∧
    (Claim.reaches c src.val 0x15 →
      (getF MG_PINREL_RELEASE v = 1 → exec (.pinRelease src v) s = Claim.chipNext s (c.setFlag MG_PINREL_RELEASE true) ∧
        (c.setFlag MG_PINREL_RELEASE true).actoPin = (if c.flag MG_REDSTAT_ACTOUT then .low else .highZ)) ∧
      (getF MG_PINREL_RELEASE v = 0 → exec (.pinRelease src v) s = .next s) ∧
      (c.mode = 3 ∨ c.mode = 7 → ∃ t, exec (.autostartWrite src v) s = .next t ∧ s.restSame t ∧
        t.chip.regs = (c.setFld MG_STARTCFG_AUTOSTART (getF MG_STARTCFG_AUTOSTART v)).regs ∧ MG_STARTCFG ∈ t.chip.toStore) ∧
      (c.mode ≠ 3 → c.mode ≠ 7 → ∃ t e, exec (.autostartWrite src v) s = .next t ∧ s.restSame t ∧ t.chip.regs = c.regs ∧
        t.chip.events = c.events ++ [e] ∧ e.code = 0x1D01) ∧
      (∀ why, c.blockRefusal (getF MG_BLKRST_TARGET v) = some why → exec (.blockResetRequest src v) s = Claim.chipNext s
        (c.setFlds [(MG_BLKSTAT_LAST_TARGET, getF MG_BLKRST_TARGET v), (MG_BLKSTAT_LAST_RESULT, why)])) ∧
      (c.blockRefusal (getF MG_BLKRST_TARGET v) = none → getF MG_BLKRST_TARGET v < 8 → ∃ t, exec (.blockResetRequest src v) s = .next t ∧ s.restSame t ∧
        t.chip.ctl.blk = some (getF MG_BLKRST_TARGET v, c.mono))) ∧
    (c.ctl.blk = none → exec .blockIdle s = .next s ∧ exec .blockResetTimeout s = .next s) ∧
    (∀ x : Fin 11, ∀ at_, c.ctl.blk = some (x.val, at_) →
      ((x.val = 8 ∨ x.val = 9 → ∀ n : Fin 8, (c.can n.val).attempt = none) → ∃ t, exec .blockIdle s = .next t ∧ s.restSame t ∧ t.chip.ctl.blk = none) ∧
      (at_ + c.fld MG_BLKCFG_TIMEOUT * 1000 ≤ c.mono → ∃ t, exec .blockResetTimeout s = .next t ∧ s.restSame t ∧ t.chip.ctl.blk = none)) ∧
    (∀ w ws, c.toStore = w :: ws → c.storeDef = none → c.breath needProgram = true →
      exec .configStore s = Claim.chipNext s { c.storeOne w with toStore := ws, storeDef := none })

/-! ## Tasks, boundaries, patches -/

/-- A command answers a next state that differs from `s` in the chip alone, and `P` holds of that chip. -/
def Sys2Proof.Claim.does (s : State) (i : Instr) (P : Chip → Prop) : Prop := ∃ d : Chip, exec i s = .next { s with chip := d } ∧ P d

/-- One event is recorded after those that wait, with its code and severity. -/
def Sys2Proof.Claim.event (c d : Chip) (code sev : Nat) : Prop := ∃ e : Event, d.events = c.events ++ [e] ∧ e.code = code ∧ e.sev = sev

/-- TASK_ENABLE and TASK_DISABLE (R23, R24, R226, R228, R229): in PROGRAM and SERVICE a task whose descriptor passes is enabled and its tables are locked; one that
does not is refused with the reason; a PERIOD out of range is reason 1; a disabled task's locks go. In other modes the write is ignored and an event recorded. The
cycles of a task (R37, R39, R233, R237, R246, R263, R264, R268): a boundary whose instant has come moves the task to its next one and releases its cycle where no
patch set waits for it; a missed deadline trips the watchdog; TASK_END of the current task ends its cycle before the deadline, any other is ignored with an event; a frame of a remote
module is consumed and counted; the mirror snapshot goes to PL1 once. -/
def Obligations.TasksAndCycles : Prop :=
  (∀ (s : State) (src : Island) (k : Task) (v : Word), Claim.reaches s.chip src.val 0x15 →
     let c := s.chip
     let isOpen := c.mode = 3 ∨ c.mode = 7
     let enabled := c.flag (MG_TASKDESC_ENABLE k.val)
     let s1 := s.onChip fun d => d.setFld (MG_TASKDESC_ADDR k.val) (v.toNat % 2 ^ 29)
     let en := exec (.taskEnable src k v) s
     (isOpen → enabled = true → en = .next s) ∧
     (isOpen → enabled = false → s1.enableReason k.val = 0 → en = Claim.chipNext s
       { s1.chip.setFlag (MG_TASKDESC_ENABLE k.val) true with locks := c.locks ++ s1.taskLocks k.val }) ∧
     (isOpen → enabled = false → s1.enableReason k.val ≠ 0 → en = Claim.chipNext s (s1.chip.setFld (MG_TASKSTAT_REFUSE k.val) (s1.enableReason k.val))) ∧
     (isOpen → enabled = false → s1.tPeriod k.val < 250 ∨ 10000000 < s1.tPeriod k.val → en = Claim.chipNext s (s1.chip.setFld (MG_TASKSTAT_REFUSE k.val) 1)) ∧
     (isOpen → exec (.taskDisable src k v) s = Claim.chipNext s
       { (c.setFlag (MG_TASKDESC_ENABLE k.val) false).setFld (MG_TASKDESC_ADDR k.val) (v.toNat % 2 ^ 29) with
         locks := c.locks.filter fun l => l.owner != k.val }) ∧
     (¬isOpen → ∀ i ∈ [Instr.taskEnable src k v, .taskDisable src k v], Claim.does s i fun d => d.regs = c.regs ∧ d.locks = c.locks ∧ Claim.event c d 0x1D01 3)) ∧
  (∀ (s : State) (k : Task) (n : Core) (r : TaskRun) (v : Word) (station : BitVec 12) (module : BitVec 8), s.chip.run k.val = some r →
     let c := s.chip
     let boundary := Instr.taskBoundary k none
     let tripped := fun (i : Instr) => Claim.does s i fun d => d.cyc.epoch = none ∧ d.cyc.tasks = [] ∧ d.cyc.ready = [] ∧ d.ctl.fatal = true ∧
       d.recWanted = true ∧ Claim.event c d 0x1C01 7
     let late := fun (t : Nat) => ∃ x, r.dead = some x ∧ x ≤ t
     (c.mono < r.next → exec boundary s = .next s) ∧
     (r.next ≤ c.mono → ¬late r.next → c.handingOver = false → c.pairedStandby = false → (∀ p ∈ c.cyc.patches, p.task ≠ k.val) →
       Claim.does s boundary fun d => k.val ∈ d.cyc.ready ∧ ∃ x, d.run k.val = some x ∧ x.num = r.num + 1 ∧ x.next = r.next + s.tPeriod k.val * 1000 ∧
         x.last = r.next ∧ x.held = false) ∧
     (r.next ≤ c.mono → late r.next → tripped boundary) ∧
     (late c.mono → tripped (.watchdogTrip k)) ∧
     (¬late c.mono → exec (.watchdogTrip k) s = .next s) ∧
     (Claim.reaches c n.val 0x15 → v.toNat % 16 = k.val →
       (late c.mono → mapGet 0 c.cyc.cur n.val = k.val + 1 → tripped (.taskEnd ⟨n.val, by omega⟩ v)) ∧
       (¬late c.mono → mapGet 0 c.cyc.cur n.val = k.val + 1 → Claim.does s (.taskEnd ⟨n.val, by omega⟩ v) fun d =>
         d.cyc.ready = c.cyc.ready.filter (· != k.val) ∧ d.run k.val = some { r with dead := none }) ∧
       (mapGet 0 c.cyc.cur n.val ≠ k.val + 1 → Claim.does s (.taskEnd ⟨n.val, by omega⟩ v) fun d =>
         d.regs = c.regs ∧ d.cyc = c.cyc ∧ Claim.event c d 0x1C02 4)) ∧
     (∀ m : Msg, s.tRring k.val ≠ 0 → c.head? (s.tRring k.val) = some m → m.poisoned = false →
       let key := k.val * 0x100000 + (station.toNat + module.toNat * 4096)
       Claim.does s (.remoteInputFrame k station module) fun d => d.pool = (c.consume (s.tRring k.val)).pool ∧
         assocGet d.cyc.rx key = some ((assocGet c.cyc.rx key).getD 0 + 1) ∧ d.img.inF = c.img.inF) ∧
     (∀ bs, r.snap = some bs → exec (.mirrorStream k) s = Claim.chipNext s
       { c with cyc := { c.cyc with tasks := assocSet c.cyc.tasks k.val { r with snap := none } }, sent := mapSet [] c.sent 7 bs }) ∧
     (r.snap = none → exec (.mirrorStream k) s = .next s))

/-- Patch sets (R269 to R274, R277): a request is refused for the mode or the task (6), for four pending sets (5), for its count (3) or a target cycle that has passed (7), in
that order, else it waits; PATCH_DONE of the task's core takes the set away and reports its result, and with the last due set releases the cycle before its deadline, at
which the watchdog trips instead. -/
def Obligations.PatchSets : Prop :=
  ∀ (s : State) (src : Island) (v : Word), Claim.reaches s.chip src.val 0x15 →
    let c := s.chip
    let task := v.toNat / 2 ^ 24 % 16
    let tag := v.toNat / 2 ^ 16 % 256
    let count := v.toNat % 2048
    let target := (c.reg MG_PATCHTGT_LO).toNat + (c.reg MG_PATCHTGT_HI).toNat * 2 ^ 32
    let ask := exec (.patchRequest src v) s
    let refused := fun (x : Nat) => ask = Claim.chipNext s (c.setFlds [(MG_PATCHSTAT_VALID, 1), (MG_PATCHSTAT_TAG, tag), (MG_PATCHSTAT_RESULT, x)])
    let runs := c.mode = 4 ∧ c.flag (MG_TASKDESC_ENABLE task) = true
    let room := c.cyc.patches.length < 4
    let counted := 1 ≤ count ∧ count ≤ 1024
    let past := target ≠ 0 ∧ target < c.counter (MG_TASKCYC_LO task)
    (¬runs → refused 6) ∧ (runs → ¬room → refused 5) ∧ (runs → room → ¬counted → refused 3) ∧ (runs → room → counted → past → refused 7) ∧
    (runs → room → counted → ¬past → Claim.does s (.patchRequest src v) fun d =>
      d.cyc = { c.cyc with patches := c.cyc.patches ++ [⟨task, tag, (c.reg MG_PATCHADDR).toNat * 8, count, target, false⟩] } ∧
      d.fld MG_PATCHSTAT_RESULT = 0 ∧ d.fld MG_PATCHSTAT_TAG = tag ∧ d.events = c.events) ∧
    (∀ (p : PatchSet) (before after : List PatchSet), c.cyc.patches = before ++ p :: after → p.due = true → p.task = v.toNat / 16 % 16 →
      (∀ q ∈ before, ¬(q.task = p.task ∧ q.due = true)) → src.val = s.tCore p.task → 1 ≤ v.toNat % 16 → v.toNat % 16 ≤ 3 →
      Claim.does s (.patchDone src v) fun d => d.cyc.patches = c.cyc.patches.erase p ∧
        (∀ r, c.run p.task = some r →
          ((∀ x, r.dead = some x → c.mono < x) → (∀ q ∈ before ++ after, ¬(q.task = p.task ∧ q.due = true)) → p.task ∈ d.cyc.ready) ∧
          ((∃ x, r.dead = some x ∧ x ≤ c.mono) → d.cyc.ready = [] ∧ d.ctl.fatal = true))) ∧
    ((∀ p ∈ c.cyc.patches, ¬(p.task = v.toNat / 16 % 16 ∧ p.due = true)) → exec (.patchDone src v) s = .next s)

/-! ## The loop engine -/

/-- The laws of a stage (R282, R299, R300): with OUTLO no higher than OUTHI the output lies between them; in MANUAL it is MANVAL so limited, but for SELECT and
MODEL1; out of MANUAL a PID stage leaves its output in MANVAL, and in CASCADE its set-point in SPLOCAL; RATELIM moves from YPREV by no more than FALL and RISE. A PID
input with QUALITY 2 or 3 holds the output (R303). Frames and evaluations (R299, R304 to R308, R320, R339): a frame starts at its instant, is counted, and its due
stages are those with (frame mod FRAMES) = PHASE; a due stage whose turn it is, in ascending order but for stages held back, is evaluated by its law, once; another is
left; RTMO acts once its frames have passed, but does not take a stage out of a model fault's MANUAL (R342). -/
def Obligations.StageLawsAndFrames : Prop :=
  (∀ (r : List Word) (e : EvalIn) (frame : Nat), r.length = 32 → recLo r ≤ recHi r →
     let o := (evalStage r e frame).words
     let law := 1 ≤ recType r ∧ recType r ≤ 7
     let held := (recType r = tPid ∧ (e.inp 0).bad = true) ∨ (recType r = tModel1 ∧ ((e.inp 0).bad = true ∨ (e.inp 1).bad = true))
     let limited := fun (x : Int) => if x < recLo r then recLo r else if recHi r < x then recHi r else x
     (law → ¬held → recLo r ≤ recOutV o ∧ recOutV o ≤ recHi r) ∧ (held → recOutV o = recOutV r) ∧
     (law → recType r ≠ tModel1 → recType r ≠ tSelect → ¬held → recMode r = 0 → recOutV o = limited (recManVal r)) ∧
     (recType r = tPid → recMode r ≠ 0 → recManVal o = recOutV o) ∧ (recType r = tPid → recMode r = 2 → -2 ^ 31 ≤ e.cascade → e.cascade < 2 ^ 31 → recSpLocal o = e.cascade) ∧
     (recType r = tRateLim → recMode r ≠ 0 → e.track = none → 0 ≤ recC r 0 → 0 ≤ recC r 1 → recLo r ≤ recState r 0 → recState r 0 ≤ recHi r →
       -2 ^ 31 ≤ e.x 0 → e.x 0 < 2 ^ 31 → recState r 0 - recC r 1 ≤ recOutV o ∧ recOutV o ≤ recState r 0 + recC r 0 ∧ recState o 0 = recOutV o) ∧
     (∀ i, (8 ≤ i ∧ i ≤ 17) ∨ (1 ≤ i ∧ i ≤ 7) ∨ i = 0 → recW o i = recW r i) ∧ recW o 30 = BitVec.ofNat 32 frame) ∧
  (∀ (s : State) (k : Stage),
     let c := s.chip
     let f := c.counter LE_FRAME_LO
     let r := c.stageRec k.val
     let turn := k.val ∈ c.loop.due ∧ c.mustWait k.val = false ∧ ∀ q ∈ c.loop.due, q < k.val → c.heldBack q = true
     (c.loop.epoch = none → exec .leFrame s = .next s) ∧
     (∀ e, c.loop.epoch = some e → c.mono < e + f * 31250 → exec .leFrame s = .next s) ∧
     (∀ e, c.loop.epoch = some e → e + f * 31250 ≤ c.mono → Claim.does s .leFrame fun d => d.loop.frame = f ∧
       ∀ q ∈ d.loop.due, q < 2048 ∧ (let x := d.stageRec q; recEnable x = true ∧ recFrames x ≠ 0 ∧ f % recFrames x = recPhase x)) ∧
     (k.val ∉ c.loop.due ∨ c.mustWait k.val = true ∨ (∃ q ∈ c.loop.due, q < k.val ∧ c.heldBack q = false) → exec (.stageEvaluation k) s = .next s) ∧
     (turn → Claim.does s (.stageEvaluation k) fun d => d.loop.due = c.loop.due.erase k.val ∧ d.loop.frame = c.loop.frame) ∧
     (turn → k.val ∉ c.loop.forced → k.val ∉ c.loop.firsts → recType r ≠ tModel1 → recOutDst r = 0 →
       c.flag LE_TRCCTL_ARM = false → c.flag LE_TRCSTAT_TRIGGERED = false → ¬(recMode r = 2 ∧ (c.cascadeValue k.val r).2 = true) →
       Claim.does s (.stageEvaluation k) fun d => ∃ x, d.stageRec k.val = (evalStage r
         ⟨c.evalInputs k.val r, (c.cascadeValue k.val r).1, (c.tracked k.val r).map Prod.fst, ((c.tracked k.val r).map Prod.snd).getD false, false, x,
           c.loop.declared.contains k.val⟩ (c.loop.frame % 2 ^ 32)).words) ∧
     (let due := recEnable r = true ∧ recType r = tPid ∧ recRemoteSp r = true ∧ recRtmo r ≠ 0 ∧ c.loop.epoch ≠ none ∧ (recFlags r).getLsbD 20 = false ∧
         (match assocGet c.loop.remotes k.val with | some x => x.since | none => 0) + recRtmo r ≤ c.loop.frame
      (¬due → exec (.rtmoExpiry k) s = .next s) ∧
      (due → Claim.does s (.rtmoExpiry k) fun d => recFlags (d.stageRec k.val) = recFlags r ||| 0x100080#32 ∧
        recMode (d.stageRec k.val) = (if recRtmoLocal r = true ∧ k.val ∉ c.loop.forced ∧ k.val ∉ c.loop.kept then 1 else recMode r))))

/-- Changing records (R18, R19, R285, R286, R309, R323 to R329): what a direct write does to each word of an enabled and of a disabled stage, whose reserved bits keep
reading 0; the outcomes of LE_UPDCOMMIT in order; LE_DISABLE; the
schedule bound of a tap. -/
def Obligations.StageChanges : Prop :=
  ∀ (s : State) (src : Island) (k : Stage) (i : Fin 32) (tap : Fin 64) (v : Word), Claim.reaches s.chip src.val 0x08 →
    let c := s.chip
    let at_ := LE_STAGE (32 * k.val + i.val)
    let write := exec (.stageDirectWrite src k i v) s
    let ignored := Claim.chipNext s (c.setFlag LE_STAT_DIRREF true)
    let on := recEnable (c.stageRec k.val)
    (i.val = 29 → write = Claim.chipNext s (c.setReg at_ (recW (c.stageRec k.val) 29 &&& ~~~(v &&& 0x7FF#32)))) ∧
    (23 ≤ i.val → i.val ≠ 29 → write = if on then ignored else .next s) ∧
    (on = true → i.val = 18 ∨ i.val = 19 → write = Claim.chipNext s (c.setReg at_ v)) ∧
    (on = true → i.val = 0 → modeOnly (c.stageRec k.val) v = true → write = Claim.chipNext s
      { c.setReg at_ (v &&& 0x007DFF7F#32) with loop := { c.loop with kept := c.loop.kept.filter (· != k.val) } }) ∧
    (on = true → i.val = 0 → modeOnly (c.stageRec k.val) v = false → write = ignored) ∧
    (on = true → 1 ≤ i.val → i.val ≤ 17 ∨ (20 ≤ i.val ∧ i.val ≤ 22) → write = ignored) ∧
    (on = false → i.val = 0 → write = Claim.chipNext s ((c.setReg at_ (v &&& 0x007DFF6F#32)).trimStates k.val)) ∧
    (on = false → 1 ≤ i.val → i.val ≤ 22 → write = Claim.chipNext s (c.setReg at_ (v &&& recMask i.val))) ∧
    (let n := v.toNat % 128
     let tag := v.toNat / 256 % 256
     let target := (c.reg LE_UPDFRAME).toNat
     let ask := exec (.updateSetCommit src v) s
     let tells := fun (idx x : Nat) => ask = Claim.chipNext s (c.updReport tag idx x)
     let modes := c.mode ≠ 5 ∧ c.mode ≠ 1
     let ahead := (target + 2 ^ 32 - c.loop.frame % 2 ^ 32) % 2 ^ 32
     let set : UpdSet := ⟨tag, if target = 0 then none else some target, c.stagedRecs n⟩
     (¬modes → tells 0x7F 8) ∧ (modes → c.loop.upd ≠ none → tells 0x7F 2) ∧ (modes → c.loop.upd = none → n = 0 ∨ 64 < n → tells 0x7F 3) ∧
     (modes → c.loop.upd = none → 1 ≤ n → n ≤ 64 →
       (∀ code idx, c.checkSet (c.stagedRecs n) = some (code, idx) → tells idx code) ∧
       (c.checkSet (c.stagedRecs n) = none → c.running = false → ask = Claim.chipNext s (c.applyUpd set)) ∧
       (c.checkSet (c.stagedRecs n) = none → c.running = true → target ≠ 0 ∧ (ahead = 0 ∨ 2 ^ 31 ≤ ahead) → tells 0x7F 9) ∧
       (c.checkSet (c.stagedRecs n) = none → c.running = true → ¬(target ≠ 0 ∧ (ahead = 0 ∨ 2 ^ 31 ≤ ahead)) →
         Claim.does s (.updateSetCommit src v) fun d => d.loop = { c.loop with upd := some set } ∧ d.flag LE_STAT_UPDPEND = true ∧
           d.fld LE_UPDSTAT_RESULT = 0))) ∧
    (let q := v.toNat % 2048
     let reads_ := fun (x : List Word) => ((recSources x).take (typeInputs (recType x))).any (fun y => srcStage y == some q) ||
       (recType x == tPid && recParent x == some q)
     let used := c.enabledStages.any fun j => j != q && reads_ (c.stageRec j)
     let off := exec (.leDisable src v) s
     (used = true → off = ignored) ∧ (used = false → recEnable (c.stageRec q) = false → off = .next s) ∧
     (recEnable (c.stageRec q) = true → used = false → c.running = true → off = Claim.chipNext s { c with loop := { c.loop with disables := q :: c.loop.disables } }) ∧
     (recEnable (c.stageRec q) = true → used = false → c.running = false → Claim.does s (.leDisable src v) fun d =>
       recEnable (d.stageRec q) = false ∧ d.loop.due = c.loop.due)) ∧
    (let turnsOn := v.getLsbD 31 = true ∧ c.flag (LE_TAPSEL_ENABLE tap.val) = false
     let long := 29000 < scheduleBound c.config (c.enabledTaps.length + 1)
     (turnsOn ∧ long → exec (.tapEnable src tap v) s = ignored) ∧
     (¬(turnsOn ∧ long) → Claim.does s (.tapEnable src tap v) fun d => d.reg (LE_TAPSEL tap.val) = v &&& 0xFFF807FF#32 ∧ d.events = c.events))

/-- Trace captures and what comes from the fabric (R330, R331, R333, R334, R338, R345 to R347): arming empties the taps unless the last capture still streams; a software trigger is the
first trigger; a set-point message for a remote-fed PID stage waits for its instant; one that breaks R333 is counted; an echo is kept for its outer stage. -/
def Obligations.TracesAndRemoteSetpoints : Prop :=
  ∀ (s : State) (src : Island) (v : Word) (m : Msg),
    let c := s.chip
    let ring := c.fld LE_RSPCFG_RXRING
    let b := m.bytes
    (Claim.reaches c src.val 0x08 →
      (v.getLsbD 31 = true → v.getLsbD 30 = false → c.flag LE_TRCCTL_ARM = false → c.streaming = false → Claim.does s (.traceArm src v) fun d =>
        d.flag LE_TRCCTL_ARM = true ∧ d.flag LE_TRCSTAT_TRIGGERED = false ∧ d.flag LE_TRCSTAT_DONE = false ∧ d.fld LE_TRCCTL_PRE = v.toNat / 2 ^ 10 % 2 ^ 10 ∧
        ∀ t : Fin 64, d.reg (LE_TAPPOS t.val) = 0#32 ∧ d.tap t.val = ⟨0, none, false, (c.tap t.val).prev, []⟩) ∧
      (v.getLsbD 31 = true → v.getLsbD 30 = false → c.flag LE_TRCCTL_ARM = false → c.streaming = true → Claim.does s (.traceArm src v) fun d =>
        d.flag LE_TRCCTL_ARM = false ∧ d.loop = c.loop) ∧
      (v.getLsbD 31 = true → v.getLsbD 30 = true → c.flag LE_TRCCTL_ARM = true → c.flag LE_TRCSTAT_TRIGGERED = false → Claim.does s (.swtrig src v) fun d =>
        d.flag LE_TRCSTAT_TRIGGERED = true ∧ d.counter LE_TRCFRAME_LO = c.loop.frame % 2 ^ 64 ∧
        ∀ t ∈ c.enabledTaps, (d.tap t).left = some (1024 - v.toNat / 2 ^ 10 % 2 ^ 10))) ∧
    (c.head? ring = some m → c.flag LE_RSPCFG_ENABLE = true → m.poisoned = false → (c.pool.ring ring).prod = 0x12 → (c.pool.ring ring).cons = 0x08 →
      let stage := bytesAt b 2 2
      let at_ := bytesAt b 16 8 * 65536 + bytesAt b 24 2
      let now := c.fabricFracAt c.mono
      let r := c.stageRec stage
      let old := (assocGet c.loop.remotes stage).getD ⟨none, none, none, none, 0⟩
      let sp : RemoteSp := ⟨signed 32 (bytesAt b 8 4), signed 8 (bytesAt b 1 1), at_, bitAt (bytesAt b 6 2) 0, decide (at_ < now), [(bytesAt b 4 2, m.src / 256)]⟩
      let takes := stage < 2048 ∧ recEnable r = true ∧ recType r = tPid ∧ recRemoteSp r = true ∧ at_ ≤ now + 1000000000 * 65536 ∧
        old.pend = none ∧ ∀ x, old.lastAt = some x → x < at_
      (bytesAt b 0 1 = 1 → takes → Claim.does s .remoteSetpoint fun d => d.pool = (c.consume ring).pool ∧ d.regs = (c.consume ring).regs ∧
        assocGet d.loop.remotes stage = some { old with pend := some sp }) ∧
      (bytesAt b 0 1 = 1 → 2048 ≤ stage ∨ recRemoteSp r = false ∨ now + 1000000000 * 65536 < at_ → Claim.does s .remoteSetpoint fun d =>
        d.loop = c.loop ∧ d.pool = (c.consume ring).pool ∧ d.counter LE_RSPDISC_LO = (c.counter LE_RSPDISC_LO + 1) % 2 ^ 64) ∧
      (bytesAt b 0 1 = 2 → exec .remoteSetpoint s = .next s ∧ Claim.does s .echo fun d => d.pool = (c.consume ring).pool ∧
        assocGet d.loop.echoes stage = some ⟨bytesAt b 6 2 / 4 % 4, signed 32 (bytesAt b 8 4), signed 8 (bytesAt b 1 1), c.loop.frame⟩)) ∧
    (c.flag LE_RSPCFG_ENABLE = false ∨ c.head? ring = none ∨ (c.pool.ring ring).prod ≠ 0x12 ∨ (c.pool.ring ring).cons ≠ 0x08 → exec .remoteSetpoint s = .next s ∧ exec .echo s = .next s)

/-! ## Analogue channels -/

/-- A command answers a next state in which one channel is `x`, and nothing else of the machine has changed. -/
def Sys2Proof.Claim.chanNow (s : State) (i : Instr) (k : Nat) (x : Chan) : Prop :=
  Claim.does s i fun d => d = { s.chip with chans := d.chans } ∧ d.chan k = x ∧ ∀ j, j ≠ k → d.chan j = s.chip.chan j

/-- Samples, triggers and live bits (R358, R360, R365, R367 to R371, R397, R424): the sample of a continuous channel whose instant has come and the frame conditions of its
delivery, of the value that its range makes of the signal; none while the CG island's clock stands (R100); a trigger that arrives at an idle channel opens its window, in the merge slot of the last one it is counted; a software trigger is an arrival 2 µs after
the next link frame starts; a live bit and a limit bit follow what the front end and the newest value show. -/
def Obligations.SamplesAndTriggers : Prop :=
  ∀ (s : State) (k : Chan512) (src : Island) (g : Group) (signal sensor : Int) (v : Word) (b : Bool),
    let c := s.chip
    let x := c.chan k.val
    let e := x.entry
    let only := fun (i : Instr) (y : Chan) => Claim.chanNow s i k.val y
    let hz := rateHz (eRate e)
    let meas := measured e signal (c.coldJunction e sensor)
    let powered := c.islandOn (0x0A + k.val / 64) = true
    (¬powered → exec (.sampleDelivery k signal sensor) s = .next s) ∧
    (∀ stamp n : Nat, powered → c.topo < 2 → eSource e = 0 → eActive e ≠ 0 → x.window = none → x.ended = [] → x.svcEnd = none → c.flag (CG_LINKSTAT_UP (k.val / 64)) = true →
      stamp = n * 1000000000 / hz → stamp ≤ c.mono → c.mono < (n + 1) * 1000000000 / hz → x.readyAt + windowNs e + 6000 ≤ stamp → x.since + 6000 < stamp →
      ((∀ q ∈ x.samples.head?, q.stamp < stamp) → Claim.does s (.sampleDelivery k signal sensor) fun d => d = { c with chans := d.chans } ∧
        (d.chan k.val).samples = ⟨valueWord e (clampTc (eRange e) meas), meas, stamp⟩ :: x.samples.take 1 ∧ (d.chan k.val).entry = e ∧
        (∀ j, j ≠ k.val → d.chan j = c.chan j)) ∧
      ((∃ q, x.samples.head? = some q ∧ stamp ≤ q.stamp) → only (.sampleDelivery k signal sensor) x)) ∧
    ((∀ a ∈ x.arrivals, c.mono < a) → exec (.triggerArrival k) s = .next s) ∧
    (∀ (a : Nat) (rest : List Nat), x.arrivals = a :: rest → a ≤ c.mono → eActive e ≠ 0 → eSource e ≥ 2 → x.readyAt ≤ a → x.window = none →
      (x.lastArr ≠ some (a / 25) → only (.triggerArrival k) { x with arrivals := rest, lastArr := some (a / 25), window := some (a, a + windowNs e) }) ∧
      (x.lastArr = some (a / 25) → x.ovr < 2 ^ 64 - 1 → only (.triggerArrival k) { x with arrivals := rest, ovr := x.ovr + 1 })) ∧
    (Claim.reaches c src.val (0x0A + g.val) → Claim.does s (.cgSwtrig src g b v) fun d => d = { c with chans := d.chans } ∧ ∀ n : Fin 32,
      let j := 64 * g.val + (if b then 32 else 0) + n.val
      d.chan j = (if v.getLsbD n.val = true ∧ eActive (c.chan j).entry ≠ 0 ∧ eSource (c.chan j).entry = 3 then
        { c.chan j with arrivals := (c.chan j).arrivals ++ [(c.mono / 5000 + 1) * 5000 + 2000] } else c.chan j)) ∧
    (let live := fun (ok : Bool) (i : Instr) (bit : Nat) => (ok = true → only i (x.setBit bit b)) ∧ (ok = false → exec i s = .next s)
     live (isAo (eActive e)) (.rbdev k b) 4 ∧ live (hasWireBreak (eActive e)) (.wirebreak k b) 0 ∧ live (hasShort (eActive e)) (.short k b) 1) ∧
    (∀ q, x.samples.head? = some q → eActive e ≠ 0 → eLimEn e = true →
      let y := q.value.toInt
      (eLimHi e < y → only (.limitDelay k true) { x with limHi := true, limHiS := x.limHiS || !x.limHi }) ∧
      (y < eLimHi e - eLimHyst e → y ≤ eLimHi e → only (.limitDelay k true) { x with limHi := false }) ∧
      (eLimHi e - eLimHyst e ≤ y → y ≤ eLimHi e → exec (.limitDelay k true) s = .next s) ∧
      (y < eLimLo e → only (.limitDelay k false) { x with limLo := true, limLoS := x.limLoS || !x.limLo }) ∧
      (eLimLo e + eLimHyst e < y → eLimLo e ≤ y → only (.limitDelay k false) { x with limLo := false }))

/-- Shadow rotation and the reference check (R375 to R377, R379, R382, R383, R385): a round starts when its period has passed, or is marked late; a channel goes round
attach, calibrate, reattach, shadow calibration, each phase at least 10, 80, 10 and 20 ms, the handovers between windows; a disagreement is counted; the reference check shows the deviation, warns and freezes; SERVICE
calibration is refused in its order; RESUME clears a fault whose deviation has gone. -/
def Obligations.RotationAndReference : Prop :=
  ∀ (s : State) (g : Group) (k : Chan512) (src : Island) (v : Word) (dev : BitVec 16) (gap : Int),
    let c := s.chip
    let x := c.chan k.val
    let at_ := k.val / 64
    let period := fun (h : Nat) => c.fld (CG_CALCTL_ROTPERIOD h) * 1000000000
    let due := ∀ t, (c.grp g.val).lastStart = some t → t + period g.val ≤ c.mono
    let over_ := fun (r : Rot) (ms : Nat) => x.rot = r ∧ x.rotAt + ms * 1000000 ≤ c.mono
    let between := x.betweenWindows c.mono = true
    let passed := fun (d : Chip) (h : Nat) => d.fld (CG_REFDEV_DEV h) = dev.toNat ∧ (d.flag (CG_CALSTAT_REFWARN h) = true ↔ 2000 < dev.toInt.natAbs) ∧
      (dev.toInt.natAbs ≤ 6000 → d.events = c.events ∧ d.fld (CG_CALSTAT_REFFAULT h) = c.fld (CG_CALSTAT_REFFAULT h)) ∧
      (6000 < dev.toInt.natAbs → c.flag (CG_CALSTAT_REFFAULT h) = false → d.flag (CG_CALSTAT_REFFAULT h) = true ∧ d.flag (CG_CALSTAT_FROZEN h) = true ∧
        Claim.event c d 0x1C0F 6)
    (¬due → exec (.roundStart g) s = .next s) ∧
    (∀ t, due → (c.grp g.val).round = some t →
      (t + period g.val < c.mono → Claim.does s (.roundStart g) fun d => d.flag (CG_CALSTAT_ROUND_LATE g.val) = true ∧ d.chans = c.chans ∧
        (d.grp g.val).nextLate = true) ∧
      (c.mono ≤ t + period g.val → exec (.roundStart g) s = .next s)) ∧
    (due → (c.grp g.val).round = none → c.rotList g.val ≠ [] → (∀ i, i / 64 = g.val → (c.chan i).rot ≠ .onShadow) → Claim.does s (.roundStart g) fun d => d.regs = c.regs ∧
      (d.grp g.val).round = some c.mono ∧ (d.grp g.val).lastStart = some c.mono ∧ (d.grp g.val).todo = c.rotList g.val) ∧
    (let step := fun (i : Bool → Instr) (a b : Rot) => (¬over_ a 10 ∨ ¬between → exec (i true) s = .next s ∧ exec (i false) s = .next s) ∧
      (over_ a 10 → between → Claim.chanNow s (i true) k.val { x with rot := b, rotAt := c.mono } ∧ Claim.does s (i false) fun d =>
        d.counter (CG_HOABORT_LO at_) = (c.counter (CG_HOABORT_LO at_) + 1) % 2 ^ 64)
     step (.handover k) .attach .calibrate ∧ step (.handBack k) .reattach .shadowCal) ∧
    (¬over_ .shadowCal 20 → exec (.shadowCalibrationEnd k) s = .next s) ∧
    (∀ t, over_ .shadowCal 20 → (c.grp at_).todo = [k.val] → (c.grp at_).round = some t → (c.grp at_).nextLate = false → c.mono ≤ t + period at_ →
      Claim.does s (.shadowCalibrationEnd k) fun d => (d.chan k.val).rot = .idle ∧ (d.grp at_).round = none ∧
        d.counter (CG_ROUNDS_LO at_) = (c.counter (CG_ROUNDS_LO at_) + 1) % 2 ^ 64) ∧
    (¬over_ .calibrate 80 → exec (.calibratePhaseEnd k dev gap) s = .next s) ∧
    (over_ .calibrate 80 → Claim.does s (.calibratePhaseEnd k dev gap) fun d => passed d at_ ∧ (d.chan k.val).rot = .reattach ∧
      (dev.toInt.natAbs ≤ 6000 → c.flag (CG_CALSTAT_FROZEN at_) = false → (d.chan k.val).calAt = c.mono)) ∧
    ((∀ t, x.svcEnd = some t → c.mono < t) → exec (.serviceCalibrationDone k dev gap) s = .next s) ∧
    (∀ t, x.svcEnd = some t → t ≤ c.mono → Claim.does s (.serviceCalibrationDone k dev gap) fun d => passed d at_ ∧ (d.chan k.val).svcEnd = none ∧
      d.flag (CG_SVCSTAT_BUSY at_) = false ∧ d.fld (CG_SVCSTAT_RESULT at_) = 1) ∧
    (Claim.reaches c src.val (0x0A + g.val) →
      let n := v.toNat % 64
      let ask := exec (.serviceCalibration src g v) s
      let busy := c.flag (CG_SVCSTAT_BUSY g.val)
      let off := eActive (c.chan (64 * g.val + n)).entry = 0
      let tells := fun (r : Nat) => ask = Claim.chipNext s (c.setFlds [(CG_SVCSTAT_CHAN g.val, n), (CG_SVCSTAT_RESULT g.val, r)])
      (v.getLsbD 31 = false → ask = .next s) ∧
      (v.getLsbD 31 = true → (c.mode ≠ 7 → tells 2) ∧ (c.mode = 7 → busy = true → tells 3) ∧ (c.mode = 7 → busy = false → off → tells 4) ∧
        (c.mode = 7 → busy = false → ¬off → Claim.does s (.serviceCalibration src g v) fun d => d.flag (CG_SVCSTAT_BUSY g.val) = true ∧
          d.fld (CG_SVCSTAT_CHAN g.val) = n ∧ (d.chan (64 * g.val + n)).svcEnd = some (c.mono + 80000000))) ∧
      (let r := v.toNat % 4096
       Claim.does s (.resume src g v) fun d => d.chans = c.chans ∧ d.grps = c.grps ∧ c.regsSameBut d [CG_CALCTL g.val, (CG_CALSTAT_FROZEN g.val).key] ∧
        d.fld (CG_CALCTL_ROTPERIOD g.val) = (if r = 0 then 1 else if 3600 < r then 3600 else r) ∧
        (v.getLsbD 29 = true → (BitVec.ofNat 16 (c.fld (CG_REFDEV_DEV g.val))).toInt.natAbs ≤ 2000 →
          d.flag (CG_CALSTAT_REFFAULT g.val) = false ∧ d.flag (CG_CALSTAT_FROZEN g.val) = false) ∧
        (v.getLsbD 29 = false → d.fld (CG_CALSTAT_FROZEN g.val) = c.fld (CG_CALSTAT_FROZEN g.val))))

/-- Outputs and HART (R128, R388, R391, R400 to R405): an output whose link is up takes the command received; during a range ramp the newest value waits, and applies when the
ramp ends; a HART request of the ring that software has given to the CG island goes to its channel or is refused 5; the answer of a device, or none, ends the oldest request; a
burst is passed on; responses wait for room whatever the ring's policy (R402). -/
def Obligations.OutputsAndHart : Prop :=
  ∀ (s : State) (k : Chan512) (g : Group) (cmd : BitVec 16) (rsp dev : Byte) (data : List Byte) (w : Word),
    let c := s.chip
    let x := c.chan k.val
    let e := x.entry
    let h := k.val / 64
    let driven := x.isOutput = true ∧ c.flag (CG_LINKSTAT_SAFE h) = false
    let powered := c.flag (CG_FPSTAT_MISSING h) = false ∧ (c.grp h).filling = false ∧ c.sec.package ≠ []
    let running := c.islandOn (0x0A + h) = true
    let plain := c.mode ≠ 6 ∧ c.red.xAt = none ∧ running
    let answer := fun (q : HartReq) (res a b : Nat) (bs : List Byte) => toBytes 2 (c.chanBase + k.val) ++ toBytes 2 q.cmd ++ toBytes 2 q.tag ++
      toBytes 1 bs.length ++ toBytes 1 res ++ toBytes 1 a ++ toBytes 1 b ++ toBytes 6 0 ++ bs
    let sent := fun (d : Chip) (bs : List Byte) => d.pool = (c.publishWait (c.fld (CG_HARTCFG_RSPRING h)) (0x0A + h) bs).pool
    (¬driven → exec (.outputApply k) s = .next s) ∧
    (driven → ¬powered → Claim.chanNow s (.outputApply k) k.val { x with term := none, drive := 0 }) ∧
    (driven → powered → eMode e = 0 → x.ramp = none → x.got = some w → Claim.does s (.outputApply k) fun d => d = { c with chans := d.chans } ∧
      (d.chan k.val).term = some w ∧ (d.chan k.val).drive = (driveOf e w).1 ∧ (d.chan k.val).status.testBit 6 = (driveOf e w).2 ∧
      (d.chan k.val).status.testBit 12 = false ∧ ∀ j, j ≠ k.val → d.chan j = c.chan j) ∧
    (∀ r, driven → powered → eMode e = 0 → x.ramp = some r → c.mono < r.stop → Claim.chanNow s (.outputApply k) k.val
      { x with ramp := some { r with held := x.got <|> r.held } }) ∧
    (∀ r, x.ramp = some r → (c.mono ≤ r.stop → exec (.rangeRampEnd k) s = .next s) ∧ (r.stop + 25 ≤ c.mono → eMode e = 0 → r.held = some w →
      Claim.does s (.rangeRampEnd k) fun d => d = { c with chans := d.chans } ∧ (d.chan k.val).ramp = none ∧ (d.chan k.val).drive = (driveOf e w).1 ∧
        (d.chan k.val).term = some w)) ∧
    (x.ramp = none → exec (.rangeRampEnd k) s = .next s) ∧
    (let ring := c.fld (CG_HARTCFG_REQRING g.val)
     let given := 64 ≤ ring ∧ ring < 16384 ∧ (c.pool.ring ring).cons = 0x0A + g.val
     (¬given ∨ c.head? ring = none ∨ c.flag (CG_HARTCFG_ENABLE g.val) = false ∨ c.islandOn (0x0A + g.val) = false → exec (.hartRequest g) s = .next s) ∧
     (∀ m i, given → c.islandOn (0x0A + g.val) = true → c.head? ring = some m → c.flag (CG_HARTCFG_ENABLE g.val) = true → bytesAt m.bytes 0 2 = c.chanBase + i → i < 512 → i / 64 = g.val → (c.chan i).hartOn = true →
       let b := m.bytes
       ((c.chan i).hart.length < 4 → Claim.does s (.hartRequest g) fun d => d.pool = (c.consume ring).pool ∧ d.regs = c.regs ∧ d.chan i = { c.chan i with
         hart := (c.chan i).hart ++ [⟨bytesAt b 2 2, bytesAt b 4 2, (bytesAt b 7 1).testBit 0, (b.drop 16).take (bytesAt b 6 1)⟩] }) ∧
       (4 ≤ (c.chan i).hart.length → exec (.hartRequest g) s = Claim.chipNext s ((c.consume ring).publishWait (c.fld (CG_HARTCFG_RSPRING g.val)) (0x0A + g.val)
         (toBytes 2 (c.chanBase + i) ++ toBytes 2 (bytesAt b 2 2) ++ toBytes 2 (bytesAt b 4 2) ++ [0#8, 5#8] ++ toBytes 8 0))))) ∧
    (x.hart = [] ∨ ¬plain → ∀ r, exec (.hartResponse k r) s = .next s) ∧
    (∀ (q : HartReq) (qs : List HartReq), plain → x.hart = q :: qs →
      (x.loopLow c.mono = true → Claim.does s (.hartResponse k (.reply rsp dev data)) fun d => (d.chan k.val).hart = qs ∧ sent d (answer q 4 0 0 [])) ∧
      (x.loopLow c.mono = false → (Claim.does s (.hartResponse k (.reply rsp dev data)) fun d => (d.chan k.val).hart = qs ∧ (d.chan k.val).hartRsp = rsp.toNat ∧
          (d.chan k.val).hartDev = dev.toNat ∧ (d.chan k.val).status.testBit 14 = false ∧ sent d (answer q 0 rsp.toNat dev.toNat data)) ∧
        (Claim.does s (.hartResponse k .silent) fun d => (d.chan k.val).hart = qs ∧ (d.chan k.val).status.testBit 14 = true ∧ sent d (answer q 1 0 0 [])) ∧
        (Claim.does s (.hartResponse k .garbled) fun d => (d.chan k.val).hart = qs ∧ (d.chan k.val).status.testBit 14 = true ∧ sent d (answer q 2 0 0 [])))) ∧
    (x.hartOn = false ∨ ¬running → exec (.burstFrame k cmd rsp dev data) s = .next s) ∧
    (x.hartOn = true → running → Claim.does s (.burstFrame k cmd rsp dev data) fun d => d.chans = c.chans ∧
      sent d (answer ⟨cmd.toNat, 0xFFFF, false, []⟩ 6 rsp.toNat dev.toNat data))

/-! ## The channel table, digital channels, field supplies and the link -/

/-- The channel table (R427, R429, R433, R436, R442, R444, R447, R448, R491): a load that passes its checks waits for its conversion boundary, another is refused with its reason; the
boundary applies the entry, or discards a safety-relevant one with SW1 off; a set waits, or is refused for its list; a load and a set wait until the thermal manager's
rings have room (R73, R74); the write-back puts the status block in DRAM and nothing else there, nothing in RECOVERY or where bytes are locked (R767, R844); CT_STATCLR clears sticky bits; CT_BASE is writable in PROGRAM and SERVICE; a temperature sets HOT and the budgets. -/
def Obligations.ChannelTable : Prop :=
  ∀ (s : State) (k : Chan512) (src : Island) (v : Word) (a b : BitVec 11),
    let c := s.chip
    let x := c.chan k.val
    let i := v.toNat % 1024 - c.chanBase
    let tag := v.toNat / 2 ^ 16 % 256
    (Claim.reaches c src.val 0x0A → c.hasRoom 1 = false ∨ c.hasRoom 4 = false → exec (.ctInval src v) s = .next s ∧ exec (.ctCommit src v) s = .next s) ∧
    (Claim.reaches c src.val 0x0A → v.toNat % 1024 = c.chanBase + i → i < 512 →
      let y := c.chan i
      let e := c.copyEntry s.mem (v.toNat % 1024)
      let ask := Instr.ctInval src v
      let room := c.hasRoom 1 = true ∧ c.hasRoom 4 = true
      (∀ why n, room → c.refusal [(v.toNat % 1024, e)] false none = some (why, n) → Claim.does s ask fun d => d.fld CT_INVSTAT_RESULT = 2 ∧
        d.fld CT_INVSTAT_REASON = why % 16 ∧ d.fld CT_INVSTAT_TAG = tag ∧ (d.chan i).pend = y.pend ∧ (d.chan i).entry = y.entry ∧ (d.chan i).res = why * 16 + 2) ∧
      (c.fieldBad [(i, e)] (v.toNat % 1024) e = true → ∃ n, c.refusal [(v.toNat % 1024, e)] false none = some (1, n)) ∧
      (room → c.refusal [(v.toNat % 1024, e)] false none = none → Claim.does s ask fun d => d.fld CT_INVSTAT_RESULT = 0 ∧ d.fld CT_INVSTAT_TAG = tag ∧
        (d.chan i).pend = some ⟨e, tag, safetyRelevant y.entry e, c.mono, (y.runWindow c.mono 2).window.isSome⟩ ∧ (d.chan i).entry = y.entry ∧ ∀ j, j ≠ i → d.chan j = c.chan j) ∧
      (let status := y.status &&& (0xFFFF - (v.toNat / 2 ^ 10 % 2 ^ 16 &&& stickyBits y.entry))
       Claim.does s (.ctStatclr src v) fun d => d = { c with chans := d.chans } ∧ (∀ j, j ≠ i → d.chan j = c.chan j) ∧ (d.chan i).status = status ∧
        (d.chan i).limHiS = (y.limHiS && !v.getLsbD 28) ∧ (d.chan i).limLoS = (y.limLoS && !v.getLsbD 29) ∧
        (d.chan i).ovr = (if v.getLsbD 30 then 0 else y.ovr) ∧ (d.chan i).ign = (if v.getLsbD 31 then 0 else y.ign))) ∧
    (x.pend = none ∨ c.islandOn (0x0A + k.val / 64) = false → exec (.entryApply k) s = .next s) ∧
    (∀ (l : Load) (at_ : Nat), x.pend = some l → c.islandOn (0x0A + k.val / 64) = true →
      ((eActive x.entry = 0 ∨ isAo (eActive x.entry) = true ∨ (eSource x.entry ≠ 0 ∧ l.busy = false)) ∧ at_ = (l.since / 5000 + 1) * 5000) ∨
        (eActive x.entry ≠ 0 ∧ isAo (eActive x.entry) = false ∧ l.busy = true ∧ ∃ z, x.window = some (z, at_) ∧ z ≤ l.since) →
      (c.mono < at_ → exec (.entryApply k) s = .next s) ∧
      (at_ ≤ c.mono → l.relevant = true ∧ c.flag TP_SWBANK_SW1 = false → Claim.does s (.entryApply k) fun d =>
        d.chan k.val = { x with pend := none, res := 4 * 16 + 3 } ∧ d.fld CT_INVSTAT_RESULT = 3 ∧ d.fld CT_INVSTAT_REASON = 4) ∧
      (at_ ≤ c.mono → ¬(l.relevant = true ∧ c.flag TP_SWBANK_SW1 = false) → Claim.does s (.entryApply k) fun d => (d.chan k.val).entry = l.entry ∧
        (d.chan k.val).pend = none ∧ (d.chan k.val).res = 1 ∧ (∀ j, j ≠ k.val → d.chan j = c.chan j) ∧ (l.relevant = true → d.flag TP_STAT_HASHBUSY = true))) ∧
    (Claim.reaches c src.val 0x0A → c.hasRoom 1 = true → c.hasRoom 4 = true →
      let n := v.toNat % 128
      let list := (c.reg CT_SETADDR).toNat * 8
      let items := (chanList s.mem list n).map fun g => (g, c.copyEntry s.mem g)
      let immed := v.getLsbD 31
      let task := v.toNat / 2 ^ 24 % 16
      let target := (c.reg CT_SETTGT_LO).toNat + (c.reg CT_SETTGT_HI).toNat * 2 ^ 32
      let good := 1 ≤ n ∧ n ≤ 64 ∧ list + 2 * n ≤ 0x800000000
      (¬good → Claim.does s (.ctCommit src v) fun d => d.sets = c.sets ∧ d.chans = c.chans ∧ d.fld CT_SETSTAT_RESULT = 2 ∧ d.fld CT_SETSTAT_REASON = 1 ∧
        d.fld CT_SETSTAT_BADIDX = 0x7F ∧ d.fld CT_SETSTAT_TAG = tag) ∧
      (good → c.refusal items true (if immed then none else some (task, target)) = none → Claim.does s (.ctCommit src v) fun d =>
        d.fld CT_SETSTAT_RESULT = 0 ∧ d.fld CT_SETSTAT_TAG = tag ∧ ∃ rel, d.sets = c.sets ++ [⟨tag, immed, task, target, if immed then some (c.mono + 1) else none,
          rel, c.localItems items⟩])) ∧
    (let at_ := c.fld CT_BASE_ADDR * 0x40000 + (c.chanBase + k.val) * 0x100 + 0xB0
     (0x800000000 < at_ + 64 → exec (.statusWriteback k) s = .next s) ∧
     (at_ + 64 ≤ 0x800000000 → c.mode = 1 ∨ c.locked at_ 64 = true → ∃ t, exec (.statusWriteback k) s = .next t ∧ s.restSame t ∧
       t.chip.chan k.val = { x with wbseq := (x.wbseq + 1) % 2 ^ 32 }) ∧
     (at_ + 64 ≤ 0x800000000 → c.mode ≠ 1 → c.locked at_ 64 = false → ∃ t, exec (.statusWriteback k) s = .next t ∧ t.cores = s.cores ∧ t.pending = s.pending ∧
       (∀ p, p < at_ ∨ at_ + 64 ≤ p → memByte t.mem p = memByte s.mem p) ∧ t.chip.chan k.val = { x with wbseq := (x.wbseq + 1) % 2 ^ 32 } ∧
       memRead t.mem 4 at_ = (x.wbseq + 1) % 2 ^ 32 ∧ memRead t.mem 4 (at_ + 4) = c.statusWord k.val % 2 ^ 32 ∧ memRead t.mem 4 (at_ + 12) = x.value.toNat)) ∧
    (Claim.reaches c src.val 0x0A → (c.mode ≠ 3 ∧ c.mode ≠ 7 → Claim.does s (.ctBaseWrite src v) fun d => d.regs = c.regs ∧ d.chans = c.chans ∧ Claim.event c d 0x1D01 3) ∧
      (c.mode = 3 ∨ c.mode = 7 → ∃ t, exec (.ctBaseWrite src v) s = .next t ∧ t.cores = s.cores ∧ t.pending = s.pending ∧ t.chip.fld CT_BASE_ADDR = v.toNat % 2 ^ 18 ∧
        ∀ p, (∀ j, j < 512 → let at_ := v.toNat % 2 ^ 18 * 0x40000 + (c.chanBase + j) * 0x100 + 0xB0; p < at_ ∨ at_ + 64 ≤ p) → memByte t.mem p = memByte s.mem p)) ∧
    (let hotter := if a.toInt < b.toInt then b else a
     let shows := fun (i : Instr) (t : BitVec 11) (fault : Bool) => Claim.does s i fun d => d.chans = c.chans ∧ d.fld PW_THERM_TEMP = t.toNat ∧
       (d.flag PW_THERM_HOT = true ↔ 500 < t.toInt) ∧ d.flag PW_THERM_SENSFAULT = fault ∧
       ∀ g : Group, (t.toInt ≤ 340 → d.fld (PW_GRPCHG_BUDGET g.val) = 22500) ∧ (500 < t.toInt → d.fld (PW_GRPCHG_BUDGET g.val) = 0)
     shows (.temperatureUpdate (some a) (some b)) hotter false ∧ shows (.temperatureUpdate (some a) none) a true ∧ shows (.temperatureUpdate none (some b)) b true ∧
     Claim.does s (.temperatureUpdate none none) fun d => d.flag PW_THERM_HOT = true ∧ d.fld PW_THERM_TEMP = c.fld PW_THERM_TEMP)

/-- Digital channels (R100, R452, R453, R455, R458, R460, R461, R465 to R468, R471, R473): a pulsed input delivers a sample at each instant and changes its filtered state after the
consecutive samples its filter asks for, none before the input is configured nor while its island's clock stands; a change of a continuous input makes an SOE record, or is counted where 64 wait; records go to the ring in order; a
trip opens the switch, of a pair both, and stays until re-armed. -/
def Obligations.DigitalChannels : Prop :=
  ∀ (s : State) (k : Chan512) (g : Group) (b : Bool) (edge : Nat),
    let c := s.chip
    let x := c.chan k.val
    let h := k.val / 64
    let up := c.flag (CG_LINKSTAT_UP h) = true
    let alone := up ∧ c.islandOn (0x0A + h) = true ∧ c.topo < 2
    let newer := fun (t ns : Nat) => x.readyAt + ns ≤ t ∧ ∀ q ∈ x.lastArr, q < t
    let value := fun (f : Bool) => if f = eInvert x.entry then 0#32 else 1#32
    let pulse := (c.mono + 1000) / 250000 * 250000 - 1000
    let beat := (c.mono + 1000) / 31250 * 31250 - 1000
    let pushed := fun (t : Nat) (y : Chan) (f : Bool) => { y with lastArr := some t, samples := ⟨value f, 0, t⟩ :: x.samples.take 1 }
    let next := x.agree + 1
    (c.mono + 1000 < 250000 ∨ x.isInput 1 = false ∨ ¬newer pulse 26000 → exec (.diPulsedSample k b) s = .next s) ∧
    (250000 ≤ c.mono + 1000 → x.isInput 1 = true → newer pulse 26000 → eDiEn x.entry = true → Claim.does s (.diPulsedSample k b) fun d =>
      d.trip.raw.testBit (2 * k.val) = b) ∧
    (250000 ≤ c.mono + 1000 → x.isInput 1 = true → newer pulse 26000 → alone → eDiEn x.entry = false →
      (b = x.filt → Claim.chanNow s (.diPulsedSample k b) k.val (pushed pulse { x with agree := 0 } b)) ∧
      (b ≠ x.filt → next < pulsedCount x.entry → Claim.chanNow s (.diPulsedSample k b) k.val (pushed pulse { x with agree := next } x.filt)) ∧
      (b ≠ x.filt → pulsedCount x.entry ≤ next → Claim.does s (.diPulsedSample k b) fun d => d.regs = c.regs ∧
        d.chan k.val = pushed pulse { x with agree := 0, filt := b } b)) ∧
    (c.mono + 1000 < 31250 ∨ x.isInput 2 = false ∨ ¬newer beat 0 → exec (.diContSample k) s = .next s) ∧
    (31250 ≤ c.mono + 1000 → x.isInput 2 = true → newer beat 0 → alone → Claim.chanNow s (.diContSample k) k.val (pushed beat x x.filt)) ∧
    (let held := edge + dfiltNs (eF x.entry 0x11 1) ≤ c.mono
     let gr := c.grp h
     (x.isInput 2 = false ∨ b = x.filt ∨ ¬held → exec (.filteredChange k b edge) s = .next s) ∧
     (x.isInput 2 = true → b ≠ x.filt → held →
       (c.flag (CG_SOECFG_ENABLE h) = false → Claim.does s (.filteredChange k b edge) fun d => d.chan k.val = { x with filt := b, agree := 0 } ∧ d.grps = c.grps) ∧
       (c.flag (CG_SOECFG_ENABLE h) = true → gr.soe.length < 64 → Claim.does s (.filteredChange k b edge) fun d => d.chan k.val = { x with filt := b, agree := 0 } ∧
         ∃ r, d.grp h = { gr with soe := gr.soe ++ [r], soeSeq := (gr.soeSeq + 1) % 65536 } ∧ r.length = 32 ∧ bytesAt r 0 2 = (c.chanBase + k.val) % 65536 ∧
           bytesAt r 2 1 = (if b = eInvert x.entry then 0 else 1) ∧ bytesAt r 4 2 = gr.soeSeq % 65536 ∧ bytesAt r 8 8 = edge / 10 * 10 % 2 ^ 64) ∧
       (c.flag (CG_SOECFG_ENABLE h) = true → 64 ≤ gr.soe.length → Claim.does s (.filteredChange k b edge) fun d => (d.chan k.val).filt = b ∧
         d.grp h = { gr with soeSeq := (gr.soeSeq + 1) % 65536, soeLost := true } ∧ d.counter (CG_SOEDROP_LO h) = (c.counter (CG_SOEDROP_LO h) + 1) % 2 ^ 64))) ∧
    (let gr := c.grp g.val
     let ring := c.fld (CG_SOECFG_RING g.val)
     let free := c.flag (CG_LINKSTAT_UP g.val) = true ∧ c.islandOn (0x0A + g.val) = true ∧ 64 ≤ ring ∧ c.pool.canTake ring = true ∧ ∀ q ∈ c.pool.held, q.ring ≠ ring
     (gr.soe = [] ∨ ¬free → exec (.soeDelivery g) s = .next s) ∧
     (∀ r rs, free → gr.soe = r :: rs → Claim.does s (.soeDelivery g) fun d => d.grp g.val = { gr with soe := rs, soeLost := false } ∧ d.chans = c.chans ∧
       d.pool = (c.publish ring (0x0A + g.val) (if gr.soeLost then r.set 2 (r.getD 2 0#8 ||| 2#8) else r)).pool)) ∧
    (let trip := fun (i : Instr) (bit : Nat) => (x.isSwitch = false → exec i s = .next s) ∧
       (x.isSwitch = true → c.topo < 2 → Claim.does s i fun d => d = { c with chans := d.chans } ∧ ∀ j, (if j = k.val then true else eMode x.entry = mPaired ∧ j / 2 = k.val / 2) →
         (d.chan j).term = (c.chan j).term.map (fun _ => 0#32) ∧ (d.chan j).status.testBit bit = true ∧ (d.chan j).status.testBit (bit + 6) = true ∧
           (bit = 3 → (d.chan j).rearm = false ∧ (j = k.val → (d.chan j).cooled = false)))
     trip (.overload k) 2 ∧ trip (.overtemp k) 3) ∧
    (x.isSwitch = false ∨ x.status.testBit 3 = false → exec (.junctionCooled k) s = .next s) ∧
    (x.isSwitch = true → x.status.testBit 3 = true →
      (let other := c.chan (k.val / 2 * 2 + 1 - k.val % 2)
       let hot := eMode x.entry = mPaired ∧ other.status.testBit 3 = true ∧ other.cooled = false
       (x.rearm = true → ¬hot → Claim.does s (.junctionCooled k) fun d => d = { c with chans := d.chans } ∧ ∀ j, d.chan j =
         (if j = k.val ∨ (eMode x.entry = mPaired ∧ j / 2 = k.val / 2) then { (c.chan j).setBit 3 false with rearm := false, cooled := false } else c.chan j)) ∧
       (x.rearm = false ∨ hot → Claim.chanNow s (.junctionCooled k) k.val { x with cooled := true }))) ∧
    (x.isSwitch = false ∨ eMode x.entry ≠ mPaired → exec (.imbalance k b) s = .next s) ∧
    (x.isSwitch = true → eMode x.entry = mPaired → Claim.does s (.imbalance k b) fun d => d = { c with chans := d.chans } ∧
      ∀ j, d.chan j = (if j / 2 = k.val / 2 then (c.chan j).setBit 6 b else c.chan j)) ∧
    (let masked := b = true ∧ (x.status.testBit 2 = true ∨ x.status.testBit 3 = true)
     (x.isSwitch = false ∨ masked → exec (.rbmismatch k b) s = .next s) ∧
     (x.isSwitch = true → ¬masked → c.topo < 2 → Claim.does s (.rbmismatch k b) fun d => d = { c with chans := d.chans } ∧ (d.chan k.val).status = (x.setBit 4 b).status ∧
       ∀ j, j ≠ k.val → d.chan j = c.chan j)) ∧
    (x.isSwitch = true → Claim.chanNow s (.openload k b) k.val (x.setBit 5 (b && ((c.commandFor k.val).getD 0#32).getLsbD 0))) ∧
    (x.isSwitch = false → 0x20 ≤ eActive x.entry ∧ eActive x.entry ≤ 0x22 → Claim.chanNow s (.openload k b) k.val (x.setBit 3 b)) ∧
    (x.isSwitch = false → ¬(0x20 ≤ eActive x.entry ∧ eActive x.entry ≤ 0x22) → exec (.openload k b) s = .next s)

/-- Field supplies and the isolation link (R477, R478, R481 to R485, R487, R828): a low and a missing supply are shown, latched and recorded, a missing one takes the outputs off; a
frame carries the newest values written; a good frame is taken, a bad one counted; TIMEOUT without one makes the link safe or down, which a good frame that starts in the instant of its expiry does not
prevent; a CG island whose clock stands receives nothing (R100); RESUME is sent on. -/
def Obligations.FieldAndLink : Prop :=
  ∀ (s : State) (g : Group) (src : Island) (v : Word) (mv : BitVec 16) (up : Bool),
    let c := s.chip
    let gr := c.grp g.val
    let frame := c.mono / 5000 * 5000
    let safe := c.flag (CG_LINKSTAT_SAFE g.val)
    let mine := fun (j : Nat) => j / 64 = g.val
    (18000 ≤ mv.toNat → exec (.fieldSupplyLow g mv) s = .next s) ∧
    (mv.toNat < 18000 → Claim.does s (.fieldSupplyLow g mv) fun d => d.chans = c.chans ∧ c.regsSameBut d [CG_FPSTAT g.val] ∧ d.flag (CG_FPSTAT_LOW g.val) = true ∧
      d.fld (CG_FPSTAT_MV g.val) = mv.toNat ∧ (if c.flag (CG_FPSTAT_LOW g.val) then d.events = c.events ∧ d.fld (CG_FPSTAT_DIPPED g.val) = c.fld (CG_FPSTAT_DIPPED g.val)
        else Claim.event c d 0x1E05 4 ∧ d.flag (CG_FPSTAT_DIPPED g.val) = true)) ∧
    (10000 ≤ mv.toNat → exec (.fieldSupplyMissing g mv) s = .next s) ∧
    (mv.toNat < 10000 → Claim.does s (.fieldSupplyMissing g mv) fun d => c.regsSameBut d [CG_FPSTAT g.val] ∧ d.flag (CG_FPSTAT_MISSING g.val) = true ∧
      d.fld (CG_FPSTAT_MV g.val) = mv.toNat ∧ (c.flag (CG_FPSTAT_MISSING g.val) = true → d.chans = c.chans ∧ d.events = c.events) ∧
      (c.flag (CG_FPSTAT_MISSING g.val) = false → Claim.event c d 0x1E06 5 ∧ d.flag (CG_FPSTAT_LOST g.val) = true ∧
        (∀ j, mine j → (d.chan j).term = none ∧ (d.chan j).want = none ∧ (d.chan j).queue = []) ∧ (∀ j, ¬mine j → d.chan j = c.chan j))) ∧
    (mv.toNat ≤ 19000 → exec (.fieldSupplyRestored g mv) s = .next s) ∧
    (19000 < mv.toNat → Claim.does s (.fieldSupplyRestored g mv) fun d => c.regsSameBut d [CG_FPSTAT g.val] ∧ d.chans = c.chans ∧ d.flag (CG_FPSTAT_LOW g.val) = false ∧
      d.flag (CG_FPSTAT_MISSING g.val) = false ∧ d.fld (CG_FPSTAT_LOST g.val) = c.fld (CG_FPSTAT_LOST g.val) ∧
      d.grp g.val = { gr with filling := c.flag (CG_FPSTAT_MISSING g.val) || gr.filling }) ∧
    (Claim.does s (.fieldBufferCharged g) fun d => d.chans = c.chans ∧ d.regs = c.regs ∧ d.grp g.val = { gr with filling := false }) ∧
    ((∀ h : Group, (c.grp h.val).frame = some frame) → exec .linkFrame s = .next s) ∧
    (c.islandOn (0x0A + g.val) = true → gr.frame ≠ some frame → Claim.does s .linkFrame fun d => (d.grp g.val).frame = some frame ∧
      (d.grp g.val).tmo = c.fld (CG_LINKCFG_TIMEOUT g.val) ∧ (d.grp g.val).resume = false ∧ (d.grp g.val).resumed = gr.resume ∧
      (c.sets = [] → c.mode ≠ 6 → c.red.xAt = none → c.flag (CG_FPSTAT_MISSING g.val) = false → ∀ j, mine j →
        let want := (((c.chan j).queue.filter fun p => decide (p.1 ≤ frame)).getLast?.map Prod.snd) <|> (c.chan j).want
        (d.chan j).want = want ∧ (d.chan j).sent = want ∧ (d.chan j).queue = (c.chan j).queue.filter fun p => decide (frame < p.1))) ∧
    (gr.frame = none → exec (.linkFrameReceive g up true) s = .next s) ∧
    (c.islandOn (0x0A + g.val) = false → exec (.linkFrameReceive g false up) s = .next s) ∧
    (∀ t, gr.frame = some t →
      let expired := ∃ l, gr.goodDown = some l ∧ l + gr.tmo * 1000 ≤ t
      (up = true ∨ c.islandOn (0x0A + g.val) = true → Claim.does s (.linkFrameReceive g up false) fun d => d.chans = c.chans ∧ d.grps = c.grps ∧
        d.counter (CG_LINKCRC_LO g.val) = (c.counter (CG_LINKCRC_LO g.val) + 1) % 2 ^ 64) ∧
      (gr.deen = false → expired → t ≤ c.mono → gr.resumed = false → Claim.does s (.linkFrameReceive g true true) fun d => d.flag (CG_LINKSTAT_SAFE g.val) = true ∧
        ∀ j, mine j → (d.chan j).got = (c.chan j).got) ∧
      (gr.deen = false → ¬expired → Claim.does s (.linkFrameReceive g true true) fun d => (d.grp g.val).goodDown = some t ∧
        (∀ j, mine j → (d.chan j).got = (if safe && !gr.resumed then (c.chan j).got else (c.chan j).sent)) ∧ (∀ j, ¬mine j → d.chan j = c.chan j) ∧
        d.flag (CG_LINKSTAT_SAFE g.val) = (safe && !gr.resumed)) ∧
      (gr.deen = true → Claim.does s (.linkFrameReceive g true true) fun d => ∀ j, mine j → (d.chan j).term = none ∧ (d.chan j).got = none) ∧
      (c.islandOn (0x0A + g.val) = true → Claim.does s (.linkFrameReceive g false true) fun d => (d.grp g.val).goodUp = some t ∧ d.flag (CG_LINKSTAT_UP g.val) = true ∧ d.chans = c.chans)) ∧
    (let late := fun (x : Option Nat) => ∃ t, x = some t ∧ t + gr.tmo * 1000 ≤ c.mono
     let counted := fun (d : Chip) => d.counter (CG_LINKTMO_LO g.val) = (c.counter (CG_LINKTMO_LO g.val) + 1) % 2 ^ 64 ∧ d.flag (CG_LINKSTAT_TMO g.val) = true
     (¬late gr.goodDown ∨ safe = true → exec (.linkTimeoutField g) s = .next s) ∧
     (late gr.goodDown → safe = false → Claim.does s (.linkTimeoutField g) fun d => counted d ∧ d.flag (CG_LINKSTAT_SAFE g.val) = true ∧
       ∀ j, mine j → (c.chan j).isOutput = true → (c.commandFor j = none → eMode (c.chan j).entry ≠ mSafe → (d.chan j).term = none) ∧
         (∀ w, (c.chan j).got = some w → eMode (c.chan j).entry = 0 → (d.chan j).term = some (eSafeVal (c.chan j).entry))) ∧
     (¬late gr.goodUp ∨ c.flag (CG_LINKSTAT_UP g.val) = false ∨ c.islandOn (0x0A + g.val) = false → exec (.linkTimeout g) s = .next s) ∧
     (late gr.goodUp → c.flag (CG_LINKSTAT_UP g.val) = true → c.islandOn (0x0A + g.val) = true → c.counter (CG_LINKTMO_LO g.val) < 2 ^ 64 - 1 → Claim.does s (.linkTimeout g) fun d => counted d ∧
       d.flag (CG_LINKSTAT_UP g.val) = false ∧ d.chans = c.chans ∧ Claim.event c d 0x1C05 6)) ∧
    (Claim.reaches c src.val (0x0A + g.val) → let n := v.toNat % 2 ^ 20
      Claim.does s (.linkResume src g v) fun d => d.chans = c.chans ∧ c.regsSameBut d [CG_LINKCFG g.val] ∧
        d.fld (CG_LINKCFG_TIMEOUT g.val) = (if n < 10 then 10 else if 100000 < n then 100000 else n) ∧
        d.grp g.val = { gr with resume := gr.resume || (v.getLsbD 31 && c.flag (CG_LINKSTAT_UP g.val)) })

/-! ## Safety lanes and the trip matrix -/

/-- Lanes and comparators (R495 to R498, R502, R504 to R506): a good frame up brings the group's states, each once it has held for CMPFILT, one down the permits of its copy;
2 µs without one withdraw the lane's permits; both lanes silent fail the group until both have been good for 10 µs; a comparator has the thresholds and the hysteresis of its
entry on its range's scale, and reaches the safety path after CMPFILT. -/
def Obligations.LanesAndComparators : Prop :=
  ∀ (s : State) (g : Group) (k : Chan512) (lane : Fin 2) (q : Int) (b : Bool) (since : Nat),
    let c := s.chip
    let t := c.trip
    let link := 2 * g.val + lane.val
    let silent := fun (l : Nat) => match assocGet t.upAt (2 * g.val + l) with | some x => x + 2000 ≤ c.mono | none => 2000 ≤ c.mono
    let steady := fun (l : Nat) => ¬silent l ∧ ∃ x, assocGet t.upFrom (2 * g.val + l) = some x ∧ x + 10000 ≤ c.mono
    let permits := fun (d : Chip) (given : Nat → Bool) => ∀ p : Pair,
      d.permA.testBit p.val = (if lane = 0 ∧ (c.groupPairs g.val).testBit p.val = true then given p.val else c.permA.testBit p.val) ∧
      d.permB.testBit p.val = (if lane = 1 ∧ (c.groupPairs g.val).testBit p.val = true then given p.val else c.permB.testBit p.val)
    (Claim.does s (.safetyLaneFrame g lane true true) fun d => assocGet d.trip.upAt link = some c.mono ∧
      (∀ code, d.trip.sig.testBit code = (if code / 128 = g.val then (c.passGroup g.val).trip.reached.testBit code else t.sig.testBit code)) ∧
      (g.val ∉ t.failed → d.flag (upBit g.val lane.val) = true)) ∧
    (Claim.does s (.safetyLaneFrame g lane true false) fun d => d.trip.sig = t.sig ∧ d.trip.upAt = t.upAt ∧ assocGet d.trip.upFrom link = none ∧
      d.flag (upBit g.val lane.val) = false) ∧
    exec (.safetyLaneFrame g lane false false) s = .next s ∧
    (Claim.does s (.safetyLaneFrame g lane false true) fun d => d.regs = c.regs ∧ assocGet d.trip.downAt link = some c.mono ∧
      permits d fun p => if lane = 0 then t.outA.testBit p && !t.gapA.testBit p else t.outB.testBit p && !t.gapB.testBit p) ∧
    (let last := (assocGet t.downAt link).getD 0
     (c.mono < last + 2000 → exec (.laneTimeoutField g lane) s = .next s) ∧
     (last + 2000 ≤ c.mono → Claim.does s (.laneTimeoutField g lane) fun d => d.regs = c.regs ∧ d.trip = t ∧ permits d fun _ => false)) ∧
    (g.val ∈ t.failed ∨ ¬(silent 0 ∧ silent 1) → exec (.laneFailed g) s = .next s) ∧
    (g.val ∉ t.failed → silent 0 → silent 1 → Claim.does s (.laneFailed g) fun d => d.trip.failed = g.val :: t.failed ∧ d.flag TP_STAT_LANEFLT = true ∧
      d.flag (upBit g.val 0) = false ∧ d.flag (upBit g.val 1) = false ∧ c.regsSameBut d [TP_LANESTAT, TP_STAT] ∧ Claim.event c d 0x1C06 7) ∧
    (g.val ∉ t.failed ∨ ¬(steady 0 ∧ steady 1) → exec (.laneRecover g) s = .next s) ∧
    (g.val ∈ t.failed → steady 0 → steady 1 → Claim.does s (.laneRecover g) fun d => d.trip = { t with failed := t.failed.erase g.val } ∧
      d.flag (upBit g.val 0) = true ∧ d.flag (upBit g.val 1) = true ∧ (d.flag TP_STAT_LANEFLT = true ↔ t.failed.erase g.val ≠ []) ∧ d.events = c.events) ∧
    (let e := (c.chan k.val).entry
     let armed := eEnable e = true ∧ eMode e = 0 ∧ eCmpEn e = true
     let at_ := fun (x : Int) => ((cmpScale (eRange e)).1 * 65536 + (if x < 0 then 0 else if 65535 < x then 65535 else x) * (cmpScale (eRange e)).2) * 2 ^ 32
     let terminal := q * 10 * 65536
     let after := fun (code : Nat) (raw : Bool) => let from_ := if raw = t.raw.testBit code then (assocGet t.rawAt code).getD 0 else c.mono
       if from_ + eCmpFilt e * 1000 ≤ c.mono then raw else t.reached.testBit code
     let high := (if t.raw.testBit (2 * k.val + 1) then at_ ((eCmpHi e : Int) - eCmpHyst e) else at_ (eCmpHi e)) < terminal
     let low := terminal < (if t.raw.testBit (2 * k.val) then at_ ((eCmpLo e : Int) + eCmpHyst e) else at_ (eCmpLo e))
     let moved := fun (d : Chip) (code : Nat) => d.trip.reached.testBit code = after code (d.trip.raw.testBit code)
     (¬armed → exec (.comparatorChange k (.quantity q)) s = .next s ∧ exec (.cmpDiscrepancy k b true since) s = .next s) ∧
     (armed → Claim.does s (.comparatorChange k (.quantity q)) fun d => d = { c with trip := d.trip } ∧ (d.trip.raw.testBit (2 * k.val + 1) = true ↔ high) ∧
       (d.trip.raw.testBit (2 * k.val) = true ↔ low) ∧ moved d (2 * k.val) ∧ moved d (2 * k.val + 1) ∧ d.trip.sig = t.sig) ∧
     (eEnable e = true → isDi (eMode e) = true → eDiEn e = true → Claim.does s (.comparatorChange k (.level b)) fun d => d = { c with trip := d.trip } ∧
       d.trip.raw.testBit (2 * k.val) = (if eMode e = 2 then b else t.raw.testBit (2 * k.val)) ∧ moved d (2 * k.val)) ∧
     (∀ present, armed → t.faults.testBit k.val ≠ present → since + 100000000 ≤ c.mono → Claim.does s (.cmpDiscrepancy k b present since) fun d =>
       d.trip = { t with faults := d.trip.faults } ∧ d.trip.faults.testBit k.val = present ∧ d.regs = c.regs ∧
         (if present then Claim.event c d 0x1C08 5 else d.events = c.events)) ∧
     (∀ present, t.faults.testBit k.val = present ∨ c.mono < since + 100000000 → exec (.cmpDiscrepancy k b present since) s = .next s))

/-- The trip matrix (R496, R499, R509, R510, R512 to R514, R517, R519): a pair trips where a term of its mask is 1, a lane it reads has failed or the copies disagree; its permit is
withdrawn, and stays so while it is latched or a switch is stuck; a reset frees a latch whose trip has gone; switches and proof tests are checked. -/
def Obligations.TripMatrix : Prop :=
  ∀ (s : State) (p : Pair) (src : Island) (v : Word) (j : Fin 2) (low : Bool) (since : Nat),
    let c := s.chip
    let t := c.trip
    let latched := fun (d : Chip) => d.arrBit TP_LATCHED p.val
    let stuck := c.arrBit TP_STUCK p.val
    let ab := c.flag TP_STAT_ABFAULT
    let tripped := c.outFlag p.val 0 = true ∧ ((∃ n, n < 256 ∧ (c.outMask p.val).testBit n = true ∧ c.termVal n = true) ∨ c.pairBlind p.val = true ∨ ab = true)
    let fails := fun (i : Instr) (code sev : Nat) => Claim.does s i fun d => d.arrBit TP_STUCK p.val = true ∧ latched d = true ∧ Claim.event c d code sev
    (c.flag TP_STAT_EVAL = false ∨ (t.evalAt ≠ 0 ∧ c.mono / 40 = t.evalAt / 40) → exec .matrixEvaluation s = .next s) ∧
    (c.flag TP_STAT_EVAL = true → t.evalAt = 0 ∨ c.mono / 40 ≠ t.evalAt / 40 → Claim.does s .matrixEvaluation fun d => d.trip.outA = d.trip.outB ∧ d.trip.evalAt = c.mono ∧
      d.trip.rst = 0 ∧ (d.arrBit TP_TRIPPED p.val = true ↔ tripped) ∧
      (tripped → d.trip.outA.testBit p.val = false ∧ (c.outFlag p.val 1 = true → latched d = true) ∧
        (c.flag TP_FIRSTOUT_VALID = false → c.arrBit TP_TRIPPED p.val = false → d.flag TP_FIRSTOUT_VALID = true)) ∧
      (¬tripped → c.outFlag p.val 0 = true → latched c = false → stuck = false → ab = false → t.failed = [] → d.trip.outA.testBit p.val = true) ∧
      (¬tripped → stuck = true ∨ (latched c = true ∧ t.rst.testBit p.val = false) → d.trip.outA.testBit p.val = false) ∧
      (t.rst.testBit p.val = true → ¬tripped → stuck = false → latched d = false)) ∧
    (c.flag TP_STAT_EVAL = false ∨ ab = true → exec (.abFault p) s = .next s) ∧
    (c.flag TP_STAT_EVAL = true → ab = false → Claim.does s (.abFault p) fun d => d.flag TP_STAT_ABFAULT = true ∧ d.trip = { t with outA := 0, outB := 0 } ∧
      Claim.event c d 0x1C07 7) ∧
    (Claim.reaches c src.val 0x09 → exec (.progtripWrite src j v) s = Claim.chipNext s (c.setReg (TP_PROGTRIP j.val) v) ∧
      exec (.triprst src v) s = Claim.chipNext s { c with trip := { t with rst := t.rst ||| if v.getLsbD 31 then 2 ^ 128 - 1 else 2 ^ (v.toNat % 128) } }) ∧
    (let given := if low then c.permB.testBit p.val else c.permA.testBit p.val
     let held := since + 1000000 ≤ c.mono
     (c.pairChan p.val = none ∨ given = true ∨ stuck = true ∨ ¬held → exec (.switchStuck p low since) s = .next s) ∧
     (c.pairChan p.val ≠ none → given = false → stuck = false → held → fails (.switchStuck p low since) 0x1C09 7) ∧
     let commanded := fun (i : Nat) => (∃ w, c.commandFor i = some w ∧ w.getLsbD 0 = true) ∧ c.flag (CG_LINKSTAT_SAFE (i / 64)) = false ∧ c.flag (CG_FPSTAT_MISSING (i / 64)) = false
     (c.pairChan p.val = none ∨ given = false ∨ ¬held → exec (.switchNotClosed p low since) s = .next s) ∧
     (∀ i, c.pairChan p.val = some i → ¬commanded i → exec (.switchNotClosed p low since) s = .next s) ∧
     (∀ i, c.pairChan p.val = some i → given = true → held → commanded i → Claim.does s (.switchNotClosed p low since) fun d => d.regs = c.regs ∧
       d.trip = t ∧ Claim.event c d 0x1C0A 5)) ∧
    (let due := c.outFlag p.val 0 = true ∧ c.outFlag p.val 2 = true ∧ c.energised p.val = true ∧ assocGet t.proofs p.val = none ∧
       (assocGet t.proved p.val).getD 0 + c.outProofH p.val * 3600000000000 ≤ c.now
     (¬due → exec (.proofTest p) s = .next s) ∧
     (due → Claim.does s (.proofTest p) fun d => d.regs = c.regs ∧ d.trip.gapA.testBit p.val = true ∧ d.trip.gapB = t.gapB ∧
       assocGet d.trip.proofs p.val = some ⟨0, c.mono⟩)) ∧
    (assocGet t.proofs p.val = none → exec (.proofTestStep p low) s = .next s) ∧
    (∀ at_, (∀ n, assocGet t.proofs p.val = some ⟨n, at_⟩ → c.mono < at_ + (if n = 1 then 10000000 else c.outProofW p.val * 1000) → exec (.proofTestStep p low) s = .next s) ∧
      (let ready := fun (n : Nat) => assocGet t.proofs p.val = some ⟨n, at_⟩ ∧ at_ + (if n = 1 then 10000000 else c.outProofW p.val * 1000) ≤ c.mono
       (ready 0 → (Claim.does s (.proofTestStep p true) fun d => d.regs = c.regs ∧ d.trip.gapA.testBit p.val = false ∧ assocGet d.trip.proofs p.val = some ⟨1, c.mono⟩) ∧
         fails (.proofTestStep p false) 0x1C09 7) ∧
       (ready 1 → Claim.does s (.proofTestStep p low) fun d => d.regs = c.regs ∧ d.trip.gapB.testBit p.val = true ∧ assocGet d.trip.proofs p.val = some ⟨2, c.mono⟩) ∧
       (ready 2 → (Claim.does s (.proofTestStep p true) fun d => d.regs = c.regs ∧ d.trip.gapB.testBit p.val = false ∧ assocGet d.trip.proofs p.val = none ∧
         assocGet d.trip.proved p.val = some c.now) ∧ fails (.proofTestStep p false) 0x1C09 7)))

/-- The sealed switch and the configuration (R522 to R528): disagreeing contacts are off and a fault at once; agreeing ones count after 20 ms; a commit is refused in its order or takes
the whole staged configuration, latches every pair with LATCH and asks for the hash; the hash is compared with the reference, which is written with SW1 on. -/
def Obligations.SealedSwitchAndConfiguration : Prop :=
  ∀ (s : State) (a b : Bool) (pos : BitVec 7) (src : Island) (v : Word) (h : Fin 8),
    let c := s.chip
    let same := c.flag TP_SWBANK_SW1A = a ∧ c.flag TP_SWBANK_SW1B = b
    let change := Instr.sw1Change a b pos
    (a ≠ b → Claim.does s change fun d => d.flag TP_SWBANK_SW1 = false ∧ d.flag TP_SWBANK_SW1FAULT = true ∧ d.fld TP_SWBANK_POS = pos.toNat ∧
      c.regsSameBut d [TP_SWBANK]) ∧
    (a ≠ b → c.flag TP_SWBANK_SW1 = false → c.flag TP_SWBANK_SW1FAULT = false → Claim.does s change fun d => Claim.event c d 0x1D06 5) ∧
    (a = b → ¬same → Claim.does s change fun d => d.trip = { c.trip with swAt := c.mono } ∧ d.fld TP_SWBANK_SW1 = c.fld TP_SWBANK_SW1 ∧ d.events = c.events ∧
      d.flag TP_SWBANK_SW1A = a ∧ d.flag TP_SWBANK_SW1B = b) ∧
    (a = b → same → c.trip.swAt + 20000000 ≤ c.mono → Claim.does s change fun d => d.flag TP_SWBANK_SW1 = a ∧ d.flag TP_SWBANK_SW1FAULT = false ∧
      (if c.flag TP_SWBANK_SW1 = a then d.events = c.events else Claim.event c d 0x1C0C 5)) ∧
    (Claim.reaches c src.val 0x09 →
      let commit := Instr.tpCfgcommit src v
      let sw := c.flag TP_SWBANK_SW1 = true
      let mode := c.mode = 2 ∨ c.mode = 3 ∨ c.mode = 7
      let idle := c.flag TP_STAT_HASHBUSY = false
      let tells := fun (d : Chip) (res : Nat) => d.flag TP_CFGSTAT_VALID = true ∧ d.fld TP_CFGSTAT_TAG = v.toNat / 2 ^ 16 % 256 ∧ d.fld TP_CFGSTAT_RESULT = res
      let refused := fun (res : Nat) => Claim.does s commit fun d => tells d res ∧ c.regsSameBut d [TP_CFGSTAT] ∧ d.trip = c.trip ∧ d.toStore = c.toStore
      (v.getLsbD 31 = false → exec commit s = .next s) ∧
      (v.getLsbD 31 = true → (¬sw → refused 2) ∧ (sw → ¬mode → refused 3) ∧ (sw → mode → ¬idle → refused 4) ∧
        (∀ o, sw → mode → idle → c.badStaged = some o → refused 1) ∧
        (sw → mode → idle → c.badStaged = none → Claim.does s commit fun d => tells d 0 ∧ d.flag TP_STAT_CFGVALID = true ∧ d.flag TP_STAT_HASHBUSY = true ∧
          (∀ j, j < 2048 → d.reg (TP_ACT_TERM j) = c.reg (TP_STAGE_TERM j)) ∧ (∀ j, j < 128 → d.reg (TP_ACT_VOTER j) = c.reg (TP_STAGE_VOTER j)) ∧
          (∀ j, j < 1536 → d.reg (TP_ACT_OUT j) = c.reg (TP_STAGE_OUT j)) ∧ storeSafety ∈ d.toStore ∧
          ∀ p : Pair, (c.reg (TP_STAGE_OUT (12 * p.val + 8))).getLsbD 1 = true → d.arrBit TP_LATCHED p.val = true)) ∧
      (¬sw → Claim.does s (.hashrefWrite src h v) fun d => d.regs = c.regs ∧ d.toStore = c.toStore ∧ Claim.event c d 0x1D01 3) ∧
      (sw → Claim.does s (.hashrefWrite src h v) fun d => d.reg (TP_HASHREF h.val) = v ∧ storeSafety ∈ d.toStore ∧ c.regsSameBut d [TP_HASHREF h.val, TP_STAT] ∧
        (d.flag TP_STAT_MATCH = true ↔ ∀ j, j < 8 → c.reg (TP_CFGHASH j) = (if j = h.val then v else c.reg (TP_HASHREF j))))) ∧
    (c.flag TP_STAT_HASHBUSY = false → exec .hashComplete s = .next s) ∧
    (c.flag TP_STAT_HASHBUSY = true → Claim.does s .hashComplete fun d => d.flag TP_STAT_HASHBUSY = false ∧
      (∀ j, j < 8 → d.reg (TP_CFGHASH j) = BitVec.ofNat 32 ((sha256Words c.hashInput).getD j 0)) ∧
      (d.flag TP_STAT_MATCH = true ↔ ∀ j, j < 8 → d.reg (TP_CFGHASH j) = c.reg (TP_HASHREF j)))

/-! ## The fabric -/

/-- Ports, members, routes and exports (R100, R535, R540 to R542, R545 to R547, R551 to R553, R558 to R560, R570, R579): a port that trains is up; a header in link order goes to its next hop with HOPS one
less; a damaged tail is counted and asked again; a request whose tail is good is executed; eight failed replays or 20 µs take the link down; JOINs give
a station's state until 30 ms without one. While FX's clock stands it does none of this. -/
def Obligations.LinksAndMembership : Prop :=
  ∀ (s : State) (p : Port) (lanes : Fin 5) (pkt : Packet) (num ack : Nat) (direct : Bool) (ago : BitVec 32) (d : Station) (src : Island) (v : Word),
    let c := s.chip
    let x := c.port p.val
    let up := c.flag (FX_PORTSTAT_UP p.val) = true
    let bar := c.flag (FX_PORTSTAT_JOINONLY p.val) = true
    let kept := fun (e : Chip) (q : Nat) (y : Packet) => (e.port q).unacked = (c.port q).unacked ++ [⟨(c.port q).sentNum + 1, y, false⟩]
    let mark := c.fld (FX_MEMBER_EPOCH (d.val - 1))
    (c.islandOn 0x12 = false → ∀ i ∈ [Instr.portTrained p lanes, .packetForward p pkt num, .packetTail p direct pkt num ack .good ago, .nack p ack, .linkFailed p, .joinSend,
      .join p direct pkt, .stationAbsent d, .windowFree d, .quarClear], exec i s = .next s) ∧
    (c.islandOn 0x12 = true →
    (up → exec (.portTrained p lanes) s = .next s) ∧
    (¬up → lanes.val < 2 → x.triedAt = none → Claim.does s (.portTrained p lanes) fun e => e.regs = c.regs ∧ e.port p.val = { x with triedAt := some c.mono }) ∧
    (¬up → 2 ≤ lanes.val → Claim.does s (.portTrained p lanes) fun e => e.flag (FX_PORTSTAT_UP p.val) = true ∧ c.regsSameBut e [FX_PORTSTAT p.val] ∧
      e.fld (FX_PORTSTAT_WIDTH p.val) = (if lanes.val = 4 then 3 else 2) ∧ e.port p.val = LinkPort.down ∧ e.fab.joinDue = true) ∧
    (¬up ∨ (num ≠ x.accNum + 1 ∧ pkt.kind ≠ 5) ∨ (bar ∧ pkt.kind ≠ 4) → exec (.packetForward p pkt num) s = .next s) ∧
    (∀ q, up → num = x.accNum + 1 → ¬bar → pkt.kind = 1 ∨ pkt.kind = 2 ∨ pkt.kind = 3 → pkt.dst ≠ 4095 → pkt.dst ≠ 0 → c.forMe pkt = false → pkt.hops ≠ 0 →
      c.nextHop pkt = some q → p.val < 4 → q < 4 → Claim.does s (.packetForward p pkt num) fun e => e.regs = c.regs ∧ kept e q { pkt with hops := pkt.hops - 1 } ∧
        ∀ j, j ≠ q → e.port j = c.port j) ∧
    (let tail := fun (t : TailEnd) => Instr.packetTail p direct pkt num ack t ago
     let freed := x.unacked.filter fun u => decide (ack < u.num)
     (¬up → ∀ t, exec (tail t) s = .next s) ∧
     (up → Claim.does s (tail .damaged) fun e => e.counter FX_KILLED_LO = (c.counter FX_KILLED_LO + 1) % 2 ^ 64 ∧
       mapGet [] e.sent p.val = toBytes 4 x.accNum ∧ (e.port p.val).accNum = x.accNum) ∧
     (up → num = x.accNum + 1 → pkt.kind ≠ 5 → Claim.does s (tail .killed) fun e => e.counter FX_KILLED_LO = (c.counter FX_KILLED_LO + 1) % 2 ^ 64 ∧
       (e.port p.val).accNum = num) ∧
     (up → num ≠ x.accNum + 1 → pkt.kind ≠ 5 → Claim.does s (tail .good) fun e => e.regs = c.regs ∧ e.pool = c.pool ∧ (e.port p.val).unacked = freed ∧
       (e.port p.val).accNum = x.accNum) ∧
     (∀ i, (i, pkt.op) ∈ [(Instr.read pkt, 1), (.write pkt, 2), (.fetchadd pkt, 3), (.cas pkt, 4), (.ringput pkt, 5)] → up → num = x.accNum + 1 → ¬bar → pkt.kind = 1 →
       pkt.dst ≠ 4095 → c.forMe pkt = true → ∃ e : Chip, exec (tail .good) s = exec i { s with chip := e } ∧ (e.port p.val).unacked = freed ∧
         (e.port p.val).accNum = num)) ∧
    (¬up → exec (.nack p ack) s = .next s) ∧
    (up → let rest := x.unacked.filter fun u => decide (ack < u.num)
      Claim.does s (.nack p ack) fun e => (e.port p.val).unacked = rest ∧ (e.port p.val).sentNum = x.sentNum ∧
        (e.port p.val).fails = (if rest.length < x.unacked.length then 0 else x.fails + 1)) ∧
    (let broken := up ∧ (8 ≤ x.fails ∨ (x.unacked ≠ [] ∧ ∃ t, x.nackAt = some t ∧ t + 20000 ≤ c.mono))
     (¬broken → exec (.linkFailed p) s = .next s) ∧
     (broken → Claim.does s (.linkFailed p) fun e => e.flag (FX_PORTSTAT_UP p.val) = false ∧ e.flag (FX_PORTSTAT_RFAIL p.val) = true ∧ (e.port p.val).unacked = [] ∧
       e.counter FX_LINKDISC_LO = (c.counter FX_LINKDISC_LO + x.unacked.length) % 2 ^ 64 ∧ (e.port p.val).triedAt = some c.mono)) ∧
    (let due := c.fab.joinDue = true ∨ ∀ t, c.fab.joinAt = some t → t + 10000000 ≤ c.mono
     let n := (c.fab.joinNum + 1) % 2 ^ 32
     (¬due → exec .joinSend s = .next s) ∧
     (due → Claim.does s .joinSend fun e => e.regs = c.regs ∧ e.fab.joinNum = n ∧ e.fab.joinAt = some c.mono ∧ e.fab.joinDue = false ∧
       (up → ∃ y, kept e p.val y ∧ y.kind = 4 ∧ y.dst = 4095 ∧ y.seq = n ∧ y.src = c.stationId ∧ bytesAt y.payload 0 8 = c.serial))) ∧
    (let j := joinRec pkt.payload c.mono
     1 ≤ d.val → d.val < 4095 → pkt.src = d.val → d.val ≠ c.stationId → assocGet c.fab.joins d.val = none → (∀ t ∈ c.fab.trans, t.pkt.dst ≠ d.val) →
     Claim.does s (.join p false pkt) fun e => assocGet e.fab.joins d.val = some [j] ∧ assocGet e.fab.absent d.val = none ∧ c.regsSameBut e [FX_MEMBER (d.val - 1)] ∧
       e.fld (FX_MEMBER_EPOCH (d.val - 1)) = j.epoch ∧ (mark ≠ j.epoch → ∀ w ∈ e.fab.windows, w.src ≠ d.val) ∧
       e.fld (FX_MEMBER_STATE (d.val - 1)) = (if j.lost then 3 else if j.mode ≤ 1 ∨ j.hash ≠ c.planHash ∨ j.cls / 256 ≠ c.fld FX_CLASS_MAJOR then 2 else 1)) ∧
    (let js := (assocGet c.fab.joins d.val).getD []
     (js = [] ∨ (∃ j ∈ js, c.mono < j.at_ + 30000000) → exec (.stationAbsent d) s = .next s) ∧
     (js ≠ [] → (∀ j ∈ js, j.at_ + 30000000 ≤ c.mono) → 1 ≤ d.val → Claim.does s (.stationAbsent d) fun e => e.fld (FX_MEMBER_STATE (d.val - 1)) = 0 ∧
       assocGet e.fab.joins d.val = none ∧ assocGet e.fab.absent d.val = some c.mono ∧ e.fld (FX_MEMBER_EPOCH (d.val - 1)) = mark)) ∧
    (let gone := ∃ t, assocGet c.fab.absent d.val = some t ∧ t + 10000000000 ≤ c.mono
     (¬gone → exec (.windowFree d) s = .next s) ∧
     (gone → exec (.windowFree d) s = Claim.chipNext s { c with fab := { c.fab with windows := c.fab.windows.filter fun w => w.src != d.val } })) ∧
    (let steady := ∃ t, c.fab.within = some t ∧ t + 1000000000 ≤ c.mono
     (¬steady → exec .quarClear s = .next s) ∧
     (steady → Claim.does s .quarClear fun e => e.flag FX_STAT_QUAR = false ∧ e.fab = c.fab ∧ c.regsSameBut e [FX_STAT, TS_STAT]))) ∧
    (Claim.reaches c src.val 0x12 →
      (d.val = 0 ∨ d.val = 4095 → exec (.routeWrite src d v) s = .next s) ∧
      (d.val ≠ 0 → d.val ≠ 4095 → Claim.does s (.routeWrite src d v) fun e => e.reg (FX_RTE (d.val - 1)) = v &&& 0xC0000077#32 ∧
        c.regsSameBut e [FX_RTE (d.val - 1)] ∧ FX_RTE (d.val - 1) ∈ e.toStore) ∧
      (let n := v.toNat % 32
       let at_ := (c.reg FX_EXPADDR).toNat * 64
       let es := (List.range n).map fun i => exportAtAddr s.mem (at_ + 32 * i)
       let zeros := ∀ i, i < n → memRead s.mem 1 (at_ + 32 * i + 0x19) = 0 ∧ memRead s.mem 2 (at_ + 32 * i + 0x1E) = 0
       let good := n ≤ 16 ∧ at_ + 32 * n ≤ 0x800000000 ∧ (∀ y ∈ es, y.ok = true) ∧ zeros ∧ exportsDisjoint es = true
       (v.getLsbD 31 = false → exec (.exportLoad src v) s = Claim.chipNext s (c.setFld FX_EXPCTL_COUNT n)) ∧
       (v.getLsbD 31 = true → good → Claim.does s (.exportLoad src v) fun e => e.fab = { c.fab with exports := es } ∧ e.flag FX_EXPCTL_BAD = false) ∧
       (v.getLsbD 31 = true → ¬good → Claim.does s (.exportLoad src v) fun e => e.fab = c.fab ∧ e.flag FX_EXPCTL_BAD = true)))

/-- Requests, responses and posts (R100, R554, R557, R562 to R577): while FX's clock stands nothing happens; a request of an ACTIVE station in its epoch is executed within its export and answered, and its window keeps the answer: a replay
changes no memory; an observer may only read, and a request in another epoch is refused; a standby passes requests on to the active unit (R646); a request of this module becomes a transaction with the next SEQ; a response, a NOTICE and the deadline complete, extend and retry it, a response or NOTICE only of an admitted sender. -/
def Obligations.FabricTransactions : Prop :=
  ∀ (s : State) (pkt : Packet) (ring : Fin 16384) (tag : Fin 4096) (q a : Nat),
    let c := s.chip
    let member := FX_MEMBER_STATE (pkt.src - 1)
    let slot := fun (w : Window) => w.src = pkt.src ∧ w.mod = pkt.srcMod ∧ w.ring = pkt.sring
    let standby := c.mode = 6 ∧ c.topo % 2 = 1 ∧ pkt.dst ≠ 4095
    let foreign := c.stationId ≠ 0 ∧ pkt.src ≠ 0 ∧ pkt.src < 4095 ∧ pkt.src ≠ c.stationId ∧ ¬standby
    let known := foreign ∧ c.fld member = 1 ∧ pkt.sepoch = c.epochOf pkt.src
    let admitted := known ∧ pkt.epoch = c.fld FX_STATION_EPOCH
    let fresh := (∀ w ∈ c.fab.windows, ¬slot w) ∧ c.fab.windows.length < c.windowSlots
    let answered := fun (t : State) (st : Nat) (data : List Byte) => t.cores = s.cores ∧ t.pending = s.pending ∧
      (c.fabricOpen = true → c.nextHop (c.responseTo pkt (st, data)) = some q → (t.chip.port q).unacked = (c.port q).unacked ++ [⟨(c.port q).sentNum + 1, c.responseTo pkt (st, data), false⟩])
    let does := fun (i : Instr) (P : State → Prop) => ∃ t, exec i s = .next t ∧ P t
    let others := fun (t : State) (b n : Nat) => ∀ k, k < b ∨ b + n ≤ k → memByte t.mem k = memByte s.mem k
    let rows := [Instr.read pkt, .write pkt, .fetchadd pkt, .cas pkt, .ringput pkt, .post pkt]
    (c.islandOn 0x12 = false → ∀ i ∈ rows ++ [.response pkt, .notice pkt, .transactionDeadline tag], exec i s = .next s) ∧
    (c.islandOn 0x12 = true →
    (c.stationId = 0 ∨ (¬standby ∧ (pkt.src = 0 ∨ (pkt.src ≠ c.stationId ∧ (c.fld member = 0 ∨ c.fld member = 3)))) → ∀ i ∈ rows, exec i s = .next s) ∧
    (c.stationId ≠ 0 → standby → c.flag MG_REDSTAT_PL1UP = true → c.flag (FX_PORTSTAT_UP 5) = true → c.flag (FX_PORTSTAT_JOINONLY 5) = false →
      ∀ x ∈ [(Instr.read pkt, 1, 1), (.write pkt, 1, 2), (.fetchadd pkt, 1, 3), (.cas pkt, 1, 4), (.ringput pkt, 1, 5), (.post pkt, 3, pkt.op)],
        Claim.does s x.1 fun e => e.regs = c.regs ∧ e.pool = c.pool ∧
          (e.port 5).unacked = (c.port 5).unacked ++ [⟨(c.port 5).sentNum + 1, { pkt with kind := x.2.1, op := x.2.2 }, false⟩]) ∧
    (foreign → c.fld member = 2 → (∀ i ∈ [Instr.write pkt, .fetchadd pkt, .cas pkt, .ringput pkt], does i fun t => t.mem = s.mem ∧ t.chip.pool = c.pool ∧ answered t 2 []) ∧
      Claim.does s (.post pkt) fun e => e.pool = c.pool ∧ e.counter FX_OBSDISC_LO = (c.counter FX_OBSDISC_LO + 1) % 2 ^ 64) ∧
    (known → pkt.epoch ≠ c.fld FX_STATION_EPOCH → ∀ i ∈ [Instr.read pkt, .write pkt, .fetchadd pkt, .cas pkt, .ringput pkt],
      does i fun t => t.mem = s.mem ∧ t.chip.pool = c.pool ∧ answered t 4 []) ∧
    (admitted → fresh →
      (c.exportAt pkt.addr (4 * pkt.len) 0 pkt.src = some a → c.poisoned a (4 * pkt.len) = false →
        does (.read pkt) fun t => t.mem = s.mem ∧ answered t 0 (memBytes s.mem (4 * pkt.len) a)) ∧
      (c.exportAt pkt.addr (4 * pkt.len) 0 pkt.src = some a → c.poisoned a (4 * pkt.len) = true → does (.read pkt) fun t => t.mem = s.mem ∧ answered t 7 []) ∧
      (c.exportAt pkt.addr (4 * pkt.len) 0 pkt.src = none → does (.read pkt) fun t => t.mem = s.mem ∧ answered t 1 []) ∧
      (c.exportAt pkt.addr pkt.payload.length 1 pkt.src = some a → c.locked a pkt.payload.length = false → does (.write pkt) fun t => answered t 0 [] ∧
        others t a pkt.payload.length ∧ (∀ k, k < pkt.payload.length → memByte t.mem (a + k) = pkt.payload.getD k 0#8) ∧
        ∃ w ∈ t.chip.fab.windows, slot w ∧ w.hi = pkt.seq ∧ (pkt.seq, some (0, [])) ∈ w.seen) ∧
      (pkt.addr % 8 = 0 → c.exportAt pkt.addr 8 2 pkt.src = some a → c.locked a 8 = false → c.poisoned a 8 = false →
        let old := memRead s.mem 8 a
        let x := bytesAt pkt.payload 0 8
        (pkt.payload.length = 8 → does (.fetchadd pkt) fun t => answered t 0 (toBytes 8 old) ∧ others t a 8 ∧ memRead t.mem 8 a = (old + x) % 2 ^ 64) ∧
        (pkt.payload.length = 16 → does (.cas pkt) fun t => answered t 0 (toBytes 8 old) ∧ others t a 8 ∧ memRead t.mem 8 a = (if old = x then bytesAt pkt.payload 8 8 else old))) ∧
      (pkt.addr % 8 ≠ 0 ∨ c.exportAt pkt.addr 8 2 pkt.src = none → ∀ i ∈ [Instr.fetchadd pkt, .cas pkt], does i fun t => t.mem = s.mem ∧ answered t 1 []) ∧
      (let m : Msg := ⟨pkt.payload, false, c.fabricProducer pkt, none⟩
       (c.partnersSetpoint pkt = false → c.fabricRing pkt.dring = false → does (.ringput pkt) fun t => t.mem = s.mem ∧ t.chip.pool = c.pool ∧ answered t 1 []) ∧
       (c.partnersSetpoint pkt = false → c.fabricRing pkt.dring = true → does (.ringput pkt) fun t => t.mem = s.mem ∧ t.chip.pool = (c.offer pkt.dring m).2.pool ∧
           answered t (if (c.offer pkt.dring m).1 = .published then 0 else 3) []))) ∧
    (known → fresh →
      let m : Msg := ⟨pkt.payload, false, c.fabricProducer pkt, none⟩
      (c.partnersSetpoint pkt = true → Claim.does s (.post pkt) fun e => e.pool = c.pool ∧ (e.port 4).unacked = (c.port 4).unacked ++
        [⟨(c.port 4).sentNum + 1, { pkt with kind := 3, op := 0, dstMod := 1 - c.ownMod }, false⟩]) ∧
      (c.partnersSetpoint pkt = false → c.fabricRing pkt.dring = false → Claim.does s (.post pkt) fun e => e.pool = c.pool ∧
        e.counter FX_POSTDISC_LO = (c.counter FX_POSTDISC_LO + 1) % 2 ^ 64) ∧
      (c.partnersSetpoint pkt = false → c.fabricRing pkt.dring = true → Claim.does s (.post pkt) fun e => e.pool = (c.offer pkt.dring m).2.pool)) ∧
    (∀ (w : Window) (r : OpResult), admitted → c.fab.windows.find? (fun y => y.src == pkt.src && y.mod == pkt.srcMod && y.ring == pkt.sring) = some w → w.hi = pkt.seq →
      w.seen.find? (fun y => y.1 == pkt.seq) = some (pkt.seq, some r) → pkt.seq < 2 ^ 32 → ∀ i ∈ [Instr.write pkt, .fetchadd pkt, .cas pkt, .ringput pkt],
        does i fun t => t.mem = s.mem ∧ t.chip.pool = c.pool ∧ answered t r.1 r.2 ∧ t.chip.counter FX_DUPREQ_LO = (c.counter FX_DUPREQ_LO + 1) % 2 ^ 64)) ∧
    (let b := (c.head? ring.val).elim [] Msg.bytes
     let served := 64 ≤ ring.val ∨ (6 ≤ ring.val ∧ ring.val < 14) ∨ ring.val = 45
     let takes := fun (m : Msg) => c.head? ring.val = some m ∧ (c.pool.ring ring.val).cons = 0x12 ∧ c.islandOn 0x12 = true ∧ served
     let dropped := fun (m : Msg) => c.mode = 6 ∧ m.src % 0x100 ≤ 8
     let stays := exec (.requestIssue ring) s = Claim.chipNext s c.sendUnsent
     let issues := fun (P : Chip → Prop) => ∃ d : Chip, exec (.requestIssue ring) s = Claim.chipNext s d.sendUnsent ∧ P d
     let sentBy := fun (e : Chip) (p : Packet) => (e.port q).unacked = (c.port q).unacked ++ [⟨(c.port q).sentNum + 1, p, false⟩]
     (c.head? ring.val = none ∨ (c.pool.ring ring.val).cons ≠ 0x12 ∨ c.islandOn 0x12 = false ∨ ¬served → stays) ∧
     (∀ m, c.head? ring.val = some m → ¬dropped m → c.fabricOpen = false → stays) ∧
     (∀ m, takes m → dropped m → m.acc = none → issues fun e => e = c.consume ring.val) ∧
     (∀ m, takes m → ¬dropped m → c.fabricOpen = true → ring.val ≠ 45 → m.acc = none → m.src % 0x100 = 8 → 0x100 ≤ m.src → c.mustHold ring.val true = false →
       let dst := m.src / 0x100 % 4096
       dst ≠ c.stationId → dst ≠ 0 → dst ≠ 4095 → c.nextHop { c.ownPacket 3 1 dst (m.src / 2 ^ 20) with sring := ring.val } = some q →
       issues fun e => e.pool = (c.consume ring.val).pool ∧ ∃ p : Packet, sentBy e p ∧ p.kind = 3 ∧ p.dst = dst ∧ p.dring = c.fld LE_RSPCFG_RXRING ∧ p.payload = m.bytes) ∧
     (∀ m a, takes m → ¬dropped m → c.fabricOpen = true → ring.val ≠ 45 → m.acc = some a → c.mustHold ring.val false = false →
       let i := 8 * a.src + (a.key - 0xA0000000) / 0x4000000
       let dst := c.fld (FX_CWIN_A_STATION i)
       dst ≠ c.stationId → dst ≠ 0 → dst ≠ 4095 → c.nextHop { c.ownPacket 1 1 dst (c.fld (FX_CWIN_A_MOD i)) with sring := ring.val } = some q →
       issues fun e => e.pool = (c.consume ring.val).pool ∧ ∃ x : Transn, e.fab.trans = c.fab.trans ++ [x] ∧ sentBy e x.pkt ∧ x.pkt.dst = dst ∧
         x.win = some (a.src, BitVec.ofNat 32 a.key, a.value.toNat, a.ack) ∧ x.pkt.op = (if a.ack then 1 else 2)) ∧
     (∀ m, takes m → ¬dropped m → c.fabricOpen = true → ring.val ≠ 45 → m.acc = none → ¬(m.src % 0x100 = 8 ∧ 0x100 ≤ m.src) → bytesAt b 0 1 ≠ 6 →
       (badRequest b = true → issues fun e => e.fab = c.fab ∧
         ∃ bs, bs.head? = some 1#8 ∧ e.pool = ((c.consume ring.val).publish (bytesAt b 6 2) 0x12 bs).pool) ∧
       (badRequest b = false → c.mustHold ring.val false = true → stays) ∧
       (badRequest b = false → c.mustHold ring.val false = false → bytesAt b 2 2 ≠ c.stationId → bytesAt b 2 2 ≠ 0 → c.nextHop { c.packetOf b with sring := ring.val } = some q →
         ∀ pl, c.pool.allocate (bytesAt b 6 2) (Nat.max 1 ((0x20 + (if bytesAt b 0 1 = 1 then 4 * bytesAt b 5 1 else 0) + 255) / 256)) = some pl →
         issues fun e => ∃ x : Transn, e.fab.trans = c.fab.trans ++ [x] ∧ x.ring = ring.val ∧ x.ctx = bytesAt b 8 4 ∧ x.issued = c.mono ∧
           x.deadline = c.mono + c.timeoutNs (bytesAt b 0x0C 4) ∧ x.pkt.seq = c.nextSeq ring.val ∧ ((∃ n, n < 4096 ∧ ∀ y ∈ c.fab.trans, y.tag ≠ n) → ∀ y ∈ c.fab.trans, y.tag ≠ x.tag) ∧
           sentBy e x.pkt))) ∧
    (c.islandOn 0x12 = true →
    (c.accepts pkt.src = false → exec (.response pkt) s = .next s ∧ exec (.notice pkt) s = .next s) ∧
    (c.accepts pkt.src = true → let found := c.fab.trans.find? fun t => t.tag == pkt.tag && t.pkt.seq == pkt.seq
     (∀ t, found = some t → t.win = none → ¬(t.tries = c.fld FX_TMOCFG_RETRIES ∧ t.deadline ≤ c.mono) → Claim.does s (.response pkt) fun e => e.fab.trans = c.fab.trans.erase t ∧
       ∃ m, m.src = 0x12 ∧ (m.poisoned = true ↔ pkt.op = 7) ∧ bytesAt m.bytes 0 1 = pkt.op % 256 ∧ bytesAt m.bytes 8 4 = t.ctx % 2 ^ 32 ∧
         e.pool = (({ c.pool with alloc := c.pool.alloc.erase (t.rring, t.bufs) }).enqueue t.rring m).settle) ∧
     (∀ t, found = some t → t.tries = c.fld FX_TMOCFG_RETRIES → t.deadline ≤ c.mono → Claim.does s (.response pkt) fun e => e.fab = c.fab ∧ e.pool = c.pool ∧
       e.counter FX_LATE_LO = (c.counter FX_LATE_LO + 1) % 2 ^ 64) ∧
     (found = none → assocGet c.fab.done pkt.tag = none → Claim.does s (.response pkt) fun e => e.fab = c.fab ∧ e.pool = c.pool ∧
       e.counter FX_LATE_LO = (c.counter FX_LATE_LO + 1) % 2 ^ 64) ∧
     (found = none → assocGet c.fab.done pkt.tag = some (pkt.seq, false) → Claim.does s (.response pkt) fun e => e.fab = c.fab ∧ e.pool = c.pool ∧
       (∀ t ∈ c.fab.trans, t.tag ≠ pkt.tag) → e.counter FX_DUPRSP_LO = (c.counter FX_DUPRSP_LO + 1) % 2 ^ 64)) ∧
    (c.accepts pkt.src = true → exec (.notice pkt) s = Claim.chipNext s { c with fab := { c.fab with trans := c.fab.trans.map fun t =>
      if t.tag = pkt.tag ∧ t.pkt.seq = pkt.seq ∧ c.mono < t.deadline then
        { t with deadline := Nat.max t.deadline (Nat.min (c.mono + 20000) (t.issued + 1000000000)) } else t } }) ∧
    (let found := c.fab.trans.find? fun t => t.tag == tag.val
     (found = none ∨ (∃ t, found = some t ∧ c.mono < t.deadline) → exec (.transactionDeadline tag) s = .next s) ∧
     (∀ t, found = some t → t.deadline ≤ c.mono →
       (t.tries < c.fld FX_TMOCFG_RETRIES → t.pkt.kind = 1 → t.pkt.dst ≠ 4095 → t.pkt.dst ≠ 0 → t.pkt.dst ≠ c.stationId → c.nextHop t.pkt = some q → Claim.does s (.transactionDeadline tag) fun e =>
         e.regs = c.regs ∧ (∃ y ∈ e.fab.trans, y = { t with tries := t.tries + 1, deadline := c.mono + t.tmo }) ∧
         ∃ z, (e.port q).unacked = (c.port q).unacked ++ [⟨(c.port q).sentNum + 1, z, false⟩] ∧ z.retry = true ∧ z.seq = t.pkt.seq ∧ z.tag = t.pkt.tag) ∧
       (c.fld FX_TMOCFG_RETRIES ≤ t.tries → t.win = none → Claim.does s (.transactionDeadline tag) fun e => e.fab.trans = c.fab.trans.erase t ∧
         e.counter FX_TIMEOUT_LO = (c.counter FX_TIMEOUT_LO + 1) % 2 ^ 64 ∧ assocGet e.fab.done t.tag = some (t.pkt.seq, true)))))

/-! ## Fabric time, Ethernet and CAN -/

/-- Fabric time (R100, R586 to R598, R600): while FX's clock stands nothing happens; what waits is published as a mapping 100 µs ahead, continuous but for a step, once the rings
to the other planes have room; ANNOUNCE, SYNC and DREQ leave at their periods; an ANNOUNCE is
kept and relayed once; a good SYNC of the time parent shows the deviation and steps or slews; a DRSP gives the path delay; a candidate that hears nothing
better declares itself; lost, the station holds over; TIME_SET steps. -/
def Obligations.FabricTime : Prop :=
  ∀ (s : State) (p : Port) (pkt : Packet) (ago : BitVec 32) (src : Island) (v : Word),
    let c := s.chip
    let t := c.time
    let b := pkt.payload
    let passed := fun (x : Option Nat) (ns : Nat) => ∀ y, x = some y → y + ns ≤ c.mono
    let gm := c.flag TS_STAT_ISGM = true
    let state := c.fld TS_STAT_TQ % 4
    let kept := fun (d : Chip) (q : Nat) (P : Packet → Prop) => ∃ y, (d.port q).unacked = (c.port q).unacked ++ [⟨(c.port q).sentNum + 1, y, false⟩] ∧ P y
    let open_ := c.flag (FX_PORTSTAT_UP p.val) = true ∧ c.flag (FX_PORTSTAT_JOINONLY p.val) = false
    let room := ∀ r, 14 ≤ r → r < 24 → c.hasRoom r = true
    (c.islandOn 0x12 = false → ∀ i ∈ [Instr.mappingPublish, .announceSend, .syncSend, .dreqSend, .announce p pkt, .sync p pkt ago, .dreq p pkt ago, .drsp p pkt ago, .gmTimeout,
      .holdoverEntry], exec i s = .next s) ∧
    (c.islandOn 0x12 = true →
    (t.dirty = false ∨ ¬room → exec .mappingPublish s = .next s) ∧
    (t.dirty = true → room → Claim.does s .mappingPublish fun d => d.time = { t with dirty := false, step := 0 } ∧ d.reg TS_RATE = BitVec.ofInt 32 t.rate ∧ c.regsSameBut d [TS_RATE] ∧
      d.maps = ⟨c.mono + 100000, ((((c.lastMap.at (c.mono + 100000) : Nat) : Int) + t.step) % 2 ^ 80).toNat, t.rate, c.fld TS_STAT_TQ⟩ :: c.maps) ∧
    (¬gm ∨ c.fabricOpen = false ∨ ¬passed t.annAt 125000000 → exec .announceSend s = .next s) ∧
    (gm → c.fabricOpen = true → passed t.annAt 125000000 → Claim.does s .announceSend fun d => d.regs = c.regs ∧ d.time = { t with annNum := (t.annNum + 1) % 2 ^ 32, annAt := some c.mono } ∧
      (open_ → kept d p.val fun y => y.kind = 6 ∧ y.dst = 4095 ∧ y.seq = (t.annNum + 1) % 2 ^ 32 ∧ bytesAt y.payload 0 1 = 1)) ∧
    (¬passed t.sentAt 1000000 → exec .syncSend s = .next s) ∧
    (passed t.sentAt 1000000 → Claim.does s .syncSend fun d => d.regs = c.regs ∧ d.time = { t with sentAt := some c.mono } ∧
      (p.val ∈ c.timePorts → kept d p.val fun y => y.kind = 6 ∧ y.hops = 1 ∧ bytesAt y.payload 0 1 = 2 ∧ bytesAt y.payload 0x10 8 = c.fabricAt c.mono)) ∧
    (¬passed t.askedAt 125000000 → exec .dreqSend s = .next s) ∧
    (passed t.askedAt 125000000 → Claim.does s .dreqSend fun d => d.regs = c.regs ∧ d.time.askedAt = some c.mono ∧
      (p.val ∈ c.timePorts → assocGet d.time.dreqs p.val = some (c.fabricFracAt c.mono) ∧ kept d p.val fun y => y.kind = 6 ∧ y.hops = 1 ∧ bytesAt y.payload 0 1 = 3)) ∧
    (pkt.kind = 6 → bytesAt b 0 1 = 1 → b.length = 48 → (c.floodSeen pkt).1 = false → 0 < pkt.hops → Claim.does s (.announce p pkt) fun d =>
      ∀ q, q < 6 → q ≠ p.val → c.flag (FX_PORTSTAT_UP q) = true → c.flag (FX_PORTSTAT_JOINONLY q) = false →
        kept d q fun y => y.hops = pkt.hops - 1 ∧ bytesAt y.payload 0x1E 1 = Nat.min 255 (bytesAt b 0x1E 1 + 1)) ∧
    (let h := heardOf p.val b c.mono
     c.accepts pkt.src = true → h.serial ≠ c.serial → ¬gm → t.heard = [] → 1 ≤ h.id → h.id < 4095 → c.fld (FX_MEMBER_STATE (h.id - 1)) = 1 → Claim.does s (.announce p pkt) fun d =>
       d.time.heard = [h] ∧ d.time.gm = some h ∧ d.fld TS_STAT_GMID = h.id ∧ d.fld TS_STAT_GMCLASS = h.cls % 4 ∧ d.fld TS_STAT_GMHOPS = Nat.min 15 (h.hops + 1)) ∧
    (c.accepts pkt.src = false → exec (.sync p pkt ago) s = .next s ∧ exec (.dreq p pkt ago) s = .next s ∧ exec (.drsp p pkt ago) s = .next s) ∧
    (c.accepts pkt.src = true →
      let arr := c.mono - ago.toNat
      let c1 := { c with time := { t with syncAt := assocSet t.syncAt p.val c.mono } }
      let truth := ((bytesAt b 0x10 8 * 65536 + bytesAt b 0x18 2 : Nat) : Int) + c.pathDelay p.val
      let off := ((c.lastMap.at arr : Nat) : Int) + t.step - truth
      let far := (c.fld TS_GMCFG_STEPLIM : Int) * 65536000 < off.natAbs
      let dev := (((c.fabricFracAt arr : Nat) : Int) - truth).natAbs / 65536 + bytesAt b 0x1A 4
      let good := c1.timeParent = some p.val ∧ t.gm.map Heard.serial = some (bytesAt b 8 8) ∧ bytesAt b 3 1 % 4 ≠ 0
      (¬good → exec (.sync p pkt ago) s = Claim.chipNext s c1) ∧
      (good → Claim.does s (.sync p pkt ago) fun d => d.time.goodAt = some c.mono ∧ d.time.holdAt = none ∧ d.fld TS_STAT_TQ % 4 = 1 ∧
        d.reg TS_DEV = BitVec.ofNat 32 (Nat.min dev (2 ^ 32 - 1)) ∧
        (far → d.time.step = t.step - off ∧ d.fld TS_CTL_STEPS = (c.fld TS_CTL_STEPS + 1) % 65536 ∧ Claim.event c d 0x1A01 3) ∧
        (¬far → d.time.step = t.step ∧ d.fld TS_CTL_STEPS = c.fld TS_CTL_STEPS ∧ d.events = c.events)) ∧
      (p.val ∈ c.timePorts → Claim.does s (.dreq p pkt ago) fun d => d.regs = c.regs ∧ d.time = t ∧ kept d p.val fun y => y.kind = 6 ∧ bytesAt y.payload 0 1 = 4 ∧
        bytesAt y.payload 0x10 8 = c.fabricAt c.mono ∧ bytesAt y.payload 0x20 8 = c.fabricAt arr) ∧
      (assocGet t.dreqs p.val = none → exec (.drsp p pkt ago) s = .next s) ∧
      (∀ t1, assocGet t.dreqs p.val = some t1 → Claim.does s (.drsp p pkt ago) fun d => d.regs = c.regs ∧ assocGet d.time.dreqs p.val = none ∧
        ∃ old, assocGet d.time.delays p.val = some (((((c.fabricFracAt arr : Nat) : Int) - (t1 : Nat)) - (((timeAt b 0x10 : Nat) : Int) - (timeAt b 0x20 : Nat))) / 2 :: old) ∧ old.length ≤ 15)) ∧
    (t.gm = none → t.heard = [] →
      (gm ∨ c.flag TS_GMCFG_CAND = false ∨ c.mono < t.betterAt + 375000000 → exec .gmTimeout s = .next s) ∧
      (¬gm → c.flag TS_GMCFG_CAND = true → t.betterAt + 375000000 ≤ c.mono → Claim.does s .gmTimeout fun d => d.flag TS_STAT_ISGM = true ∧ d.fld TS_STAT_GMID = c.stationId % 4096 ∧
        d.fld TS_STAT_GMCLASS = c.ownClass ∧ d.fld TS_STAT_TQ % 4 = (if c.ownClass = 1 then 2 else 1) ∧ d.events = c.events)) ∧
    (¬gm → (state ≠ 1 ∨ (∀ y, t.goodAt = some y → c.mono < y + 5000000) → exec .holdoverEntry s = .next s) ∧
      (∀ y, state = 1 → t.goodAt = some y → y + 5000000 ≤ c.mono → Claim.does s .holdoverEntry fun d => d.fld TS_STAT_TQ % 4 = 2 ∧ d.time.holdAt = some c.mono ∧
        d.time.rate = t.measured ∧ d.time.dirty = true ∧ c.regsSameBut d [TS_STAT]))) ∧
    (Claim.reaches c src.val 0x12 → let may := state = 0 ∨ (gm ∧ c.ownClass = 2)
      (v.getLsbD 31 = false ∨ ¬may → Claim.does s (.timeSet src v) fun d => d.time = t ∧ c.regsSameBut d [TS_CTL] ∧ d.fld TS_CTL_STEPS = c.fld TS_CTL_STEPS ∧
        d.flag TS_CTL_STEPPED = (c.flag TS_CTL_STEPPED && !v.getLsbD 30)) ∧
      (v.getLsbD 31 = true → may → Claim.does s (.timeSet src v) fun d => d.flag TS_CTL_STEPPED = true ∧ d.fld TS_CTL_STEPS = (c.fld TS_CTL_STEPS + 1) % 65536 ∧
        Claim.event c d 0x1A01 3 ∧ d.time = { t with dirty := true, step :=
          (((c.reg TS_SET_LO).toNat + (c.reg TS_SET_HI).toNat * 2 ^ 32 : Nat) : Int) * 65536 - ((c.lastMap.at c.mono : Nat) : Int) }))

/-- Schedules and Ethernet (R51, R588, R602 to R608, R647, R757): a schedule with a legal PERIOD is enabled from its next instance; a firing reaches the TIME channels of its groups, whose rings have room for it, and
the CAN controllers; a PTP message of the port's domain is taken, and a request answered with the time in network order; the highest queue whose frame may start sends it, a
late or far one is discarded and counted; a frame received goes to its ring, or is dropped; on port 3 a command goes to the management ring, and an echo or ARP request is
answered. A unit in STANDBY transmits nothing. -/
def Obligations.SchedulesAndEthernet : Prop :=
  ∀ (s : State) (src : Island) (k : Fin 256) (v : Word) (p : EthP) (dom : BitVec 8) (udp : Bool) (q : Fin 8) (ring : Fin 16384) (frame : List Byte) (ago : BitVec 32),
    let c := s.chip
    let t := c.time
    let period := (c.reg (TS_PERIOD k.val)).toNat
    let was := c.flag (TS_SCHEDCTL_ENABLE k.val)
    let legal := was = true ∨ period = 0 ∨ 31250 ≤ period
    (Claim.reaches c src.val 0x12 →
      let on := v.getLsbD 31 = true ∧ legal
      Claim.does s (.scheduleEnable src k v) fun d => (d.flag (TS_SCHEDCTL_ENABLE k.val) = true ↔ on) ∧ d.fld (TS_SCHEDCTL_CGMASK k.val) = v.toNat % 256 ∧
        d.flag (TS_SCHEDCTL_CANEN k.val) = v.getLsbD 8 ∧ c.regsSameBut d [TS_SCHEDCTL k.val] ∧ (¬on → assocGet d.time.scheds k.val = none) ∧
        (on → was = true → d.time = t) ∧ (on → was = false → ∃ n, assocGet d.time.scheds k.val = some n ∧
          c.fabricAt (c.mono + 200000) ≤ c.schedStart k.val + n * period ∨ (period = 0 ∧ assocGet d.time.scheds k.val = some 1))) ∧
    let room := ∀ g : Group, (c.reg (TS_SCHEDCTL k.val)).getLsbD g.val = true → c.hasRoom (14 + g.val) = true
    (assocGet t.scheds k.val = none ∨ c.islandOn 0x12 = false ∨ ¬room → exec (.scheduleFiring k) s = .next s) ∧
    (∀ n, c.islandOn 0x12 = true → room → assocGet t.scheds k.val = some n → c.fabricNow < c.schedStart k.val →
      (period = 0 → n ≠ 0 → exec (.scheduleFiring k) s = .next s) ∧
      (period ≠ 0 ∨ n = 0 → let m := c.monoOf (c.schedStart k.val + n * period)
        Claim.does s (.scheduleFiring k) fun d => d.time = { t with scheds := d.time.scheds, fired := d.time.fired } ∧ assocGet d.time.scheds k.val = some (n + 1) ∧ d.regs = c.regs ∧
          (∀ i : Chan512, let e := (c.chan i.val).entry
            eActive e ≠ 0 → eSource e = 2 → eTslot e = k.val → (c.reg (TS_SCHEDCTL k.val)).getLsbD (i.val / 64) = true → 6000 + windowNs e ≤ m →
              c.mono ≤ m - (6000 + windowNs e) → m - (6000 + windowNs e) ∈ (d.chan i.val).arrivals) ∧
          (c.flag (TS_SCHEDCTL_CANEN k.val) = false ∨ m < c.mono → d.cans = c.cans) ∧
          (c.flag (TS_SCHEDCTL_CANEN k.val) = true → c.mono ≤ m → ∀ j : CanCtl, (d.can j.val).firings = (c.can j.val).firings ++ [(k.val, n, m)]))) ∧
    (let mine := c.islandOn 0x13 = true ∧ c.flag (EN_PTPCFG_EN p.val) = true ∧ udp = c.flag (EN_PTPCFG_UDP p.val) ∧ dom.toNat = c.fld (EN_PTPCFG_DOMAIN p.val)
     let p2p := c.flag (EN_PTPCFG_P2P p.val)
     let tells := fun (m : PtpMsg) => Instr.ptpMessage p dom udp m
     (¬mine → ∀ m, exec (tells m) s = .next s) ∧
     (mine → exec (tells .other) s = .next s ∧
       (∀ rank gm life, c.ptpMaster p.val = none → Claim.does s (tells (.announce rank gm life)) fun d => (d.eth p.val).master = some ⟨rank, gm, c.mono, life⟩ ∧ d.time = t) ∧
       (∀ origin, c.ptpState p.val = 2 → Claim.does s (tells (.sync origin)) fun d => d.fld (EN_PTPSTAT_STATE p.val) = 2 ∧
         (d.eth p.val).offsets.head? = some (c.mono, ((c.fabricFracAt c.mono : Nat) : Int) - ((origin : Int) + (c.eth p.val).delay))) ∧
       (let ns := c.fabricNow
        let time := (toBytes 6 (ns / 1000000000)).reverse ++ (toBytes 4 (ns % 1000000000)).reverse
        exec (tells (.request true)) s = (if p2p = true ∧ c.mode ≠ 6 then Claim.chipNext s (c.send (8 + p.val) time) else .next s) ∧
        exec (tells (.request false)) s = (if p2p = false ∧ c.fld (EN_PTPSTAT_STATE p.val) = 1 ∧ c.mode ≠ 6 then Claim.chipNext s (c.send (8 + p.val) time) else .next s)) ∧
       (∀ d, (p2p = true → Claim.does s (tells (.delay true d)) fun e => e.eth p.val = { c.eth p.val with delay := d } ∧ e.regs = c.regs) ∧
         (p2p = false → exec (tells (.delay true d)) s = .next s)))) ∧
    (let idle := c.islandOn 0x13 = true ∧ c.mode ≠ 6 ∧ (c.eth p.val).busy ≤ c.mono
     let may := fun (o : Nat) => ∃ m, c.ethHead p.val o = some m ∧ c.ethMayStart p.val o m = true
     (¬idle ∨ (∀ o, o < 8 → ¬may o) → exec (.frameLaunch p) s = .next s) ∧
     (∀ m, idle → c.ethHead p.val q.val = some m → c.ethMayStart p.val q.val m = true → (∀ o, q.val < o → o < 8 → ¬may o) → Claim.does s (.frameLaunch p) fun d =>
       d.pool = (c.consume (c.fld (EN_TXQ_RING p.val q.val))).pool ∧ d.regs = c.regs ∧ mapGet [] d.sent (8 + p.val) = (m.bytes.drop 16).take (bytesAt m.bytes 8 2) ∧
         d.eth p.val = { c.eth p.val with busy := c.mono + wireNs (bytesAt m.bytes 8 2) })) ∧
    (let r := c.fld (EN_TXQ_RING p.val q.val)
     let alive := c.islandOn 0x13 = true ∧ c.mode ≠ 6
     (c.ethHead p.val q.val = none ∨ ¬alive → exec (.ltFrameDiscard p q) s = .next s) ∧
     (∀ m, alive → c.ethHead p.val q.val = some m → (c.ethLaunch p.val q.val m = none → exec (.ltFrameDiscard p q) s = .next s) ∧
       (∀ l, c.ethLaunch p.val q.val m = some l →
         (l + c.fld (EN_LTCFG_LATE_NS p.val) < c.fabricNow → exec (.ltFrameDiscard p q) s = Claim.chipNext s ((c.consume r).bump (EN_LTLATE_LO p.val) 1)) ∧
         (c.fabricNow + 1000000000 < l → exec (.ltFrameDiscard p q) s = Claim.chipNext s ((c.consume r).bump (EN_LTFAR_LO p.val) 1)) ∧
         (c.fabricNow ≤ l + c.fld (EN_LTCFG_LATE_NS p.val) → l ≤ c.fabricNow + 1000000000 → exec (.ltFrameDiscard p q) s = .next s)))) ∧
    (let at_ := c.mono - ago.toNat
     let takes := c.islandOn 0x13 = true ∧ 60 ≤ frame.length ∧ frame.length ≤ 1518 ∧ (c.flag (EN_PTPCFG_EN p.val) = false ∨ netAt frame 12 2 ≠ 0x88F7)
     (¬takes → exec (.ethernetReceive p ring frame ago) s = .next s) ∧
     let answer := echoReply frame <|> arpReply frame
     (takes → p.val ≠ 3 ∨ (commandData frame = none ∧ answer = none) →
       (64 ≤ ring.val → (c.pool.ring ring.val).prod = 0x13 → exec (.ethernetReceive p ring frame ago) s = Claim.chipNext s (c.publishLive ring.val 0x13
         (toBytes 8 (c.fabricAt at_) ++ toBytes 2 frame.length ++ [0#8] ++ toBytes 1 (c.tqAt at_) ++ toBytes 4 0 ++ frame))) ∧
       (ring.val < 64 ∨ (c.pool.ring ring.val).prod ≠ 0x13 → exec (.ethernetReceive p ring frame ago) s = .next s)) ∧
     (∀ x, takes → p.val = 3 → commandData frame = none → answer = some x → exec (.ethernetReceive p ring frame ago) s = Claim.chipNext s (c.sendEth 3 x)) ∧
     (∀ x, takes → p.val = 3 → commandData frame = some x → ∃ peer, exec (.ethernetReceive p ring frame ago) s = Claim.chipNext s (c.offer 46 ⟨x, false, peer, none⟩).2))

/-- The CAN controllers (R51, R100, R612, R613, R616 to R620, R623 to R634): timing is written in CONFIG only, and checked on leaving it; integration ends in the mode asked; the queue with the lowest
identifier sends, is counted and taken from its ring; errors move TEC, REC and STATE; a message is launched, is late, or is cancelled; slots take their
messages in their basic cycles. -/
def Obligations.CanControllers : Prop :=
  ∀ (s : State) (src : Island) (n : CanCtl) (data : Bool) (v : Word) (q : Fin 4) (slot : Fin 64) (f : CanFrame) (ago : BitVec 32),
    let c := s.chip
    let x := c.can n.val
    let on := c.islandOn 0x13 = true
    let tec := c.fld (CN_ERRCNT_TEC n.val)
    let rec_ := c.fld (CN_ERRCNT_REC n.val)
    let stat := c.fld (CN_STAT_STATE n.val)
    let normal := on ∧ c.fld (CN_STAT_MODE n.val) = 1 ∧ stat < 2
    let up := fun (d : Chip) (k : Nat) => d.counter k = (c.counter k + 1) % 2 ^ 64
    (Claim.reaches c src.val 0x13 →
      (let old := c.fld (CN_CFG_MODE n.val)
       let want := getF (CN_CFG_MODE n.val) v
       let write := Instr.canModeWrite src n v
       (old = 0 → want ≠ 0 → c.canTimingOk n.val = false → Claim.does s write fun d => d.flag (CN_STAT_TIMREF n.val) = true ∧ d.fld (CN_CFG_MODE n.val) = 0 ∧ d.cans = c.cans) ∧
       (old = 0 → want ≠ 0 → c.canTimingOk n.val = true → Claim.does s write fun d => d.fld (CN_CFG_MODE n.val) = want ∧ d.fld (CN_STAT_STATE n.val) = 3 ∧ d.can n.val = { x with moving := true }) ∧
       (old ≠ 0 → want ≠ old → Claim.does s write fun d => d.fld (CN_CFG_MODE n.val) = want ∧ d.fld (CN_STAT_STATE n.val) = stat ∧ d.can n.val = { x with moving := true })) ∧
      (exec (.bitTimingWrite src n data v) s = Claim.chipNext s (if c.fld (CN_CFG_MODE n.val) ≠ 0 then c.setFlag (CN_STAT_TIMREF n.val) true
        else if data then c.setReg (CN_DBT n.val) (v &&& 0x1F1F0F0F#32) else c.setReg (CN_NBT n.val) (v &&& 0xFFFF7F7F#32))) ∧
      (v.getLsbD 31 = false ∨ stat ≠ 2 → exec (.recover src n v) s = .next s) ∧
      (v.getLsbD 31 = true → stat = 2 → Claim.does s (.recover src n v) fun d => d.regs = c.regs ∧ d.can n.val = { x with recover := true }) ∧
      (let tok := getF (CN_CANCEL_TOKEN n.val) v
       let r := c.fld (CN_TXQ_RING n.val q.val)
       let tells := fun (d : Chip) (res : Nat) => d.flag (CN_CANCELSTAT_VALID n.val) = true ∧ d.fld (CN_CANCELSTAT_TOKEN n.val) = tok ∧ d.fld (CN_CANCELSTAT_RESULT n.val) = res
       v.getLsbD 23 = false → getF (CN_CANCEL_INDEX n.val) v = q.val →
         (r < 64 ∨ c.tokenPlace r tok = none → Claim.does s (.canCancel src n v) fun d => tells d 2 ∧ d.pool = c.pool ∧ d.cans = c.cans) ∧
         (64 ≤ r → c.tokenPlace r tok = some 0 → c.canActive n.val q.val = true → Claim.does s (.canCancel src n v) fun d => tells d 1 ∧ d.pool = c.pool) ∧
         (∀ i m, 64 ≤ r → c.tokenPlace r tok = some (i + 1) → (c.pool.ring r).queue[i + 1]? = some m → msgFlag m.bytes 4 = false → Claim.does s (.canCancel src n v) fun d =>
           tells d 0 ∧ d.pool = { c.pool with voids := c.pool.voids ++ [(r, i + 1)] }))) ∧
    (¬on ∨ x.moving = false ∨ x.attempt ≠ none → exec (.busIntegration n) s = .next s) ∧
    (on → x.moving = true → x.attempt = none → Claim.does s (.busIntegration n) fun d => d.fld (CN_STAT_MODE n.val) = c.fld (CN_CFG_MODE n.val) ∧ d.can n.val = { x with moving := false } ∧
      (c.fld (CN_CFG_MODE n.val) = 0 → d.reg (CN_ERRCNT n.val) = 0#32 ∧ d.fld (CN_STAT_STATE n.val) = 0) ∧
      (c.fld (CN_CFG_MODE n.val) ≠ 0 → stat = 3 → d.fld (CN_STAT_STATE n.val) = (if 128 ≤ tec ∨ 128 ≤ rec_ then 1 else 0))) ∧
    (c.canMaySend n.val = false → exec (.canArbitration n) s = .next s) ∧
    (c.canMaySend n.val = true → x.slots = [] → (∀ o m, o < 4 → c.canHead n.val o = some m → c.canInvalid n.val m.bytes = false) → ∀ m, c.canHead n.val q.val = some m → msgFlag m.bytes 3 = false →
      (∀ o y, o < 4 → o ≠ q.val → c.canHead n.val o = some y → canKey m.bytes < canKey y.bytes) → Claim.does s (.canArbitration n) fun d =>
        d.can n.val = { x with attempt := some (q.val, m.bytes, c.mono) } ∧ d.regs = c.regs ∧ d.pool = c.pool) ∧
    (x.attempt = none ∨ ¬on → exec (.canFrameSent n none) s = .next s) ∧
    (∀ b sof r, on → x.attempt = some (q.val, b, sof) → c.canRing n.val q.val = some r → c.pool.voids = [] → msgFlag b 4 = false → Claim.does s (.canFrameSent n none) fun d =>
      up d (CN_TXOK_LO n.val) ∧ (d.can n.val).attempt = none ∧ d.pool = (c.consume r).pool ∧ mapGet [] d.sent (16 + n.val) = b ∧
        (c.fld (CN_STAT_MODE n.val) = 1 → d.fld (CN_ERRCNT_TEC n.val) = tec - 1)) ∧
    (let hears := on ∧ c.fld (CN_STAT_MODE n.val) ≠ 0 ∧ stat < 2
     let ring := c.fld (CN_RINGS0_RX n.val)
     let m : Msg := ⟨canMessage f (c.tqAt (c.mono - ago.toNat)) (c.fabricAt (c.mono - ago.toNat)), false, 0x13, none⟩
     (¬hears → exec (.canFrameReceive n f ago) s = .next s) ∧
     (hears → Claim.does s (.canFrameReceive n f ago) fun d => up d (CN_RXOK_LO n.val) ∧ (d.can n.val).attempt = none ∧
       (c.fld (CN_STAT_MODE n.val) = 1 → if rec_ < 128 then d.fld (CN_ERRCNT_REC n.val) = rec_ - 1 else 119 ≤ d.fld (CN_ERRCNT_REC n.val) ∧ d.fld (CN_ERRCNT_REC n.val) ≤ 127) ∧ (c.canAccepts n.val f = false ∨ ring < 64 → d.pool = c.pool) ∧
       (c.canAccepts n.val f = true → 64 ≤ ring →
         if (c.offerLive ring m).1 = .dropped then d.reg (CN_IRQSTAT n.val) = c.reg (CN_IRQSTAT n.val) ||| 0x80#32 else d.pool = (c.offerLive ring m).2.pool))) ∧
    (¬(on ∧ c.fld (CN_STAT_MODE n.val) ≠ 0 ∧ stat < 2) → exec (.canError n .transmit) s = .next s) ∧
    (normal → (Claim.does s (.canError n .transmit) fun d => (d.can n.val).attempt = none ∧ d.fld (CN_ERRCNT_REC n.val) = rec_ ∧
        (tec < 248 → d.fld (CN_ERRCNT_TEC n.val) = tec + 8 ∧ d.fld (CN_STAT_STATE n.val) = (if 120 ≤ tec ∨ 128 ≤ rec_ then 1 else 0)) ∧ (248 ≤ tec → d.fld (CN_STAT_STATE n.val) = 2)) ∧
      (Claim.does s (.canError n .exempt) fun d => d.fld (CN_ERRCNT_TEC n.val) = Nat.min tec 256 ∧ d.fld (CN_ERRCNT_REC n.val) = rec_) ∧
      (Claim.does s (.canError n .receive) fun d => d.fld (CN_ERRCNT_REC n.val) = Nat.min 255 (rec_ + 1)) ∧
      (c.flag (CN_CFG_PXHD n.val) = false → Claim.does s (.canError n .exception) fun d => d.reg (CN_ERRCNT n.val) = c.reg (CN_ERRCNT n.val) ∧
        d.reg (CN_IRQSTAT n.val) = c.reg (CN_IRQSTAT n.val) ||| 0x40#32)) ∧
    (¬on ∨ stat ≠ 2 ∨ x.recover = false → exec (.recovered n) s = .next s) ∧
    (on → stat = 2 → x.recover = true → Claim.does s (.recovered n) fun d => d.fld (CN_STAT_STATE n.val) = 0 ∧ d.fld (CN_ERRCNT_TEC n.val) = 0 ∧ d.fld (CN_ERRCNT_REC n.val) = 0 ∧
      d.can n.val = { x with recover := false }) ∧
    (c.canHead n.val q.val = none → exec (.launchInstant n q) s = .next s ∧ exec (.canLate n q) s = .next s) ∧
    (∀ m, c.canHead n.val q.val = some m → msgFlag m.bytes 3 = true → let t := c.monoOf (msgTime m.bytes)
      (on → t ≤ c.mono → assocGet x.launched q.val = none → Claim.does s (.launchInstant n q) fun d => d.regs = c.regs ∧ d.can n.val = { x with launched := assocSet x.launched q.val t }) ∧
      (c.mono < t ∨ ¬on → exec (.launchInstant n q) s = .next s) ∧
      (∀ r, on → c.canRing n.val q.val = some r → x.attempt = none → assocGet x.launched q.val = some t →
        (c.mono < t + c.fld (CN_LATE_US n.val) * 1000 → exec (.canLate n q) s = .next s) ∧
        (t + c.fld (CN_LATE_US n.val) * 1000 ≤ c.mono → Claim.does s (.canLate n q) fun d => up d (CN_LATECNT_LO n.val) ∧ assocGet (d.can n.val).launched q.val = none ∧
          d.reg (CN_IRQSTAT n.val) = c.reg (CN_IRQSTAT n.val) ||| 0x100#32))) ∧
    (¬on → exec (.canBasicCycle n) s = .next s) ∧
    (∀ k m rest, on → x.firings = (c.fld (CN_TTCFG_SCHED n.val), k, m) :: rest → c.flag (CN_TTCFG_EN n.val) = true → m ≤ c.mono → Claim.does s (.canBasicCycle n) fun d =>
      let num := k % 2 ^ c.fld (CN_TTCFG_NCYC n.val)
      d.fld (CN_TTSTAT_CYC n.val) = num % 16 ∧ (d.can n.val).cycles.head? = some ⟨m, num, []⟩ ∧ d.pool = c.pool) ∧
    (let off := c.fld (CN_SLOTT_OFFSET n.val slot.val) * 1000
     let r := c.fld (CN_SLOT_RING n.val slot.val)
     ((∀ b ∈ x.cycles, c.mono < b.at_ + off ∨ slot.val ∈ b.done) → exec (.slotDue n slot) s = .next s) ∧
     (∀ b, on → x.cycles = [b] → b.at_ + off ≤ c.mono → slot.val ∉ b.done → c.flag (CN_SLOT_EN n.val slot.val) = true →
       (c.fld (CN_SLOTT_COLMASK n.val slot.val)).testBit b.num = true → x.slots = [] → 64 ≤ r → (c.pool.ring r).cons = 0x13 →
       (∀ m, c.head? r = some m → c.pool.voids = [] → Claim.does s (.slotDue n slot) fun d => d.pool = (c.consume r).pool ∧
         (d.can n.val).slots = [⟨slot.val, b.at_ + off, m.bytes, false⟩] ∧ assocGet (d.can n.val).last slot.val = some m.bytes) ∧
       (∀ y, c.head? r = none → c.flag (CN_SLOT_REPEAT n.val slot.val) = true → assocGet x.last slot.val = some y → Claim.does s (.slotDue n slot) fun d =>
         d.pool = c.pool ∧ (d.can n.val).slots = [⟨slot.val, b.at_ + off, y, true⟩]))) ∧
    (let found := x.slots.find? fun y => y.slot == slot.val
     (found = none → exec (.slotmiss n slot) s = .next s) ∧
     (∀ y, found = some y → on → c.canActive n.val (0x40 + slot.val) = false → y.at_ + c.fld (CN_LATE_US n.val) * 1000 ≤ c.mono → Claim.does s (.slotmiss n slot) fun d =>
       up d (CN_LATECNT_LO n.val) ∧ (d.can n.val).slots = x.slots.erase y ∧ d.reg (CN_IRQSTAT n.val) = c.reg (CN_IRQSTAT n.val) ||| 0x200#32))

/-! ## Double Reed and Duplex -/

/-- Roles and heartbeats (R641, R648, R650 to R652, R655, R656, R663, R668, R676, R680, R681, R683): the check of ACTI_N, the heartbeat sent every 100 µs and taken, loss of
the counterpart with and without READY, loss of the partner, the partner's mode, samples and drains, and the commands SWAP, LEAVE and JOIN. What passes through a ring
between MG, FX and CG waits for room in it (R642). -/
def Obligations.PairRoles : Prop :=
  ∀ (s : State) (src : Island) (low : Bool) (h : Heartbeat) (ofs stamp : BitVec 64) (high : BitVec 32) (rel : Released) (m : Fin 8) (k : Chan512) (v : Word) (q : BitVec 2),
    let c := s.chip
    let r := c.red
    let duplex := c.topo % 2 = 1
    let double := 2 ≤ c.topo
    let silent := fun (p : Peer) => p.hb.getD 0 + c.fld MG_REDCFG_HBLOSS * 1000 ≤ c.mono
    let up := fun (d : Chip) (n : Nat) => d.counter n = (c.counter n + 1) % 2 ^ 64
    let acti := Claim.chipNext s (c.setFlag MG_REDSTAT_ACTIN low)
    (c.running = false ∨ (r.droveAt = none ∧ r.retryAt = none) → exec (.actCheck low) s = acti) ∧
    (∀ t, r.droveAt = some t → c.mono < t + 50000 → exec (.actCheck low) s = acti) ∧
    (∀ t, c.running = true → r.droveAt = some t → t + 50000 ≤ c.mono →
      (Claim.does s (.actCheck false) fun d => d = { c with regs := d.regs, red := { r with droveAt := none } } ∧ c.regsSameBut d [MG_REDSTAT] ∧
        d.fld MG_REDSTAT_ROLE = c.fld MG_REDSTAT_ROLE ∧ d.flag MG_REDSTAT_ACTOUT = c.flag MG_REDSTAT_ACTOUT) ∧
      (∀ n, r.peer.serial = some n → Claim.does s (.actCheck true) fun d => d = { c with regs := d.regs, red := { r with droveAt := none } } ∧ d.flag MG_REDSTAT_ACTIN = true ∧
        (n < c.serial → d.fld MG_REDSTAT_ROLE = 2 ∧ d.flag MG_REDSTAT_ACTOUT = false ∧ d.mode = 6) ∧
        (c.serial ≤ n → c.regsSameBut d [MG_REDSTAT] ∧ d.fld MG_REDSTAT_ROLE = c.fld MG_REDSTAT_ROLE ∧ d.flag MG_REDSTAT_ACTOUT = c.flag MG_REDSTAT_ACTOUT)) ∧
      (r.peer.serial = none → Claim.does s (.actCheck true) fun d => d.flag MG_REDSTAT_ACTOUT = false ∧ c.regsSameBut d [MG_REDSTAT] ∧
        ∃ w, c.mono + 1000000 ≤ w ∧ w ≤ c.mono + 10000000 ∧ d.red = { r with droveAt := none, retryAt := some w })) ∧
    (∀ t, c.running = true → r.droveAt = none → r.retryAt = some t → t ≤ c.mono → Claim.does s (.actCheck low) fun d => d.flag MG_REDSTAT_ACTOUT = true ∧ c.regsSameBut d [MG_REDSTAT] ∧
      d = { c with regs := d.regs, red := { r with droveAt := some c.mono, retryAt := none } }) ∧
    (let due := c.topo ≠ 0 ∧ c.flag MG_STRAP_CLKSEL = true ∧ c.flag MG_STRAP_CLK_FALLBACK = false ∧ (∀ t, r.hbSent = some t → t + 100000 ≤ c.mono) ∧ c.hasRoom 24 = true
     (¬due → exec .heartbeatSend s = .next s) ∧
     (due → Claim.does s .heartbeatSend fun d => d.regs = c.regs ∧ d.red = { r with hbSent := some c.mono } ∧ ∃ b,
       bytesAt b 0 1 = c.mode ∧ bytesAt b 1 1 % 4 = c.fld MG_REDSTAT_ROLE ∧ (duplex → mapGet [] d.sent 7 = b) ∧ (double → mapGet [] d.sent 6 = b ++ (c.remoteStages.map fun j => toBytes 2 j).flatten) ∧
         (¬duplex → mapGet [] d.sent 7 = mapGet [] c.sent 7) ∧ (¬double → mapGet [] d.sent 6 = mapGet [] c.sent 6))) ∧
    (let heard := fun (p : Peer) => (⟨h.mode.val, h.role.toNat, h.ready, h.prefact, h.done, h.faults,
       h.cls.toNat, h.mirr.toNat, h.app, h.cfg, h.errors, h.remotes, some c.mono, p.serial⟩ : Peer)
     (c.hasRoom 25 = false → ∀ pl1, exec (.heartbeat pl1 h ofs) s = .next s.showReady) ∧
     (c.hasRoom 25 = true → Claim.does s (.heartbeat true h ofs) fun d => d.flag MG_REDSTAT_PL1UP = true ∧ d.counter MG_PAIROFS_LO = ofs.toNat ∧
       d.red = { r with peer := heard r.peer, evActive := r.evActive || decide (r.peer.faults < h.faults ∨ r.peer.errors < h.errors) } ∧ c.regsSameBut d [MG_REDSTAT, MG_PAIROFS_LO, MG_PAIROFS_HI]) ∧
     (c.hasRoom 25 = true → Claim.does s (.heartbeat false h ofs) fun d => d.flag MG_REDSTAT_PL0UP = true ∧ d.counter MG_PARTOFS_LO = ofs.toNat ∧
       d.red = { r with partner := heard r.partner, lost := false } ∧ c.regsSameBut d [MG_REDSTAT, MG_PARTOFS_LO, MG_PARTOFS_HI])) ∧
    (let gone := silent r.peer
     let left := r.peer.hb ≠ none ∧ r.peer.mode ≠ 4 ∧ r.peer.mode ≠ 5
     let tells := Instr.heartbeatLoss high rel
     let ready := (¬gone ∧ s.notReady = 0) ∨ (c.flag MG_REDSTAT_READY = true ∧ (gone ∨ s.notReady = 5))
     (c.fld MG_REDSTAT_ROLE ≠ 2 ∨ c.mode ≠ 6 ∨ (¬gone ∧ ¬left) → exec tells s = Claim.chipNext s (c.setFlag MG_REDSTAT_ACTIN (high == 0#32))) ∧
     (c.fld MG_REDSTAT_ROLE = 2 → c.mode = 6 → gone ∨ left →
       (high.toNat < 200000 ∨ ¬ready → Claim.does s tells fun d => d.red = r ∧ c.regsSameBut d [MG_REDSTAT] ∧ (gone → d.flag MG_REDSTAT_PL1UP = false) ∧
         d.fld MG_REDSTAT_ROLE = 2 ∧ (high.toNat < 200000 → d.events = c.events) ∧ (200000 ≤ high.toNat → Claim.event c d 0x1C13 6)) ∧
       (200000 ≤ high.toNat → ready → Claim.does s tells fun d => d.fld MG_REDSTAT_ROLE = 1 ∧ d.flag MG_REDSTAT_ACTOUT = true ∧ up d MG_TAKEOVER_LO ∧
         (r.peer.mode = 4 ∨ r.peer.mode = 5 → d.mode = r.peer.mode) ∧ d.red.peer.role = 0 ∧ d.loop.firsts = c.enabledStages ∧
         (∀ (t : Task) (n : BitVec 64), rel = [(t, n)] → d.counter (MG_TASKCYC_LO t.val) = (n.toNat + 1) % 2 ^ 64) ∧
         (∀ ring n, r.seqs = [(ring, n)] → assocGet d.fab.lastSeq ring = some ((n + 1048575) % 2 ^ 32)) ∧
         (∀ (j : Nat) (w : Word), r.items = [] → r.mirror = [(j, w)] → (c.chan j).isOutput = true → (d.chan j).want = some w ∧ (d.chan j).queue = [])))) ∧
    (¬double ∨ r.lost = true ∨ ¬silent r.partner → exec .partnerLost s = .next s) ∧
    (double → r.lost = false → silent r.partner → Claim.does s .partnerLost fun d => d.red = { r with lost := true } ∧ d.flag MG_REDSTAT_PL0UP = false ∧
      c.regsSameBut d [MG_REDSTAT] ∧ Claim.event c d 0x1C10 6) ∧
    (¬double → exec (.partnerModeRequest m) s = .next s ∧ exec (.partnerSample k stamp v q) s = .next s ∧ exec (.partnerDrain k v) s = .next s) ∧
    (c.hasRoom (28 + k.val / 64) = false → exec (.partnerSample k stamp v q) s = .next s ∧ exec (.partnerDrain k v) s = .next s) ∧
    (double →
      (8 ≤ c.ctl.queue.length → exec (.partnerModeRequest m) s = .next s) ∧
      (c.ctl.queue.length < 8 → exec (.partnerModeRequest m) s = Claim.chipNext s { c with ctl := { c.ctl with queue := c.ctl.queue ++ [⟨.partner m.val, 0⟩] } }) ∧
      (let t := ((stamp.toNat : Int) - signed 64 (c.counter MG_PARTOFS_LO)).toNat + 10000
       c.hasRoom (28 + k.val / 64) = true → (t < c.mono → Claim.does s (.partnerSample k stamp v q) fun d => up d MG_PLLATE_LO ∧ d.red = r) ∧
       (c.mono ≤ t → Claim.does s (.partnerSample k stamp v q) fun d => d.regs = c.regs ∧ ∃ old, old.length ≤ 1 ∧
         assocGet d.red.chans ((if c.chanBase = 0 then 512 else 0) + k.val) = some ⟨(t, v) :: old, q.toNat⟩)) ∧
      (let mine := ∃ j ∈ c.enabledTasks, ∃ g ∈ mapOutputs (s.tMap j), c.localChan g = some k.val
       let x := c.chan k.val
       c.hasRoom (28 + k.val / 64) = true → (mine → x.ign < 2 ^ 64 - 1 → Claim.chanNow s (.partnerDrain k v) k.val { x with ign := x.ign + 1 }) ∧
       (¬mine → x.isOutput = true → eMode x.entry ≠ 0 → eMode x.entry ≠ 7 → Claim.chanNow s (.partnerDrain k v) k.val { x with queue := x.queue ++ [(c.mono, v)] }))) ∧
    (Claim.reaches c src.val 0x15 →
      let busy := r.xAt ≠ none ∨ r.fight ≠ none ∨ r.want ≠ 0
      let role := c.fld MG_REDSTAT_ROLE
      let tells := fun (i : Instr) (res : Nat) (P : Chip → Prop) => Claim.does s i fun d => c.regsSameBut d [MG_REDCMDST] ∧ d.flag MG_REDCMDST_VALID = true ∧
        d.fld MG_REDCMDST_TAG = v.toNat % 256 ∧ d.fld MG_REDCMDST_RESULT = res ∧ P d
      let refused := fun (d : Chip) => d = { c with regs := d.regs }
      (¬duplex ∨ role ≠ 1 → tells (.swap src v) 4 refused) ∧
      (duplex → role = 1 → busy → tells (.swap src v) 3 refused) ∧
      (duplex → role = 1 → ¬busy → r.peer.ready = false → tells (.swap src v) 1 refused) ∧
      (duplex → role = 1 → ¬busy → r.peer.ready = true → tells (.swap src v) 0 fun d => d.red = { r with want := 2 } ∧ d.ctl = c.ctl) ∧
      (¬duplex ∨ (role ≠ 1 ∧ role ≠ 2) → tells (.leave src v) 4 refused) ∧
      (duplex → role = 1 ∨ role = 2 → busy → tells (.leave src v) 3 refused) ∧
      (duplex → role = 1 → ¬busy → r.peer.ready = false → tells (.leave src v) 1 refused) ∧
      (duplex → role = 2 ∨ (role = 1 ∧ r.peer.ready = true) → ¬busy → tells (.leave src v) 0 fun d => d.ctl = { c.ctl with fatal := true } ∧ d.red = r) ∧
      (¬duplex ∨ c.mode ≠ 2 → tells (.joinSet src v) 4 refused) ∧
      (duplex → c.mode = 2 → busy → tells (.joinSet src v) 3 refused) ∧
      (duplex → c.mode = 2 → ¬busy → keyAllows c.keyPos 6 = false → tells (.joinSet src v) 2 refused) ∧
      (duplex → c.mode = 2 → ¬busy → keyAllows c.keyPos 6 = true → c.ctl.queue.length < 8 →
        tells (.joinSet src v) 0 fun d => d.ctl = { c.ctl with queue := c.ctl.queue ++ [⟨.partner 6, 0⟩] } ∧ d.red = r)) ∧
    (let due := c.topo = 3 ∧ c.flag MG_REDCFG_SWAPEN = true ∧ c.fld MG_REDSTAT_ROLE = 1 ∧ c.fld FX_STATION_POS = 1 ∧ r.xAt = none ∧ r.fight = none ∧ r.want = 0 ∧
       r.swapFrom + c.fld MG_REDCFG_SWAPH * 3600000000000 ≤ c.now ∧ r.swapWait ≤ c.now
     (¬due → exec .periodicSwap s = .next s) ∧
     (due → r.peer.ready = true → exec .periodicSwap s = Claim.chipNext s { c with red := { r with want := 2 } }) ∧
     (due → r.peer.ready = false → exec .periodicSwap s = Claim.chipNext s { c with red := { r with swapWait := c.now + 600000000000 } }))

/-- Comparison, the referee, handover and resynchronisation (R658, R664 to R666, R671 to R673, R678, R679, R682): a compared cycle matches, differs or is skipped; stage values
are sent, applied and compared; a divergent input and a change with another result are shown; the referee takes the first row that applies; a handover is agreed,
begins at X and ends 200 µs after it. -/
def Obligations.PairHandover : Prop :=
  ∀ (s : State) (k : Task) (n : BitVec 64) (ch : Chan512) (v : Word) (ms : BitVec 16) (tag : Byte) (diff : Bool) (active own : List Chan512) (lead : BitVec 32) (why : BitVec 2)
    (ws : List Window) (seqs : List (Nat × Nat)) (sg : StageMirror) (a : BitVec 35) (bs : List Byte),
    let c := s.chip
    let r := c.red
    let duplex := c.topo % 2 = 1
    let role := c.fld MG_REDSTAT_ROLE
    let paired := c.mode = 6 ∧ duplex ∧ role = 2 ∧ ¬(r.xAt ≠ none ∧ r.taking = true)
    let up := fun (d : Chip) (x : Nat) => d.counter x = (c.counter x + 1) % 2 ^ 64
    let stands := fun (d : Chip) => d.ctl = { c.ctl with fatal := true }
    (∀ items, (c.run k.val = none ∨ ¬paired ∨ ∀ y, c.run k.val = some y → y.cycle ≠ n.toNat ∨ y.dead ≠ none) → exec (.outputCompare k n items) s = .next s) ∧
    (∀ y, c.run k.val = some y → paired → y.cycle = n.toNat → y.dead = none →
      let wd := y.last + s.tWd k.val * 1000
      let noSetpoint := fun (l : List (Nat × Word)) => ∀ p ∈ l, ∀ i, (s.tMap k.val)[p.1]? = some i → i.kind ≠ 3
      (c.mono < wd → exec (.outputCompare k n none) s = .next s) ∧
      (wd ≤ c.mono → Claim.does s (.outputCompare k n none) fun d => up d MG_MIRSKIP_LO ∧ d.flag MG_REDSTAT_MIRLATE = true ∧ d.red = { r with matched := assocSet r.matched k.val 0 }) ∧
      (∀ p w i, (s.tMap k.val)[p]? = some i → i.kind = 3 → Claim.does s (.outputCompare k n (some [(p, w)])) fun d =>
        d.reg (LE_STAGE (32 * i.index + 18)) = (c.imageSetpoint i.index w).reg (LE_STAGE (32 * i.index + 18))) ∧
      (∀ l, s.itemDiffs k.val l = [] → Claim.does s (.outputCompare k n (some l)) fun d => (noSetpoint l → c.regsSameBut d [MG_REDSTAT]) ∧ d.events = c.events ∧
        d.red = { r with items := assocSet r.items k.val l, matched := assocSet r.matched k.val ((assocGet r.matched k.val).getD 0 + 1), evActive := false, evOwn := false }) ∧
      (∀ l, s.itemDiffs k.val l ≠ [] → Claim.does s (.outputCompare k n (some l)) fun d => up d MG_MISMATCH_LO ∧ assocGet d.red.matched k.val = some 0 ∧
        ∃ chans, d.red.fight = some (chans ++ r.fight.getD []) ∧ ∀ i ∈ s.itemDiffs k.val l, ∀ j, i.kind = 2 → c.localChan i.index = some j → j ∈ chans)) ∧
    (role = 1 → (∀ t, r.mirSent = some t → c.mono < t + 1000000 → exec (.stageMirror [sg] []) s = .next s) ∧
      (c.hasRoom 26 = true → (∀ t, r.mirSent = some t → t + 1000000 ≤ c.mono) → exec (.stageMirror [sg] []) s =
        Claim.chipNext s { c with red := { r with mirSent := some c.mono }, sent := mapSet [] c.sent 7 ((c.enabledStages.map c.stageBytes).flatten ++ c.boundWords) })) ∧
    (role ≠ 1 → role ≠ 2 → exec (.stageMirror [sg] [(ch, v)]) s = .next s) ∧
    (role = 2 → c.hasRoom 27 = false → exec (.stageMirror [sg] [(ch, v)]) s = .next s) ∧
    (role = 2 → c.hasRoom 27 = true → let at_ := LE_STAGE (32 * sg.stage.val)
      (sg.stage.val ∉ c.enabledStages → exec (.stageMirror [sg] []) s = .next s) ∧
      (sg.stage.val ∈ c.enabledStages → Claim.does s (.stageMirror [sg] []) fun d => d.fld ⟨at_, 6, 5⟩ = sg.mode.toNat ∧ d.reg (LE_STAGE (32 * sg.stage.val + 18)) = sg.sp ∧
        d.reg (LE_STAGE (32 * sg.stage.val + 19)) = sg.man ∧ c.regsSameBut d [at_, LE_STAGE (32 * sg.stage.val + 18), LE_STAGE (32 * sg.stage.val + 19)] ∧ d.red = r) ∧
      (let e := (c.chan ch.val).entry
       let y := c.stageRec (eStage e)
       let here := (convertChannel (outputWord (recOutV y) (recEs y) (recOutExp y)).toInt (recOutExp y) (recEs y)).1
       let there := (convertChannel v.toInt (recOutExp y) (recEs y)).1
       let far := (c.fld MG_REDTOL_LETOL : Int) * (recHi y - recLo y) < (here - there).natAbs * 100000
       Claim.does s (.stageMirror [] [(ch, v)]) fun d => assocGet d.red.mirror ch.val = some v ∧
         (isAo (eActive e) = false ∨ eBind e = false → d.regs = c.regs ∧ d.red.fight = r.fight ∧ d.red.diffs = r.diffs) ∧
         (isAo (eActive e) = true → eBind e = true →
           (¬far → d.regs = c.regs ∧ assocGet d.red.diffs ch.val = none ∧ d.red.fight = r.fight) ∧
           (far → assocGet r.diffs ch.val = none → d.regs = c.regs ∧ assocGet d.red.diffs ch.val = some c.mono ∧ d.red.fight = r.fight) ∧
           (∀ t, far → assocGet r.diffs ch.val = some t → t + c.fld MG_REDTOL_LETIME * 1000000 ≤ c.mono → up d MG_MISMATCH_LO ∧ d.red.fight = some (ch.val :: r.fight.getD []))))) ∧
    (let e := (c.chan ch.val).entry
     let shows := Claim.does s (.inputDivergence ch v ms) fun d => d.flag MG_REDSTAT_INDIV = true ∧ c.regsSameBut d [MG_REDSTAT] ∧ d.red = r ∧ Claim.event c d 0x1C12 4
     (¬paired ∨ (c.chan ch.val).samples = [] → exec (.inputDivergence ch v ms) s = .next s) ∧
     (∀ q rest, paired → (c.chan ch.val).samples = q :: rest → isDi (eMode e) = true →
       (q.value.getLsbD 0 ≠ v.getLsbD 0 → 1 ≤ ms.toNat → shows) ∧ (q.value.getLsbD 0 = v.getLsbD 0 ∨ ms.toNat = 0 → exec (.inputDivergence ch v ms) s = .next s)) ∧
     (∀ q rest lo hi x y, paired → (c.chan ch.val).samples = q :: rest → isDi (eMode e) = false → rangeSpan (eRange e) = some (lo, hi, x, y) →
       let d := (commandOf e v).add ((commandOf e q.value).mul ⟨-1, 1⟩)
       let tol : Frac := ⟨c.fld MG_REDTOL_INTOL * (hi - lo), 1000000⟩
       ((tol.lt d = true ∨ tol.lt (d.mul ⟨-1, 1⟩) = true) → c.fld MG_REDTOL_LETIME ≤ ms.toNat → shows) ∧
       (tol.lt d = false → tol.lt (d.mul ⟨-1, 1⟩) = false → exec (.inputDivergence ch v ms) s = .next s))) ∧
    (role ≠ 2 → ∀ f, exec (.forwardedChange f n diff) s = .next s) ∧
    (role = 2 → Claim.does s (.forwardedChange (.single k tag ch bs) n diff) fun d => c.regsSameBut d [MG_REDSTAT] ∧
      d.sets = c.sets ++ [⟨tag.toNat, false, k.val, n.toNat, none, safetyRelevant (c.chan ch.val).entry bs, [(ch.val, bs)]⟩] ∧
      (diff = false → d.red = r ∧ d.events = c.events) ∧ (diff = true → d.red = { r with differs := true } ∧ Claim.event c d 0x1C11 5)) ∧
    (role = 2 → ∃ t, exec (.forwardedChange (.patch k tag a bs) n false) s = .next t ∧ t.cores = s.cores ∧ t.pending = s.pending ∧ t.mem = memPut s.mem a.toNat bs ∧
      t.chip.cyc.patches = c.cyc.patches ++ [⟨k.val, tag.toNat, a.toNat, bs.length / 24, n.toNat, false⟩]) ∧
    (let tells := Instr.referee active own
     (r.fight = none → exec tells s = .next s) ∧
     (∀ chans, r.fight = some chans →
       let shown := fun (i : Nat) => c.rbShown i = true
       let row1 := r.evActive = true ∧ r.evOwn = false
       let row2 := r.evOwn = true ∧ r.evActive = false
       let row3 := (∃ i ∈ chans, ∃ x ∈ active, x.val = i) ∧ ∀ i ∈ chans, ¬shown i
       let row4 := ∃ i ∈ chans, ∃ x ∈ own, x.val = i
       let takes := fun (row out : Nat) => Claim.does s tells fun d => d.fld MG_REDSTAT_REFROW = row ∧ d.fld MG_REDSTAT_REFOUT = out ∧ c.regsSameBut d [MG_REDSTAT] ∧
         (out = 1 → d.red = { r with fight := none, want := 1 } ∧ d.ctl = c.ctl ∧ d.events = c.events) ∧
         (out ≠ 1 → d.red = { r with fight := none } ∧ stands d ∧ Claim.event c d 0x1C14 5)
       (row1 → takes 1 1) ∧ (row2 → takes 2 2) ∧ (¬row1 → ¬row2 → row3 → takes 3 1) ∧ (¬row1 → ¬row2 → ¬row3 → row4 → takes 4 1) ∧
         (¬row1 → ¬row2 → ¬row3 → ¬row4 → takes 5 3))) ∧
    (let may := duplex ∧ r.xAt = none ∧ 50000 ≤ lead.toNat ∧ why ≠ 0#2 ∧ (role = 1 ∨ role = 2)
     let tells := fun (rel : Released) => Instr.handoverAgreement lead why rel
     (¬may → ∀ rel, exec (tells rel) s = .next s) ∧
     (may → ∀ rel, Claim.does s (tells rel) fun d => d.red = { r with xAt := some (c.mono + lead.toNat), taking := role == 2, why := why.toNat, want := 0, fight := none } ∧
       mapGet [] d.sent 7 = toBytes 1 why.toNat ++ toBytes 8 (c.mono + lead.toNat) ∧ (role = 1 → d.regs = c.regs) ∧
       (∀ m, role = 2 → rel = [(k, m)] → d.counter (MG_TASKCYC_LO k.val) = (m.toNat + 1) % 2 ^ 64))) ∧
    (r.xAt = none → exec .crossfade s = .next s ∧ exec .crossfadeEnd s = .next s) ∧
    (∀ x, r.xAt = some x →
      let fading := c.flag MG_REDSTAT_XFADE = true
      (c.mono < x ∨ fading ∨ c.running = false → exec .crossfade s = .next s) ∧
      (x ≤ c.mono → ¬fading → c.running = true → Claim.does s .crossfade fun d => d.flag MG_REDSTAT_XFADE = true ∧
        (r.taking = false → d.fld MG_REDSTAT_ROLE = role ∧ d.red = r ∧ c.regsSameBut d [MG_REDSTAT] ∧ d.chans = c.chans) ∧
        (r.taking = true → d.fld MG_REDSTAT_ROLE = 1 ∧ d.flag MG_REDSTAT_ACTOUT = true ∧ up d MG_TAKEOVER_LO ∧ (r.peer.mode = 4 ∨ r.peer.mode = 5 → d.mode = r.peer.mode) ∧
          d.red.xAt = some x)) ∧
      (¬fading ∨ c.mono < x + 200000 ∨ c.running = false → exec .crossfadeEnd s = .next s) ∧
      (fading → x + 200000 ≤ c.mono → c.running = true → Claim.does s .crossfadeEnd fun d => d.flag MG_REDSTAT_XFADE = false ∧ d.red.xAt = none ∧ (r.why = 2 → up d MG_SWAPS_LO) ∧
        (r.taking = true → d.fld MG_REDSTAT_ROLE = role ∧ d.flag MG_REDSTAT_ACTOUT = c.flag MG_REDSTAT_ACTOUT ∧ d.ctl = c.ctl) ∧
        (r.taking = false → d.flag MG_REDSTAT_ACTOUT = false ∧ d.red.peer.role = 1 ∧ (r.why = 1 → stands d) ∧
          (r.why ≠ 1 → d.fld MG_REDSTAT_ROLE = 2 ∧ d.mode = 6 ∧ d.red.resync = true ∧ d.red.matched = [] ∧ d.cyc.patches = [])))) ∧
    (role ≠ 1 → role ≠ 2 → exec (.replayWindowSync ws seqs) s = .next s) ∧
    (role = 1 → Claim.does s (.replayWindowSync ws seqs) fun d => d = { c with sent := d.sent } ∧ ∃ b, d.sent = mapSet [] c.sent 7 b ∧
      b.length = 9 * c.fab.windows.length + 6 * c.fab.lastSeq.length) ∧
    (∀ w, role = 2 → Claim.does s (.replayWindowSync [w] seqs) fun d => d.regs = c.regs ∧
      d.fab.windows = w :: c.fab.windows.filter (fun y => ¬(y.src = w.src ∧ y.mod = w.mod ∧ y.ring = w.ring)) ∧
      (∀ p, seqs = [p] → assocGet d.red.seqs p.1 = some p.2)) ∧
    (role ≠ 2 ∨ c.flag MG_REDSTAT_PL1UP = false → exec (.resynchronisation [(a, bs)] ws seqs []) s = .next s) ∧
    (role = 2 → c.flag MG_REDSTAT_PL1UP = true → ∃ t, exec (.resynchronisation [(a, bs)] [] [] []) s = .next t ∧ t.cores = s.cores ∧ t.pending = s.pending ∧
      t.chip.red = { r with resync := true, matched := [], differs := false } ∧ c.regsSameBut t.chip [MG_REDSTAT] ∧
      (c.mode ≠ 1 → c.locked a.toNat bs.length = false → t.mem = memPut s.mem a.toNat bs) ∧ (c.locked a.toNat bs.length = true → t.mem = s.mem))

/-! ## Storage -/

/-- What a flash request is answered with (R692 to R695, R702, R704, R844): 1 accepted, 6 BADADDR, 5 PROTECTED, 3 SAMEBANK, 4 RETIRED, 9 NOTERASED, 8 FULL. -/
def Sys2Proof.Claim.flashResult (s : State) (r : FlashReq) (fetch : Option Nat) : Nat :=
  let f := s.chip.flash
  if r.op = 3 ∨ (r.op ≠ 2 ∧ (1024 < r.first + r.count ∨ s.chip.mode = 1 ∨ dramSize < r.addr + r.count * 16384)) then 6
  else if r.op ≠ 0 ∧ s.mayWriteUnit r.src r.unit = false then 5
  else if r.op ≠ 0 ∧ ∃ p ∈ fetch, bankOf p = f.bank r.unit then 3
  else if (f.unit r.unit).gone = true then 4
  else if r.op = 1 ∧ f.notErased r.unit r.first r.count = true then 9
  else if 8 ≤ (f.queue (f.bank r.unit)).length then 8
  else 1

/-- The flash and the Breath check (R100, R692 to R697, R701 to R709, R844): a request is queued in its unit's bank or refused with its reason; the head of a bank is admitted when the
energy covers it, deferred and tried again after 10 ms when it does not; an operation performed is reported, one that needs DRAM in RECOVERY as BADADDR; ST does none of
this without its clock; the energy shown follows the voltage. -/
def Obligations.FlashAndHoldup : Prop :=
  ∀ (s : State) (src : Island) (v : Word) (fetch : Option (BitVec 12)) (b : Fin 4) (mv : BitVec 16) (chg : Bool),
    let c := s.chip
    let q := c.flash.queue b.val
    let status := fun (d : Chip) (t res : Nat) => d.flag BT_FLSTAT_VALID = true ∧ d.fld BT_FLSTAT_TAG = t % 256 ∧ d.fld BT_FLSTAT_RESULT = res
    let asks := fun (i : Instr) (who op : Nat) (fetch : Option Nat) =>
      let len := c.reg (banked BT_FLLEN who)
      let r : FlashReq := ⟨who, op, some (v.toNat / 65536 % 256), v.toNat % 4096, len.toNat % 1024, len.toNat / 65536 % 64 + 1, (c.reg (banked BT_FLADDR who)).toNat * 4096, false, none⟩
      let res := Claim.flashResult s r fetch
      Claim.does s i fun d => status d (v.toNat / 65536 % 256) res ∧ c.regsSameBut d [BT_FLSTAT] ∧ (res ≠ 1 → d = { c with regs := d.regs }) ∧
        (res = 1 → d = { c with regs := d.regs, flash := c.flash.setQueue (c.flash.bank (v.toNat % 4096)) (c.flash.queue (c.flash.bank (v.toNat % 4096)) ++ [r]) })
    (Claim.reaches c src.val 0x14 → asks (.flashRead src v) src.val 0 none ∧
      asks (.flashProgram src v fetch) src.val 1 (fetch.map BitVec.toNat) ∧
      asks (.flashErase src v fetch) src.val 2 (fetch.map BitVec.toNat)) ∧
    (Claim.reaches c 0x15 0x14 → asks (.btRampgm v) 0x15 (v.toNat / 2 ^ 30) none) ∧
    (q = [] ∨ c.islandOn 0x14 = false → exec (.breathCheck b) s = .next s ∧ exec (.flashOperationComplete b) s = .next s) ∧
    (∀ r rest, c.islandOn 0x14 = true → q = r :: rest →
      let tells := Instr.breathCheck b
      let enough := (if r.op = 2 then 1303500 else 1243125) ≤ c.energy ∧ c.power.failAt = none
      let heads := fun (d : Chip) (r' : FlashReq) => d.flash.queue b.val = r' :: rest ∧ d.flash.pages = c.flash.pages ∧ d.flash.spares = c.flash.spares
      let waits := ∀ t, r.deferAt = some t → t + 10000000 ≤ c.mono
      (r.op = 0 ∨ r.admitted = true ∨ ¬waits → exec tells s = .next s) ∧
      (r.op ≠ 0 → r.admitted = false → waits →
        (enough → Claim.does s tells fun d => d.regs = c.regs ∧ heads d { r with admitted := true } ∧ (r.op ≠ 2 → d.flash.units = c.flash.units) ∧
          (r.op = 2 → d.flash.unit r.unit = { c.flash.unit r.unit with started := (c.flash.unit r.unit).started + 1, erasing := true })) ∧
        (¬enough → Claim.does s tells fun d => heads d { r with deferAt := some c.mono } ∧ d.flash.units = c.flash.units ∧ c.regsSameBut d [PW_HOLDUP, BT_FLSTAT] ∧
          (r.deferAt ≠ none → d.regs = c.regs) ∧ (r.deferAt = none → d.fld PW_HOLDUP_DEFERRED = Nat.min 255 (c.fld PW_HOLDUP_DEFERRED + 1) ∧
            ∀ t, r.tag = some t → status d t 2))) ∧
      (r.op ≠ 0 → r.admitted = false → r.tag ≠ none → exec (.flashOperationComplete b) s = .next s) ∧
      (r.op ≠ 2 → r.op = 0 ∨ r.admitted = true → c.mode = 1 → Claim.does s (.flashOperationComplete b) fun d => c.regsSameBut d [BT_FLSTAT] ∧ d.flash.queue b.val = rest ∧
        d.flash.pages = c.flash.pages ∧ ∀ g, r.tag = some g → status d g 6) ∧
      (r.op = 0 → r.count = 1 → c.mode ≠ 1 → let n := c.flash.pageNo r.unit r.first
        ∀ cells, c.flash.page n = .bytes cells → 2048 ≤ n → c.locked r.addr 16384 = false → ∃ t, exec (.flashOperationComplete b) s = .next t ∧ t.cores = s.cores ∧
          t.pending = s.pending ∧ t.mem = memPut s.mem r.addr ((List.range 16384).map fun i => mapGet 0#8 cells i) ∧ t.chip.flash.queue b.val = rest ∧
          t.chip.flash.pages = c.flash.pages ∧ c.regsSameBut t.chip [BT_FLSTAT] ∧ ∀ g, r.tag = some g → status t.chip g (if (c.flash.unit r.unit).half = true then 10 else 0)) ∧
      (r.op = 1 → r.admitted = true → r.count = 1 → c.mode ≠ 1 → Claim.does s (.flashOperationComplete b) fun d => c.regsSameBut d [BT_FLSTAT] ∧ d.flash.queue b.val = rest ∧
        d.flash.units = c.flash.units ∧ d.flash.page (c.flash.pageNo r.unit r.first) = .bytes (cellsOf 0 (memBytes s.mem 16384 r.addr)) ∧
        (∀ n, n ≠ c.flash.pageNo r.unit r.first → d.flash.page n = c.flash.page n) ∧ ∀ g, r.tag = some g → status d g 0) ∧
      (r.op = 2 → r.admitted = true → let u := c.flash.unit r.unit
        u.started < 30000 → Claim.does s (.flashOperationComplete b) fun d => c.regsSameBut d [BT_FLSTAT] ∧ d.flash.queue b.val = rest ∧
          d.flash.unit r.unit = { u with completed := u.started, erasing := false } ∧ (∀ g, r.tag = some g → status d g 0) ∧
          (∀ i, i < 1024 → d.flash.page (u.moved.getD r.unit * 1024 + i) = .erased) ∧
          (∀ n, n / 1024 ≠ u.moved.getD r.unit → d.flash.page n = c.flash.page n))) ∧
    (let e := c.test.capNow * (mv.toNat ^ 2 - 20000 ^ 2) / 160000
     Claim.does s (.holdupEnergyUpdate mv chg) fun d => d.energy = e ∧ d = { c with regs := d.regs, energy := e } ∧ c.regsSameBut d [PW_HOLDUP] ∧
       d.flag PW_HOLDUP_CHARGING = chg ∧ (d.flag PW_HOLDUP_BELOWRES = true ↔ e < 1200000) ∧ d.fld PW_HOLDUP_EAVAIL = Nat.min 4095 (e / 2500) ∧
       d.fld PW_HOLDUP_DEFERRED = c.fld PW_HOLDUP_DEFERRED)

/-- The recorder (R711, R713, R716 to R719, R722, R723, R725, R726, R809): an event repeats a record of its stream, makes one, or is lost for want of a place; a flush takes the
records created before the store at its start to the log, up to 512 at a time, under each stream's policy; application events and reads come through their rings; an alarm is acknowledged once. -/
def Obligations.Recorder : Prop :=
  ∀ (s : State) (src : Island) (v : Word),
    let c := s.chip
    let r := c.recorder
    let up := fun (d : Chip) (k : Nat) => d.counter k = (c.counter k + 1) % 2 ^ 64
    let seq := (c.reg EV_NEXTSEQ).toNat
    let place := fun (st : Nat) => r.buf.length < 8192 ∧ (28 ≤ st ∨ (r.buf.filter fun x => x.stream < 28).length < 7936)
    let makes := fun (d : Chip) (e : Event) => ∃ x : EvRec, d.recorder.buf = r.buf ++ [x] ∧ x.seq = seq ∧ x.stream = e.stream ∧ x.sev = e.sev ∧ x.code = e.code ∧ x.rep = 0 ∧
      x.flags = (if e.stream + 32 ∈ r.gaps then 2 else 0) ∧ x.first = e.ft ∧ x.last = e.ft ∧ x.tq = e.tq ∧ x.src = e.src ∧ x.data = dataOf e.data ∧ x.pwr = (c.reg EV_PWRCYC).toNat ∧ d.reg EV_NEXTSEQ = c.reg EV_NEXTSEQ + 1#32 ∧
      d.recorder.log = r.log ∧ (e.sev < 5 ∨ e.stream < 16 → d.recorder.alarms = r.alarms) ∧
      (5 ≤ e.sev → 16 ≤ e.stream → r.alarms.length < 256 → d.recorder.alarms = r.alarms ++ [⟨x, false⟩]) ∧ (4096 ≤ r.buf.length + 1 → d.recWanted = true)
    (c.events = [] → exec .eventRecord s = .next s) ∧
    (∀ e es, c.events = e :: es →
      (∀ x, r.latest e.stream = some x → x.code = e.code → x.src = e.src → x.data = dataOf e.data → Claim.does s .eventRecord fun d => d.events = es ∧
        d.reg EV_NEXTSEQ = c.reg EV_NEXTSEQ ∧ d.recorder.log = r.log ∧ d.recorder.buf = r.buf.map fun y =>
          if y.seq = x.seq then { x with rep := if x.rep < 65535 then x.rep + 1 else x.rep, last := e.ft, tq := e.tq, sev := Nat.max x.sev e.sev } else y) ∧
      ((∀ x, r.latest e.stream = some x → x.code ≠ e.code ∨ x.src ≠ e.src ∨ x.data ≠ dataOf e.data) →
        (place e.stream → Claim.does s .eventRecord fun d => d.events = es ∧ makes d e) ∧
        (¬place e.stream → Claim.does s .eventRecord fun d => d.recorder.buf = r.buf ∧ d.recorder.log = r.log ∧ up d EV_BUFLOST_LO ∧
          d.reg EV_NEXTSEQ = c.reg EV_NEXTSEQ + 1#32 ∧ mapGet 0 d.recorder.lost e.stream = (mapGet 0 r.lost e.stream + 1) % 2 ^ 64))) ∧
    (let opms := if c.power.failAt = none then r.opms + (c.now - r.opmsAt) / 1000000 else r.opms
     let stored := (opms, (c.reg EV_PWRCYC).toNat, (c.reg EV_NEXTSEQ - 1#32).toNat)
     Claim.does s .opmsStore fun d => d = { c with recorder := { r with stored := stored, storeAt := c.now }, test := { c.test with capSaved := some c.test.capNow } }) ∧
    (c.recWanted = false → exec .recorderFlush s = .next s) ∧
    let running := c.flag EV_RECSTAT_FLUSHING = true
    let settled := running ∨ ∀ st, r.count st ≤ r.cap st * 65536
    let before := fun (x : EvRec) => serialGe (if c.flag EV_RECSTAT_FLUSHING then r.stored.2.2 else (c.reg EV_NEXTSEQ - 1#32).toNat) x.seq
    (c.recWanted = true → c.energy < 10350 → settled → Claim.does s .recorderFlush fun d => d.recWanted = true ∧ d.flag EV_RECSTAT_FLUSHING = true ∧ d.recorder.buf = r.buf ∧ d.recorder.log = r.log ∧
      d.flag EV_RECSTAT_FLUSHDEF = true ∧ d.fld PW_HOLDUP_DEFERRED = (if c.flag EV_RECSTAT_FLUSHDEF = true then c.fld PW_HOLDUP_DEFERRED else Nat.min 255 (c.fld PW_HOLDUP_DEFERRED + 1))) ∧
    (c.recWanted = true → 10350 ≤ c.energy → settled →
      (Claim.does s .recorderFlush fun d => let n := Nat.min 512 (r.buf.filter before).length
        d.recorder.buf = r.buf.drop n ∧ (d.flag EV_RECSTAT_FLUSHING = true ↔ (d.recorder.buf.filter before) ≠ []) ∧ d.fld EV_RECSTAT_BUFOCC = (r.buf.length - n) % 2 ^ 14) ∧
      (r.buf = [] → Claim.does s .recorderFlush fun d => d.recWanted = false ∧ d.recorder.buf = [] ∧ d.recorder.log = r.log ∧ c.regsSameBut d [EV_RECSTAT]) ∧
      (∀ x, r.buf = [x] → before x = true → Claim.does s .recorderFlush fun d => d.recWanted = false ∧ d.recorder.buf = [] ∧ d.flag EV_RECSTAT_FLUSHDEF = false ∧ c.regsSameBut d [EV_RECSTAT] ∧
        let st := x.stream
        let x' := { x with flags := if st ∈ r.gaps then 2 else x.flags }
        let lost := d.recorder.log = r.log ∧ mapGet 0 d.recorder.lost st = (mapGet 0 r.lost st + 1) % 2 ^ 64
        let old := fun (y : EvRec) => y.stream = st ∧ y.sev ≤ x.sev
        (r.count st < r.cap st * 65536 → d.recorder.log = r.log ++ [x']) ∧ (r.cap st * 65536 ≤ r.count st → st < 28 → lost) ∧
        (r.cap st * 65536 ≤ r.count st → 28 ≤ st → (∀ y ∈ r.log, ¬old y) → lost) ∧
        (∀ pre y post, r.cap st * 65536 ≤ r.count st → 28 ≤ st → r.log = pre ++ y :: post → (∀ z ∈ pre, ¬old z) → old y → d.recorder.log = pre ++ post ++ [x']))) ∧
    (let ring := c.fld EV_RINGS_APP
     let out := (c.consume ring).pool
     let mine := 64 ≤ ring ∧ ring < 16384 ∧ (c.pool.ring ring).cons = 0x15
     (¬mine ∨ c.head? ring = none → exec .appEvent s = .next s) ∧
     (∀ m, mine → c.head? ring = some m → let e : Event := ⟨bytesAt m.bytes 4 1 % 32, bytesAt m.bytes 5 1 % 8, bytesAt m.bytes 6 2, m.src, (m.bytes.drop 0x2C).take 16, c.fabricNow, c.tqNow⟩
       (m.poisoned = true ∨ 15 < e.stream → Claim.does s .appEvent fun d => d.pool = out ∧ up d EV_BUFLOST_LO ∧ d.recorder = r) ∧
       (m.poisoned = false → e.stream ≤ 15 → r.latest e.stream = none → place e.stream → Claim.does s .appEvent fun d => d.pool = out ∧ d.events = c.events ∧ makes d e))) ∧
    (let ring := c.fld EV_RINGS_RDREQ
     let mine := 64 ≤ ring ∧ ring < 16384 ∧ (c.pool.ring ring).cons = 0x15
     (¬mine ∨ c.head? ring = none → exec .recordRead s = .next s) ∧
     (∀ m, mine → c.head? ring = some m → let n := bytesAt m.bytes 8 2
       let got := r.select (bytesAt m.bytes 0 4) (bytesAt m.bytes 4 4) n
       (m.poisoned = true ∨ n = 0 ∨ 4096 < n → exec .recordRead s = Claim.chipNext s (c.consume ring)) ∧
       (m.poisoned = false → 0 < n → n ≤ 4096 → got.length ≤ n ∧ (∀ x ∈ got, x ∈ r.log ++ r.buf ∧ (bytesAt m.bytes 0 4).testBit x.stream = true ∧ serialGe x.seq (bytesAt m.bytes 4 4) = true) ∧
         (got = [] → exec .recordRead s = Claim.chipNext s (c.consume ring)) ∧
         (∀ x, got = [x] → exec .recordRead s = Claim.chipNext s ((c.consume ring).publishWait (c.fld EV_RINGS1_RDRSP) 0x15 x.bytes))))) ∧
    (Claim.reaches c src.val 0x15 →
      let st := (c.reg (banked EV_STRSEL src.val)).toNat % 32
      let r' := r.setCap st (v.toNat % 256)
      let fits := ((List.range 32).map r'.cap).sum ≤ c.logUnits
      (c.modeLockOpen = false → Claim.does s (.streamCapacityWrite src v) fun d => d = { c with events := d.events } ∧ Claim.event c d 0x1D01 3) ∧
      (c.modeLockOpen = true → st = 31 ∨ ¬fits → exec (.streamCapacityWrite src v) s = .next s) ∧
      (c.modeLockOpen = true → st ≠ 31 → fits → Claim.does s (.streamCapacityWrite src v) fun d => d = { c with recorder := r' } ∧ r'.cap st = v.toNat % 256 ∧
        ∀ o, o ≠ st → r'.cap o = r.cap o) ∧
      (let found := r.alarms.find? fun a => a.rec_.seq == v.toNat
       (found = none ∨ (∃ a, found = some a ∧ a.acked = true) → exec (.mgAlmack src v) s = .next s) ∧
       (∀ a, found = some a → a.acked = false → Claim.does s (.mgAlmack src v) fun d => c.regsSameBut d [MG_ALMSTAT] ∧ Claim.event c d 0x1902 1 ∧
         d.recorder = { r with alarms := r.alarms.map fun y => if y.rec_.seq = v.toNat then { y with acked := true } else y } ∧
         d.fld MG_ALMSTAT_LISTED = r.alarms.length % 512)))

/-- The historian (R100, R126, R731 to R742): without ST's clock nothing happens; a namespace is mounted or refused with its state; a message of a bound ring becomes a file in the shelf's open segment or a new one, or is
counted lost; a segment due is sealed; an old one is freed; an NVMe command ends; the shelf table is loaded, when shelves free what they hold above MAXSEG, or refused. -/
def Obligations.Historian : Prop :=
  ∀ (s : State) (src : Island) (v : Word) (n : Fin 16) (i : NsInfo) (b : Fin 32) (seg : BitVec 32),
    let c := s.chip
    let h := c.hist
    let en := c.flag EV_HCFG_EN = true
    let on := c.islandOn 0x14 = true
    let shows := fun (d : Chip) (st free : Nat) => d.fld (EV_HNS_STATE n.val) = st ∧ d.fld (EV_HNS_FREESEG n.val) = free % 2 ^ 28
    let only := fun (d : Chip) => c.regsSameBut d [EV_HNS n.val]
    (let refused := fun (st : Nat) => Claim.does s (.namespaceMount n i) fun d => shows d st 0 ∧ d.flag (EV_HNS_PORT n.val) = i.port ∧ only d ∧ d.hist.vols = h.vols
     let big := 2 ^ 36 < h.lbas n.val + i.lbas
     (¬en ∨ ¬on ∨ h.vol? n.val ≠ none → exec (.namespaceMount n i) s = .next s) ∧
     (en → on → h.vol? n.val = none →
       (i.error = true → refused 5) ∧ (i.error = false → i.lba4k = false → refused 2) ∧ (i.error = false → i.lba4k = true → big → refused 3) ∧
       (i.error = false → i.lba4k = true → ¬big → (i.volume = none → refused 4) ∧
         ∀ count ident gen fseq order, i.volume = some (count, ident, gen, fseq, order) → Claim.does s (.namespaceMount n i) fun d => shows d 1 (count - i.segs.length) ∧
           d.flag (EV_HNS_PORT n.val) = i.port ∧ (if i.port then d.hist.portUp1 = true else d.hist.portUp0 = true) ∧
           (∃ ops, d.hist.vol? n.val = some ⟨count, ident, gen, fseq, order, i.segs.map fun x => { x with at_ := c.mono }, ops⟩ ∧ ((∀ e ∈ h.shelves, e.mode = 0) → ops = [])) ∧
           mapGet 0 d.hist.sizes n.val = i.lbas ∧ d.counter EV_HLOST_LO = (c.counter EV_HLOST_LO + i.cut) % 2 ^ 64))) ∧
    (let ring := c.fld (EV_HBIND_RING b.val)
     let sh := c.fld (EV_HBIND_SHELF b.val)
     let open_ := en ∧ on ∧ c.flag (EV_HBIND_EN b.val) = true ∧ h.closed = false ∧ 64 ≤ ring ∧ ring < 16384 ∧ (c.pool.ring ring).cons = 0x14
     let lost := Claim.does s (.historianFile b) fun d => d.pool = (c.consume ring).pool ∧ d.hist = h ∧ d.counter EV_HLOST_LO = (c.counter EV_HLOST_LO + 1) % 2 ^ 64
     (¬open_ ∨ c.head? ring = none ∨ h.shelves[sh]? = none → exec (.historianFile b) s = .next s) ∧
     (∀ m e, open_ → c.head? ring = some m → h.shelves[sh]? = some e →
       let full := e.mode = 0 ∧ e.max ≤ (h.sealedOf sh).length
       let f := fun (k : Nat) => (⟨k, c.fld (EV_HBIND_KIND b.val), b.val, m.src, c.fabricNow, c.tqNow, m.bytes⟩ : HFile)
       let size := 64 + (m.bytes.length + 63) / 64 * 64
       (m.poisoned = true ∨ full → lost) ∧
       (m.poisoned = false → ¬full → h.placeFile e.mask sh size = none → exec (.historianFile b) s = .next s) ∧
       (∀ y x, m.poisoned = false → ¬full → h.vols = [(n.val, y)] → e.mask.testBit n.val = true → y.segs = [x] → x.shut = false → x.shelf = sh → segUsed x + size ≤ 0x4000000 →
         Claim.does s (.historianFile b) fun d => d.pool = (c.consume ring).pool ∧ only d ∧
           d.hist.vol? n.val = some { y with segs := [{ x with files := x.files ++ [f y.fseq] }], fseq := y.fseq + 1 }) ∧
       (∀ y, m.poisoned = false → ¬full → h.vols = [(n.val, y)] → e.mask.testBit n.val = true → y.segs = [] → 0 < y.count →
         Claim.does s (.historianFile b) fun d => d.pool = (c.consume ring).pool ∧ only d ∧
           d.hist.vol? n.val = some { y with segs := [⟨0, false, sh, 0, [f y.fseq], c.mono⟩], fseq := y.fseq + 1 }))) ∧
    (h.vol? n.val = none ∨ ¬on → exec (.segmentSeal n seg) s = .next s ∧ exec (.segmentAgeExpiry n seg) s = .next s ∧ exec (.nvmeCommandComplete n) s = .next s) ∧
    (∀ y, on → h.vol? n.val = some y →
      let queues := fun (k : Instr) (z : Volume) => Claim.does s k fun d => only d ∧ d.pool = c.pool ∧ d.events = c.events ∧ d.hist.vol? n.val = some z ∧ shows d 1 (z.count - z.segs.length)
      (∀ x, y.open? seg.toNat = some x →
        let due := 0x4000000 < segUsed x + 64 ∨ x.at_ + c.fld EV_HCFG_SEALS * 1000000000 ≤ c.mono
        (¬due → exec (.segmentSeal n seg) s = .next s) ∧
        (due → (∀ e, h.shelves[x.shelf]? = some e → e.mode = 0) → queues (.segmentSeal n seg) { y with
          segs := y.segs.map fun z => if z.num = seg.toNat then { z with shut := true, order := y.order } else z
          order := (y.order + 1) % 2 ^ 32, ops := y.ops ++ [.flush seg.toNat] })) ∧
      (y.open? seg.toNat = none → exec (.segmentSeal n seg) s = .next s) ∧
      (∀ x e, (y.segs.find? fun z => z.num == seg.toNat && z.shut) = some x → h.shelves[x.shelf]? = some e →
        let aged := e.mode = 2 ∧ segLastFt x + e.age * 86400000000000 < c.fabricNow
        (¬aged → exec (.segmentAgeExpiry n seg) s = .next s) ∧
        (aged → (∀ o ∈ y.ops, o ≠ .free seg.toNat ∧ o ≠ .dealloc seg.toNat) → queues (.segmentAgeExpiry n seg) { y with ops := y.ops ++ [.free seg.toNat] })) ∧
      (∀ g ops, y.ops = .flush g :: ops → queues (.nvmeCommandComplete n) { y with ops := ops ++ [.entry g] }) ∧
      (∀ g ops, y.ops = .free g :: ops → queues (.nvmeCommandComplete n) { y with ops := ops ++ [.dealloc g], segs := y.segs.filter fun z => z.num ≠ g }) ∧
      (∀ g ops, y.ops = .entry g :: ops ∨ y.ops = .dealloc g :: ops ∨ y.ops = .sync :: ops → queues (.nvmeCommandComplete n) { y with ops := ops }) ∧
      (y.ops = [] → queues (.nvmeCommandComplete n) y)) ∧
    (Claim.reaches c src.val 0x14 →
      let a := (c.reg EV_HSHELF).toNat * 64
      let l := (List.range 64).map fun k => shelfAt s.mem (a + 16 * k)
      let good := c.mode ≠ 1 ∧ a + 1024 ≤ dramSize ∧ ∀ e ∈ l, e.mask = 0 ∨ (e.mode ≤ 2 ∧ 1 ≤ e.max ∧ (e.mode = 2 → 1 ≤ e.age))
      Claim.does s (.shelfLoad src v) fun d => (∀ k, k ≠ EV_HCFG → (∀ j, k ≠ EV_HNS j) → d.reg k = c.reg k) ∧ d.flag EV_HCFG_EN = v.getLsbD 31 ∧ d.fld EV_HCFG_SEALS = v.toNat % 65536 ∧
        (v.getLsbD 30 = false → d.hist = h ∧ d.flag EV_HCFG_BAD = c.flag EV_HCFG_BAD) ∧ (v.getLsbD 30 = true → good → d.hist.shelves = l ∧ d.flag EV_HCFG_BAD = false ∧
          (∀ j, (d.hist.vol? j).map Volume.segs = (h.vol? j).map Volume.segs) ∧ ((∀ e ∈ l, e.mode = 0) → d.hist = { h with shelves := l })) ∧
        (v.getLsbD 30 = true → ¬good → d.hist = h ∧ d.flag EV_HCFG_BAD = true))

/-! ## Management commands -/

/-- What a management command leaves that ends with a RESULT and an answer (R757, R758, R761, R763): MG_AUTHSTAT, the response offered to the path's response ring, and
the COUNTER accepted kept with it. -/
def Sys2Proof.Claim.answered (c : Chip) (p : MgmtPath) (m : Msg) (key : Option Nat) (res : Nat) (a : List Byte) (d : Chip) : Prop :=
  d.flag MG_AUTHSTAT_VALID = true ∧ d.fld MG_AUTHSTAT_CMD = cmdCode m.bytes ∧ d.fld MG_AUTHSTAT_RESULT = res ∧ d.fld MG_AUTHSTAT_PATH = pathCode p ∧
    ∃ (e : Chip) (r : List Byte) (to_ : Nat), e.pool = (c.consume (pathRing p)).pool ∧ d.pool = (e.offer (pathReply p) ⟨r, false, to_, none⟩).2.pool ∧
      r.length = 0x40 + a.length + 96 ∧ bytesAt r 0 1 = cmdCode m.bytes % 128 + 128 ∧ bytesAt r 1 1 = res ∧ bytesAt r 2 2 = cmdKey m.bytes ∧ bytesAt r 6 2 = a.length ∧
      bytesAt r 8 8 = d.serial ∧ bytesAt r 0x10 8 = cmdCounter m.bytes ∧ cut r 0x40 a.length = a ∧ (∀ k, key = some k → d.sec.used.head? = some ⟨k, cmdCounter m.bytes, r⟩)

/-- A command that ends with a RESULT and an answer of `a`. -/
def Sys2Proof.Claim.ends (s : State) (i : Instr) (p : MgmtPath) (m : Msg) (key : Option Nat) (res : Nat) (a : List Byte) (P : Chip → Prop) : Prop :=
  Claim.does s i fun d => Claim.answered s.chip p m key res a d ∧ P d

/-- The command at the front of a path's ring has passed the checks of R759, in a module that has not halted (R772). -/
def Sys2Proof.Claim.passed (s : State) (p : MgmtPath) (m : Msg) (code : Nat) (key : Option Nat) : Prop :=
  s.chip.head? (pathRing p) = some m ∧ m.poisoned = false ∧ cmdCode m.bytes = code ∧ s.chip.halted = false ∧ s.chip.checkCommand p m = .run key

/-- Nothing but the response, MG_AUTHSTAT, the COUNTERs and the free values has changed. -/
def Sys2Proof.Claim.quiet (c d : Chip) : Prop :=
  (c.pool.ring 47).drops < 2 ^ 64 - 1 → (c.pool.ring 45).drops < 2 ^ 64 - 1 → (c.pool.ring 49).drops < 2 ^ 64 - 1 →
    d = { c with regs := d.regs, pool := d.pool, sec := { c.sec with used := d.sec.used }, freeCtr := d.freeCtr } ∧ c.regsSameBut d [MG_AUTHSTAT]

/-- The checks of a command (R759 to R761): a ring that is empty, or whose command has another code, is left alone, and every ring of a module that has halted (R772); a poisoned command is discarded; a command is refused at the
first failing check, counted and recorded; one with the COUNTER accepted last is answered with its stored response; a reserved code is refused FORMAT. -/
def Obligations.CommandChecks : Prop :=
  ∀ (s : State) (p : MgmtPath),
    let c := s.chip
    let cmds : List (Instr × Nat) := [(.ident p, 0), (.readreg p, 1), (.writereg p, 2), (.mode p, 3), (.reset p, 4), (.recclear p, 5), (.histfmt p, 6), (.updBegin p, 16),
      (.updData p, 17), (.updEnd p, 18), (.updTrial p, 19), (.updCommit p, 20), (.updAbandon p, 21), (.keyStage p, 32), (.keyCommit p, 33)]
    let all := cmds ++ (((List.range 256).filter fun k => !(cmds.map Prod.snd).contains k).map fun k => (Instr.reservedCmd p, k))
    let sameElse := fun (d : Chip) => d.flash = c.flash ∧ d.recorder = c.recorder ∧ d.ctl = c.ctl ∧ d.hist = c.hist ∧ d.sec.anchor = c.sec.anchor ∧ d.sec.upd = c.sec.upd ∧ d.mode = c.mode
    (c.head? (pathRing p) = none ∨ c.halted = true → ∀ x ∈ all, exec x.1 s = .next s) ∧
    (∀ m, c.head? (pathRing p) = some m → let b := m.bytes
      (∀ x ∈ cmds, cmdCode b ≠ x.2 → exec x.1 s = .next s) ∧
      (∀ x ∈ cmds, cmdCode b = x.2 → exec (.reservedCmd p) s = .next s) ∧
      (∀ x ∈ all, cmdCode b = x.2 → c.halted = false → m.poisoned = true → exec x.1 s = Claim.chipNext s (c.consume (pathRing p))) ∧
      (∀ x ∈ all, ∀ step res key, cmdCode b = x.2 → c.halted = false → m.poisoned = false → c.checkCommand p m = .refused step res key → c.counter MG_AUTHREF_LO < 2 ^ 64 - 1 →
        (c.pool.ring (pathReply p)).drops < 2 ^ 64 - 1 → Claim.ends s x.1 p m key res [] fun d => sameElse d ∧
          d.counter MG_AUTHREF_LO = c.counter MG_AUTHREF_LO + (if step ≤ 8 then 1 else 0) ∧ (2 ≤ step ∧ step ≤ 8 → Claim.event c d 0x1D07 4) ∧ (step < 2 ∨ 8 < step → d.events = c.events)) ∧
      (∀ x ∈ all, ∀ r, cmdCode b = x.2 → c.halted = false → m.poisoned = false → c.checkCommand p m = .again r → Claim.does s x.1 fun d => sameElse d ∧ d.sec = c.sec ∧
        d.fld MG_AUTHSTAT_CMD = cmdCode b ∧ d.fld MG_AUTHSTAT_RESULT = bytesAt r 1 1 ∧
        ∃ (e : Chip) (to_ : Nat), e.pool = (c.consume (pathRing p)).pool ∧ d.pool = (e.offer (pathReply p) ⟨r, false, to_, none⟩).2.pool)) ∧
    (∀ (m : Msg), let b := m.bytes
      let tells := fun (e : CheckEnd) => c.checkCommand p m = e
      let signed := fun (e : KeyEntry) => sigOk (pubFull e.pub) (b.take (0x40 + cmdLen b)) (cut b (0x40 + cmdLen b) 96) = true
      (cmdFormOk p b = false → tells (.refused 1 1 none)) ∧
      (cmdCode b ∉ cmds.map Prod.snd ∨ 1280 < cmdLen b ∨ b.length ≠ 160 + cmdLen b → cmdFormOk p b = false) ∧
      (cmdFormOk p b = true → cmdCode b = 0 → tells (if cmdModeOk b c.mode = true then .run none else .refused 9 9 none)) ∧
      (cmdFormOk p b = true → cmdCode b ≠ 0 →
        (cmdSerial b ≠ c.serial → tells (.refused 2 2 none)) ∧
        (cmdSerial b = c.serial → cmdEpoch b ≠ c.fld FX_STATION_EPOCH → tells (.refused 3 3 none)) ∧
        (cmdSerial b = c.serial → cmdEpoch b = c.fld FX_STATION_EPOCH → c.unsignedOk b = false →
          (c.cmdEntry p m = none → tells (.refused 4 4 none)) ∧
          (∀ e, c.cmdEntry p m = some e → (¬signed e → tells (.refused 5 5 none)) ∧
            (signed e →
              (∀ u, (c.sec.used.find? fun u => u.key == e.id) = some u → cmdCounter b = u.counter → tells (.again u.response)) ∧
              (∀ u, (c.sec.used.find? fun u => u.key == e.id) = some u → cmdCounter b < u.counter → tells (.refused 6 6 none)) ∧
              ((c.sec.used.find? fun u => u.key == e.id) = none → 0 < cmdCounter b →
                ((∃ r ∈ cmdRoles b, e.roles.testBit r = false) → tells (.refused 7 7 (some e.id))) ∧
                ((∀ r ∈ cmdRoles b, e.roles.testBit r = true) →
                  (cmdKeyOk b c.keyPos = false → tells (.refused 8 8 (some e.id))) ∧
                  (cmdKeyOk b c.keyPos = true → cmdModeOk b c.mode = false → tells (.refused 9 9 (some e.id))) ∧
                  (cmdKeyOk b c.keyPos = true → cmdModeOk b c.mode = true → tells (.run (some e.id))))))))))

/-- IDENT, READREG, WRITEREG, MODE, RESET, RECCLEAR and HISTFMT (R83, R113, R727 to R729, R733, R761, R762): what each does once it has passed its checks. MODE makes a host request, or none where
eight wait; RESET answers, then resets the module or its cores. -/
def Obligations.QueriesAndClears : Prop :=
  ∀ (s : State) (p : MgmtPath) (m : Msg) (key : Option Nat),
    let c := s.chip
    let b := m.bytes
    let r := c.recorder
    let ends := fun (i : Instr) (res : Nat) (a : List Byte) (P : Chip → Prop) => Claim.ends s i p m key res a P
    let word := cmdArg b / 65536 % 32 * 0x100000 + cmdArg b % 65536
    (Claim.passed s p m 0 key → ends (.ident p) 0 ((Config.identityKey ++ List.replicate 97 0#8).take 97 ++ toBytes 4 (c.reg MG_KSGEN).toNat ++
      toBytes 4 (c.reg MG_BOOTSTAT).toNat ++ toBytes 4 (c.reg MG_ROLLBACK).toNat) fun d => Claim.quiet c d) ∧
    (Claim.passed s p m 1 key → let n := Nat.max 1 (cmdArg b / 2 ^ 24 % 256)
      (64 < n ∨ word % 4 ≠ 0 ∨ c.islandOn (word / 0x100000) = false → ends (.readreg p) 1 [] fun d => Claim.quiet c d) ∧
      (∀ w, n = 1 → c.regsOk [word] 0 = true → s.readReg 0x15 word = (w, s) → ends (.readreg p) 0 (toBytes 4 w.toNat) fun d => Claim.quiet c d)) ∧
    (Claim.passed s p m 2 key →
      (cmdLen b % 4 ≠ 0 ∨ cmdLen b = 0 ∨ 256 < cmdLen b → ends (.writereg p) 1 [] fun d => Claim.quiet c d) ∧
      (∀ c1, cmdLen b = 4 → c.regsOk [word] 4 = true → s.writeReg 0x15 word (BitVec.ofNat 32 (bytesAt b 0x40 4)) = { s with chip := c1 } → c1.pool = c.pool →
        ends (.writereg p) 0 [] fun d => Claim.quiet c1 d)) ∧
    (Claim.passed s p m 3 key → ends (.mode p) 0 [] fun d => d.mode = c.mode ∧ d.recorder = r ∧ d.flash = c.flash ∧
      d.ctl = (if c.ctl.queue.length < 8 then { c.ctl with queue := c.ctl.queue ++ [⟨.host (cmdArg b % 8), 0⟩] } else c.ctl)) ∧
    (Claim.passed s p m 4 key → ∃ d, Claim.answered c p m key 0 [] d ∧ Claim.quiet c d ∧
      exec (.reset p) s = .next (if (cmdArg b).testBit 0 then ({ s with chip := d } : State).coreReset 4 else ({ s with chip := d } : State).systemReset 4)) ∧
    (Claim.passed s p m 5 key →
      let mask := cmdArg b % 2 ^ 32
      let tells := Instr.recclear p
      let shows := fun (d : Chip) (x : Nat) => d.flag EV_CLRSTAT_VALID = true ∧ d.fld EV_CLRSTAT_RESULT = x
      let same := fun (d : Chip) => d.recorder = r ∧ d.sec.anchor = c.sec.anchor ∧ d.flash = c.flash
      (mask.testBit 31 = true → ends tells 1 [] fun d => shows d 3 ∧ same d) ∧
      (mask.testBit 31 = false → r.journalOpen = false → ends tells 0x0B [] fun d => shows d 4 ∧ same d) ∧
      (mask.testBit 31 = false → r.journalOpen = true →
        (∀ q t, c.sec.keyWait = some (q, t) →
          (q ≠ pathCode p → ends tells 0x10 [] fun d => same d ∧ d.sec.keyWait = c.sec.keyWait) ∧
          (q = pathCode p → c.energy < 10350 → c.now < t + 1000000000 → exec tells s = .next s) ∧
          (q = pathCode p → c.energy < 10350 → t + 1000000000 ≤ c.now → ends tells 0x0A [] fun d => shows d 4 ∧ same d ∧ d.sec.keyWait = none)) ∧
        (c.sec.keyWait = none → c.energy < 10350 → Claim.does s tells fun d => d.pool = c.pool ∧ same d ∧ d.sec = { c.sec with keyWait := some (pathCode p, c.now) } ∧
          c.regsSameBut d [PW_HOLDUP] ∧ d.fld PW_HOLDUP_DEFERRED = Nat.min 255 (c.fld PW_HOLDUP_DEFERRED + 1)) ∧
        (c.sec.keyWait = none → 10350 ≤ c.energy → let seq := (c.reg EV_NEXTSEQ).toNat
          ends tells 0 [] fun d => shows d 0 ∧ (∃ j ∈ d.recorder.log, j.seq = seq ∧ j.code = 0x1F01 ∧ j.stream = 31 ∧ j.sev = 7) ∧
            (∀ x ∈ d.recorder.log ++ d.recorder.buf, mask.testBit x.stream = true → serialGe x.seq seq = true) ∧
            (∀ x ∈ r.log, mask.testBit x.stream = false → x.stream ≠ 31 → x ∈ d.recorder.log)))) ∧
    (Claim.passed s p m 6 key → let n := cmdArg b
      (16 ≤ n ∨ c.fld (EV_HNS_STATE n) ≠ 4 → ends (.histfmt p) 1 [] fun d => Claim.quiet c d) ∧
      (n < 16 → c.fld (EV_HNS_STATE n) = 4 → ends (.histfmt p) 0 [] fun d => d.fld (EV_HNS_STATE n) = 1 ∧ d.recorder = r ∧ d.flash = c.flash ∧
        ∃ ident, ident.length = 16 ∧ d.hist.vol? n = some ⟨volumeSegments (mapGet 0 c.hist.sizes n), ident, 1, 0, 0, [], []⟩))

/-- Updates and anti-rollback (R773, R778 to R780): an update is begun, fed, ended, tried, committed and abandoned, each refused in its order; the fuses advance
by groups of at most 8 towards the target. -/
def Obligations.Updates : Prop :=
  ∀ (s : State) (p : MgmtPath) (m : Msg) (key : Option Nat),
    let c := s.chip
    let b := m.bytes
    let x := c.sec
    let ends := fun (i : Instr) (res : Nat) (a : List Byte) (P : Chip → Prop) => Claim.ends s i p m key res a P
    let busy := ∃ q t, x.keyWait = some (q, t) ∧ q ≠ pathCode p
    let admits := fun (need : Nat) => need ≤ c.energy ∧ c.power.failAt = none
    let quiet := fun (d : Chip) => Claim.quiet c d
    let page := fun (u : Update) => (1024 + u.next - u.tail.length) / 16384
    let units := fun (u : Update) => if u.kind = 1 then 8 else 120
    (Claim.passed s p m 16 key → let kind := cmdArg b % 2
      (cmdLen b ≠ 1024 → ends (.updBegin p) 1 [] quiet) ∧
      (cmdLen b = 1024 → busy ∨ c.updTarget kind = none → ends (.updBegin p) 0x10 [] quiet) ∧
      (∀ u n, cmdLen b = 1024 → ¬busy → c.updTarget kind = some (u, n) →
        ((∃ i, i < n ∧ (c.flash.unit (u + i)).gone = true) → ends (.updBegin p) 0x0F [4#8] quiet) ∧
        ((∀ i, i < n → (c.flash.unit (u + i)).gone = false) → ¬admits 1303500 → exec (.updBegin p) s = .next s) ∧
        ((∀ i, i < n → (c.flash.unit (u + i)).gone = false) → admits 1303500 → ends (.updBegin p) 0 [] fun d => d.sec.upd = some ⟨kind, u, 0, cmdPayload b⟩ ∧
          d.sec.anchor = x.anchor ∧ d.sec.cand = (x.cand && kind == 1) ∧ d.sec.mark = (x.mark && kind == 0) ∧ d.flash.queues = c.flash.queues ∧
          ((∀ i, i < n → (c.flash.unit (u + i)).started + 1 < 30000) → ∀ i, i < n → ∀ j, j < 1024 → d.flash.page (c.flash.phys (u + i) * 1024 + j) = .erased)))) ∧
    (Claim.passed s p m 17 key → (x.upd = none → ends (.updData p) 0x11 [] quiet) ∧
      (∀ u, x.upd = some u → let bs := u.tail ++ cmdPayload b
        (busy → ends (.updData p) 0x10 [] quiet) ∧ (¬busy → cmdArg b ≠ u.next → ends (.updData p) 1 [] quiet) ∧
        (¬busy → cmdArg b = u.next → units u * 1024 < page u + (bs.length + 16383) / 16384 → ends (.updData p) 0x0F [6#8] quiet) ∧
        (¬busy → cmdArg b = u.next → page u + (bs.length + 16383) / 16384 ≤ units u * 1024 →
          let upd := fun (d : Chip) (tail : List Byte) => d.sec.upd = some { u with next := u.next + cmdLen b, tail := tail } ∧ d.sec.anchor = x.anchor
          (bs.length < 16384 → ends (.updData p) 0 [] fun d => upd d bs ∧ d.flash = c.flash) ∧
          (16384 ≤ bs.length → ¬admits 1243125 → exec (.updData p) s = .next s) ∧
          (16384 ≤ bs.length → bs.length < 32768 → admits 1243125 → ends (.updData p) 0 [] fun d => upd d (bs.drop 16384) ∧
            let at_ := c.flash.pageNo (u.unit + page u / 1024) (page u % 1024)
            d.flash.page at_ = .bytes (cellsOf 0 (bs.take 16384)) ∧ ∀ k, k ≠ at_ → d.flash.page k = c.flash.page k)))) ∧
    (Claim.passed s p m 18 key → (x.upd = none → ends (.updEnd p) 0x11 [] quiet) ∧
      (∀ u, x.upd = some u → (busy → ends (.updEnd p) 0x10 [] quiet) ∧ (¬busy → u.tail ≠ [] → ¬admits 1243125 → exec (.updEnd p) s = .next s) ∧
        (¬busy → u.tail = [] → let res := (c.checkStored u.unit (units u) (u.kind + 1)).1
          ends (.updEnd p) res [] fun d => d.sec.upd = none ∧ d.sec.cand = (x.cand || (res == 0 && u.kind == 0)) ∧ d.sec.mark = (x.mark || (res == 0 && u.kind == 1)) ∧ d.flash = c.flash))) ∧
    (Claim.passed s p m 19 key → let arg := cmdArg b % 4
      (arg = 0 → ends (.updTrial p) 1 [] quiet) ∧
      ((arg % 2 = 1 ∧ x.cand = false) ∨ (2 ≤ arg ∧ x.mark = false) → ends (.updTrial p) 0x11 [] quiet) ∧
      (arg ≠ 0 → (arg % 2 = 1 → x.cand = true) → (2 ≤ arg → x.mark = true) → ∃ d : Chip, exec (.updTrial p) s = .next ({ s with chip := d }.systemReset 4) ∧
        Claim.answered c p m key 0 [] d ∧ d.sec.trial = arg ∧ (c.mode = 1 → d.sec.anchor.attempts = 0) ∧ (c.mode ≠ 1 → d.sec.anchor = x.anchor))) ∧
    (Claim.passed s p m 20 key → let tells := Instr.updCommit p
      let trial := c.flag MG_BOOTSTAT_TRIAL = true
      let unsaved := c.flag MG_BOOTSTAT_MIGRATED = true ∧ x.migSaved = false
      let log := x.anchor.bootLog
      (¬trial → ends tells 0x11 [] quiet) ∧ (trial → unsaved → ends tells 0x12 [] quiet) ∧ (trial → ¬unsaved → 4096 ≤ log.length → ends tells 0x0B [] quiet) ∧
      (trial → ¬unsaved → log.length < 4096 → x.keyWait = none →
        (¬admits 1213800 → Claim.does s tells fun d => d.pool = c.pool ∧ d.sec = { x with keyWait := some (pathCode p, c.now) } ∧ c.regsSameBut d [PW_HOLDUP]) ∧
        (admits 1213800 → ends tells 0 [] fun d => d.flag MG_BOOTSTAT_TRIAL = false ∧ d.flash = c.flash ∧ d.sec.anchor.keyLog = x.anchor.keyLog ∧
          let src := c.fld MG_BOOTSTAT_SRC
          let slot := if src < 2 then src else c.committedSlot
          let half := if c.flag MG_BOOTSTAT_CHFWNEW = true then 1 - x.anchor.half else x.anchor.half
          let svnt := if (cmdArg b).testBit 0 = true then Nat.min (c.fld MG_BOOTSTAT_SVN) 256 else x.anchor.fuses
          ∃ n, n < 4096 ∧ d.sec.anchor.bootLog = log ++ [(commitWord (slot * 2 ^ 23 + c.fld MG_BOOTSTAT_CFGAREA * 2 ^ 22 + half * 2 ^ 21 + svnt * 2 ^ 12 + n), true)] ∧
            (∀ w, latestWord log = some w → n = (w.toNat % 4096 + 1) % 4096)))) ∧
    (Claim.passed s p m 21 key → ends (.updAbandon p) 0 [] fun d => d.sec.cand = false ∧ d.sec.mark = false ∧ d.sec.anchor = x.anchor ∧ d.sec.upd = x.upd ∧ d.flash = c.flash ∧
      d.flag MG_BOOTSTAT_CANDIDATE = false) ∧
    (let goal := Nat.min x.anchor.svnt 256
     (goal ≤ x.anchor.fuses ∨ ¬admits 1213800 ∨ c.mode ≤ 1 → exec .rollbackAdvance s = .next s) ∧
     (x.anchor.fuses < goal → admits 1213800 → 2 ≤ c.mode → Claim.does s .rollbackAdvance fun d =>
       d.sec = { x with anchor := { x.anchor with fuses := Nat.min goal (x.anchor.fuses + 8) } } ∧ c.regsSameBut d [MG_ROLLBACK] ∧
         d.fld MG_ROLLBACK_COUNT = Nat.min goal (x.anchor.fuses + 8)))

/-- Keys (R752 to R754, R756): a key set comes in parts of 1,280 bytes; complete, it is refused for its form, or written to the inactive slot once the energy covers it; KEY-COMMIT makes
a staged set the active one and lets every key's COUNTER start afresh. -/
def Obligations.KeySets : Prop :=
  ∀ (s : State) (p : MgmtPath) (m : Msg) (key : Option Nat),
    let c := s.chip
    let b := m.bytes
    let x := c.sec
    let a := x.anchor
    let ends := fun (i : Instr) (res : Nat) (y : List Byte) (P : Chip → Prop) => Claim.ends s i p m key res y P
    let busy := ∃ q t, x.keyWait = some (q, t) ∧ q ≠ pathCode p
    let admits := 1213800 ≤ c.energy ∧ c.power.failAt = none
    let intoB := c.flag MG_KSSTAT_EMPTY = false ∧ c.flag MG_KSSTAT_ACTSLOT = false
    let waits := fun (i : Instr) => Claim.does s i fun d => d.pool = c.pool ∧ d.sec = { x with keyWait := some (pathCode p, c.now) } ∧ c.regsSameBut d [PW_HOLDUP]
    (Claim.passed s p m 32 key → let tells := Instr.keyStage p
      let had := if cmdArg b = 0 then [] else x.stage.getD []
      let whole := had ++ cmdPayload b
      let part := cmdArg b = had.length ∧ cmdLen b = Nat.min 1280 (8192 - cmdArg b)
      let formed := setShape whole = true ∧ firstAdmin (setEntries whole) ≠ none
      (busy → ends tells 0x10 [] fun d => Claim.quiet c d) ∧ (¬busy → ¬part → ends tells 1 [] fun d => Claim.quiet c d) ∧
      (¬busy → part → whole.length < 8192 → ends tells 0 [] fun d => d.sec = { x with stage := some whole, used := d.sec.used }) ∧
      (¬busy → part → 8192 ≤ whole.length → ¬formed → ends tells 1 [] fun d => d.sec = { x with stage := none, used := d.sec.used }) ∧
      (¬busy → part → 8192 ≤ whole.length → formed → x.keyWait = none →
        (¬admits → waits tells) ∧
        (admits → let slots := fun (d : Chip) (y : List Byte) => d.sec.stage = none ∧ d.sec.anchor.keyLog = a.keyLog ∧
            (intoB → d.sec.anchor.slotB = y ∧ d.sec.anchor.slotA = a.slotA) ∧ (¬intoB → d.sec.anchor.slotA = y ∧ d.sec.anchor.slotB = a.slotB)
          (c.stageOk whole = true → ends tells 0 [] fun d => slots d (whole.take 0x1FFC ++ toBytes 4 0x5A5A)) ∧
          (c.stageOk whole = false → ∃ y, ends tells 0x0F [y] fun d => slots d (whole.take 0x1FFC ++ List.replicate 4 0xFF#8))))) ∧
    (Claim.passed s p m 33 key → let tells := Instr.keyCommit p
      (busy → ends tells 0x10 [] fun d => Claim.quiet c d) ∧ (¬busy → c.isStaged = false → ends tells 0x11 [] fun d => Claim.quiet c d) ∧
      (¬busy → c.isStaged = true → 4096 ≤ a.keyLog.length → ends tells 0x0B [] fun d => Claim.quiet c d) ∧
      (c.isStaged = true → a.keyLog.length < 4096 → x.keyWait = none →
        (¬admits → waits tells) ∧
        (admits → let gen := setGen (a.slot (decide intoB))
          Claim.does s tells fun d => (∃ d0, Claim.answered c p m key 0 [] d0 ∧ d = { d0 with sec := { d0.sec with used := [] } }) ∧
            d.sec.anchor = { a with keyLog := a.keyLog ++ [(commitWord ((if intoB then 2 ^ 23 else 0) + gen % 2 ^ 23), true)] } ∧
            d.flag MG_KSSTAT_EMPTY = false ∧ (d.flag MG_KSSTAT_ACTSLOT = true ↔ intoB) ∧ (d.reg MG_KSGEN).toNat = gen % 2 ^ 32)))

/-! ## Self-test and the service port -/

/-- Self-test (R783 to R789, R793 to R797): a slice runs where its island has time for it (an LE that keeps no frames has half of its time, the model's reading, log entry 78); its signature agrees, differs and is repeated, or differs again and the test is FAILED;
a test without a pass in time is shown; a FATAL failure ends in a system reset; hold-up health and crack loops are shown with their events. -/
def Obligations.SelfTests : Prop :=
  ∀ (s : State) (t : Fin 32) (sig : Word) (esr cap : BitVec 13) (die : Bool) (groups : BitVec 8),
    let c := s.chip
    let x := c.test
    let up := fun (d : Chip) (k : Nat) => d.counter k = (c.counter k + 1) % 2 ^ 64
    let island := testIsland t.val
    let ns := if 1 ≤ t.val ∧ t.val ≤ 8 then 40000 else if t.val = 9 then 2000 else if t.val = 10 then 500 else if t.val = 11 then 1000 else 0
    let able := 1 ≤ t.val ∧ t.val ≤ 0x13 ∧ c.flag MG_STCFG_ENABLE = true ∧ c.mode ≠ 0 ∧ c.mode ≠ 1 ∧ c.islandOn island = true ∧ t.val ∉ x.granted ∧ (t.val = 10 → c.pool.free ≠ 0)
    let running := c.mode = 4 ∨ c.mode = 5 ∨ c.mode = 6
    let rests := ∀ y, (x.spent.find? fun y => y.1 == island) = some y → y.2.1 + 2 * ns ≤ c.mono
    let none_ := exec (.slice t) s = .next s
    let granted := fun (from_ : Nat) => Claim.does s (.slice t) fun d => up d MG_STSLICES_LO ∧ d.chans = c.chans ∧ d.pool = c.pool ∧
      d.test = { x with granted := t.val :: x.granted, spent := (island, from_, x.used island from_ + Nat.max 1 (ns / 1000)) :: x.spent.filter fun y => y.1 ≠ island }
    (¬able → none_) ∧
    (able → running → t.val ≤ 8 →
      let last := (s.coreBoundaries island).1
      let fits := c.flag (MG_DISP_IDLE island) = true ∧ (∀ b, (s.coreBoundaries island).2 = some b → c.mono + 45000 ≤ b) ∧ x.used island last + 40 ≤ c.fld MG_STCFG_BUDGET
      (fits → granted last) ∧ (¬fits → none_)) ∧
    (able → running → t.val = 9 → c.loop.epoch = none → (rests → granted c.mono) ∧ (¬rests → none_)) ∧
    (∀ e, able → running → t.val = 9 → c.loop.epoch = some e →
      let next := e + c.counter LE_FRAME_LO * 31250
      let fits := c.loop.due = [] ∧ c.mono + 3000 ≤ next ∧ x.used island next = 0
      (fits → granted next) ∧ (¬fits → none_)) ∧
    (able → running → 10 ≤ t.val → granted c.mono) ∧
    (able → ¬running → let idle := (t.val ≤ 8 → c.flag (MG_DISP_IDLE island) = true) ∧ (t.val = 9 → c.loop.due = [])
      (idle → rests → granted c.mono) ∧ (¬idle ∨ ¬rests → none_)) ∧
    (let n := (assocGet x.done t.val).getD 0
     let tells := Instr.sliceResult t sig []
     let taken := { x with granted := x.granted.filter (· ≠ t.val), again := x.again.filter (· ≠ t.val) }
     let good := sig = Config.sliceSignature t.val n
     (t.val ∉ x.granted → ∀ lines, exec (.sliceResult t sig lines) s = .next s) ∧
     (t.val ∈ x.granted →
       (good → n + 1 < slicesOf t.val → exec tells s = Claim.chipNext s { c with test := { taken with done := assocSet x.done t.val (n + 1) } }) ∧
       (good → slicesOf t.val ≤ n + 1 → Claim.does s tells fun d => d.test = { taken with done := assocSet x.done t.val 0, passAt := assocSet x.passAt t.val c.mono } ∧
         (d.reg MG_STSTARVE).getLsbD t.val = false ∧ c.regsSameBut d [MG_STSTARVE, MG_STSTAT]) ∧
       (¬good → t.val ∉ x.again → Claim.does s tells fun d => up d MG_STTRANS_LO ∧ d.red.faults = c.red.faults + 1 ∧ d.red.evOwn = true ∧ d.test = { taken with again := t.val :: taken.again } ∧
         (c.counter MG_STTRANS_LO < 2 ^ 64 - 1 → Claim.event c d 0x1501 3)) ∧
       (¬good → t.val ∈ x.again → Claim.does s tells fun d => (d.reg MG_STFAILED).getLsbD t.val = true ∧ d.flag MG_STSTAT_ANYFAIL = true ∧ Claim.event c d 0x1502 6 ∧
         c.regsSameBut d [MG_STFAILED, MG_STSTAT] ∧ d.red.faults = c.red.faults + 1 ∧
         (fatalTest t.val = true → d.ctl = { c.ctl with fatal := true } ∧ 
           d.test = { taken with failAt := some (x.failAt.getD c.mono), capSaved := d.test.capSaved }) ∧
         (fatalTest t.val = false → d.ctl = c.ctl ∧ d.test = taken ∧ (t.val = 10 → d.pool.retired = c.pool.retired + 1))))) ∧
    (let late := ∀ sec, passTarget t.val = some sec → (assocGet x.passAt t.val).getD 0 + sec * 1000000000 ≤ c.mono
     (passTarget t.val = none ∨ (c.reg MG_STSTARVE).getLsbD t.val = true ∨ ¬late → exec (.testStarved t) s = .next s) ∧
     (passTarget t.val ≠ none → (c.reg MG_STSTARVE).getLsbD t.val = false → late → Claim.does s (.testStarved t) fun d => (d.reg MG_STSTARVE).getLsbD t.val = true ∧
       d.flag MG_STSTAT_ANYSTARVE = true ∧ c.regsSameBut d [MG_STSTARVE, MG_STSTAT] ∧ Claim.event c d 0x1503 3 ∧ d.test = x)) ∧
    (let due := c.ctl.fatal = false ∧ c.ctl.trans = none ∧ c.ctl.doneAt + 10000000 ≤ c.mono ∧ ∃ y, x.failAt = some y ∧ y + 10000000 ≤ c.mono
     (due → exec .selfTestReset s = .next (s.systemReset 5)) ∧ (¬due → exec .selfTestReset s = .next s)) ∧
    exec .lockstepMismatch s = .next (s.systemReset 5) ∧
    (let ready := c.flag PW_HOLDUP_CHARGING = false ∧ c.power.failAt = none ∧ ∀ y, x.huAt = some y → y + 600000000000 ≤ c.mono
     let warn := cap.toNat < 800 ∨ 2000 < esr.toNat
     let alarm := cap.toNat < 600 ∨ 4000 < esr.toNat
     (¬ready → exec (.holdupMeasurement esr cap) s = .next s) ∧
     (ready → Claim.does s (.holdupMeasurement esr cap) fun d => d.fld PW_HUHEALTH_ESR = esr.toNat ∧ d.fld PW_HUHEALTH_CAP = cap.toNat ∧ d.flag PW_HUHEALTH_MEASURED = true ∧
       (d.flag PW_HUHEALTH_WARN = true ↔ warn) ∧ (d.flag PW_HUHEALTH_ALARM = true ↔ alarm) ∧ d.test.cap = some cap.toNat ∧ d.test.huAt = some c.mono ∧
       c.regsSameBut d [PW_HUHEALTH, MG_STSTARVE, MG_STSTAT] ∧
       (¬warn → d.events = c.events) ∧ (warn → ¬alarm → c.flag PW_HUHEALTH_WARN = false → Claim.event c d 0x1E0A 3) ∧
       (alarm → c.flag PW_HUHEALTH_WARN = true → c.flag PW_HUHEALTH_ALARM = false → Claim.event c d 0x1E0B 5))) ∧
    (let ready := ∀ y, x.crackAt = some y → y + 1000000000 ≤ c.mono
     (¬ready → exec (.crackLoopCheck die groups) s = .next s) ∧
     (ready → Claim.does s (.crackLoopCheck die groups) fun d => d.test.crackAt = some c.mono ∧ c.regsSameBut d [MG_CRACK, MG_STFAILED, MG_STSTARVE, MG_STSTAT] ∧
       (∀ g, g < 8 → ((d.reg MG_CRACK).getLsbD g = true ↔ (c.reg MG_CRACK).getLsbD g = true ∨ groups.getLsbD g = true)) ∧
       (d.flag MG_CRACK_DIE = true ↔ c.flag MG_CRACK_DIE = true ∨ die = true) ∧
       (die = false → d.ctl = c.ctl ∧ (d.reg MG_STFAILED) = c.reg MG_STFAILED ∧ (groups = 0#8 → d.events = c.events)) ∧
       (die = true → x.failAt = none → d.ctl = { c.ctl with fatal := true } ∧ (d.reg MG_STFAILED).getLsbD 0x16 = true ∧ d.test.failAt = some c.mono)))

/-- The service port (R802 to R809): light blinds it while it does not send, and 5 or 20 ms after the last saturation it hears again; a good request that it hears is executed and its response
starts 1 ms later; a repetition gets the stored response; an unknown service is answered with code 0x3F. -/
def Obligations.ServicePort : Prop :=
  ∀ (s : State) (f : List Byte),
    let c := s.chip
    let x := c.mouth
    let lasts := fun (y : List Byte) => y.length * 8 * 1000000000 / 57600
    let started := match x.reply with
      | some (t, r) => if c.mono < t then c else { c with sent := mapSet [] c.sent 30 r, mouth := { x with reply := none, sendTo := t + lasts r } }
      | none => c
    let p := irPayload f
    let len := bytesAt f 3 1
    let service := bytesAt f 2 1 % 64
    let seq := bytesAt f 2 1 / 64 % 2
    let rows : List (Nat × Instr) := [(1, .status f), (2, .recread f), (3, .almlist f), (4, .almack f)]
    let other := service ∉ [1, 2, 3, 4]
    let hears := c.flag MG_IRSTAT_BLIND = false ∧ started.mouth.sendTo + lasts f ≤ c.mono ∧ ∀ t, x.satAt = some t → t + lasts f ≤ c.mono
    let good := bytesAt f 0 2 = 0xA55A ∧ bytesAt f 2 1 < 128 ∧ len ≤ 128 ∧ f.length = 6 + len ∧ bytesAt f (4 + len) 2 = crc16 0xFFFF (cut f 2 (2 + len)) ∧
      (service = 1 → len = 0) ∧ (service = 2 → len = 8) ∧ (service = 3 → len = 2) ∧ (service = 4 → len = 4)
    let new := ∀ y, x.last = some y → ¬(y.1 = seq ∧ y.2.1 = service)
    let due := c.mono + 1000000
    let replies := fun (i : Instr) (code : Nat) (P : List Byte → Chip → Prop) => Claim.does s i fun d => ∃ body,
      d.mouth = { started.mouth with goodAt := some c.mono, reply := some (due, irFrame (128 + seq * 64 + code) body), last := some (seq, service, irFrame (128 + seq * 64 + code) body) } ∧ P body d
    let receives := c.flag MG_IRSTAT_BLIND = true ∨ started.mouth.sendTo ≤ c.mono
    (¬receives → exec .irBlind s = Claim.chipNext s started) ∧
    (receives → Claim.does s .irBlind fun d => d.flag MG_IRSTAT_BLIND = true ∧ d.mouth = { started.mouth with satAt := some c.mono, reply := none } ∧ d.sent = started.sent ∧
      (c.flag MG_IRSTAT_BLIND = true → d.regs = c.regs ∧ d.events = c.events) ∧
      (c.flag MG_IRSTAT_BLIND = false → d.counter MG_IRBLIND_LO = (c.counter MG_IRBLIND_LO + 1) % 2 ^ 64 ∧ (c.counter MG_IRBLIND_LO < 2 ^ 64 - 1 → Claim.event c d 0x1901 1))) ∧
    (let rearm := if signed 11 (c.fld PW_THERM_TEMP) < -120 then 20000000 else 5000000
     (x.satAt = none ∨ c.flag MG_IRSTAT_BLIND = false → exec .irRearm s = .next s) ∧
     (∀ t, x.satAt = some t → c.flag MG_IRSTAT_BLIND = true → (c.mono < t + rearm → exec .irRearm s = .next s) ∧
       (t + rearm ≤ c.mono → Claim.does s .irRearm fun d => d.flag MG_IRSTAT_BLIND = false ∧ c.regsSameBut d [MG_IRSTAT] ∧ d = { c with regs := d.regs, mouth := { x with satAt := some c.mono } }))) ∧
    (¬good ∨ ¬hears → (∀ y ∈ rows, exec y.2 s = .next s) ∧ exec (.unknownService f) s = .next s) ∧
    (∀ y ∈ rows, service ≠ y.1 → exec y.2 s = .next s) ∧
    (¬other → exec (.unknownService f) s = .next s) ∧
    (good → hears →
      (∀ r, x.last = some (seq, service, r) → (∀ y ∈ rows, service = y.1 → exec y.2 s = Claim.chipNext s { started with mouth := { started.mouth with goodAt := some c.mono, reply := some (due, r) } }) ∧
        (other → exec (.unknownService f) s = Claim.chipNext s { started with mouth := { started.mouth with goodAt := some c.mono, reply := some (due, r) } })) ∧
      (new →
        (service = 1 → replies (.status f) 1 fun body d => body.length = 76 ∧ d.regs = c.regs ∧ d.recorder = c.recorder ∧
          (c.islandOn 0x15 = true → c.mode ≠ 1 → bytesAt body 0 4 = (s.wordAt 0x15 MG_MODE).toNat)) ∧
        (service = 2 → replies (.recread f) 2 fun body d => d.regs = c.regs ∧ d.recorder = c.recorder ∧
          body = ((c.recorder.select (bytesAt p 4 4) (bytesAt p 0 4) 2).map EvRec.bytes).flatten) ∧
        (service = 3 → replies (.almlist f) 3 fun body d => d.regs = c.regs ∧ d.recorder = c.recorder ∧
          body = (((c.recorder.alarms.drop (bytesAt p 0 2)).take 8).map fun a => toBytes 4 a.rec_.seq ++ toBytes 2 a.rec_.code ++ toBytes 1 a.rec_.sev ++
            toBytes 1 (if a.acked = true then 1 else 0) ++ toBytes 8 a.rec_.last).flatten) ∧
        (service = 4 → let found := c.recorder.alarms.find? fun a => a.rec_.seq == bytesAt p 0 4
          (found = none → replies (.almack f) 4 fun body d => body = [2#8] ∧ d.recorder = c.recorder ∧ d.regs = c.regs ∧ d.events = c.events) ∧
          (∀ a, found = some a → a.acked = true → replies (.almack f) 4 fun body d => body = [1#8] ∧ d.recorder = c.recorder ∧ d.regs = c.regs ∧ d.events = c.events) ∧
          (∀ a, found = some a → a.acked = false → replies (.almack f) 4 fun body d => body = [0#8] ∧ c.regsSameBut d [MG_ALMSTAT] ∧ Claim.event c d 0x1902 1 ∧
            d.recorder = { c.recorder with alarms := c.recorder.alarms.map fun y => if y.rec_.seq = bytesAt p 0 4 then { y with acked := true } else y })) ∧
        (other → replies (.unknownService f) 0x3F fun body d => body = [] ∧ d.regs = c.regs ∧ d.recorder = c.recorder)))

/-! ## The whole machine -/

/-- A step takes the command at the front of the queue and runs it with the queue's rest; with none waiting, the block idles for 1 ns (the model's choice, log entry 11). -/
def Obligations.StepRunsFrontCommand : Prop :=
  ∀ (s : State) (i : Instr) (q : List Instr),
    (s.pending = i :: q → step s = exec i { s with pending := q }) ∧ (s.pending = [] → step s = .next { s with chip := { s.chip with now := s.chip.now + 1 } }) ∧
    step { s with pending := i :: q } = exec i { s with pending := q }

/-- Every command answers a next state, and takes nothing from the queue and puts nothing into it: no command of the table ends the run. -/
def Obligations.EveryCommandCompletes : Prop :=
  ∀ (i : Instr) (s : State), ∃ t, exec i s = .next t ∧ t.pending = s.pending

/-- The state after reset: the invariant holds, no command waits, memory lists no byte, the module is in BOOT, and every core is held at level X with W0 = 0, a word-aligned
program counter, an empty store buffer and no load waiting. -/
def Obligations.InvariantAtReset : Prop :=
  State.reset.Inv ∧ State.reset.pending = [] ∧ State.reset.mem = [] ∧ State.reset.chip.mode = 0 ∧
    ∀ n : Core, let c := State.reset.core n
      c.run = .held ∧ c.isX = true ∧ c.rw 0 = 0#32 ∧ c.sb = [] ∧ c.wait = none ∧ c.pc.toNat % 4 = 0

/-- Every step keeps the invariant: memory canonical; in every core W0 zero, pc and VBASE word-aligned, no bit of CSTATUS above EXL, STKLIM a multiple of 8, at most 16 entries in the
store buffer, and a load that waits as it was issued (Safety.lean). -/
def Obligations.StepKeepsInvariant : Prop := ∀ s t : State, s.Inv → step s = .next t → t.Inv

/-- The level of a core that runs (R142): it moves to X only by an entry, which leaves it at VBASE with EXL = 1 and PLEVEL = T, unless a reset has stopped it; it moves to T only by
executing ERET, where PLEVEL is T. -/
def Obligations.LevelChanges : Prop :=
  ∀ (s t : State) (n : Core), step s = .next t → (s.core n).run = .running →
    ((s.core n).isX = false → (t.core n).isX = true →
      ((t.core n).pc = (s.core n).vbase ∧ (t.core n).cstatus.getLsbD 4 = true ∧ (t.core n).cstatus.getLsbD 2 = false) ∨ (t.core n).run ≠ .running) ∧
    ((s.core n).isX = true → (t.core n).isX = false → ∃ (op : BitVec 20) (q : List Instr), s.pending = .eret n op :: q ∧ (s.core n).cstatus.getLsbD 2 = false)
end

