-- ==== Sys2Proof/Laws/Map.lean ====
section
/-!
SUPPORT. The laws of sparse data: what a read after a write gives, in any list, and that a write keeps the canonical form.
-/

namespace Sys2Proof.Machine

/-! ## The canonical form -/

theorem mapWfFrom_mono {α : Type} [DecidableEq α] (d : α) {lo lo' : Nat} (h : lo' ≤ lo) :
    ∀ m : List (Nat × α), mapWfFrom d lo m = true → mapWfFrom d lo' m = true
  | [], _ => rfl
  | (k, v) :: m, hm => by
    simp only [mapWfFrom, Bool.and_eq_true, decide_eq_true_eq] at hm ⊢
    exact ⟨⟨Nat.le_trans h hm.1.1, hm.1.2⟩, hm.2⟩

/-- Of a canonical map with keys above `i` nothing is dropped. -/
theorem mapDrop_above {α : Type} [DecidableEq α] (d : α) {i : Nat} :
    ∀ (lo : Nat) (m : List (Nat × α)), mapWfFrom d lo m = true → i < lo → mapDrop m i = m
  | _, [], _, _ => rfl
  | lo, (k, v) :: m, hm, hi => by
    simp only [mapWfFrom, Bool.and_eq_true, decide_eq_true_eq] at hm
    have hk : ¬k ≤ i := by omega
    simp [mapDrop, hk]

/-- Every write keeps the canonical form from any bound at or below the key. -/
theorem mapSet_wfFrom {α : Type} [DecidableEq α] (d : α) (i : Nat) (x : α) :
    ∀ (lo : Nat) (m : List (Nat × α)), mapWfFrom d lo m = true → lo ≤ i → mapWfFrom d lo (mapSet d m i x) = true
  | lo, [], _, hi => by
    by_cases hx : x = d <;> simp [mapSet, mapWfFrom, hx, hi]
  | lo, (k, v) :: m, hm, hi => by
    have hm' := hm
    simp only [mapWfFrom, Bool.and_eq_true, decide_eq_true_eq] at hm
    by_cases h1 : i < k
    · by_cases hx : x = d
      · simpa [mapSet, h1, hx] using hm'
      · simp only [mapSet, h1, hx, if_true, if_false, mapWfFrom, Bool.and_eq_true, decide_eq_true_eq]
        exact ⟨⟨hi, hx⟩, ⟨by omega, hm.1.2⟩, hm.2⟩
    · by_cases h2 : i = k
      · by_cases hx : x = d
        · simp only [mapSet, h2, hx, if_true, if_false, Nat.lt_irrefl]
          rw [mapDrop_above d (k + 1) m hm.2 (by omega)]
          exact mapWfFrom_mono d (by omega) m hm.2
        · subst h2
          simp [mapSet, hx, mapWfFrom, hi, hm.2]
      · simp only [mapSet, h1, h2, if_false, mapWfFrom, Bool.and_eq_true, decide_eq_true_eq]
        exact ⟨hm.1, mapSet_wfFrom d i x (k + 1) m hm.2 (by omega)⟩

/-- A write keeps the canonical form. -/
theorem mapSet_wf {α : Type} [DecidableEq α] (d : α) (m : List (Nat × α)) (i : Nat) (x : α) (h : mapWf d m = true) :
    mapWf d (mapSet d m i x) = true := mapSet_wfFrom d i x 0 m h (Nat.zero_le i)

/-! ## What a read gives after a write -/

/-- Dropping the keys up to `i` hides them and no other key. -/
theorem mapGet_mapDrop {α : Type} (d : α) (i j : Nat) : ∀ m : List (Nat × α), i ≤ j →
    mapGet d (mapDrop m i) j = if i = j then d else mapGet d m j
  | [], _ => by simp [mapDrop, mapGet]
  | (k, v) :: m, h => by
    by_cases hk : k ≤ i
    · simp only [mapDrop, hk, if_true]
      rw [mapGet_mapDrop d i j m h]
      by_cases e : i = j
      · simp [e]
      · have h1 : ¬j < k := by omega
        have h2 : j ≠ k := by omega
        simp [e, mapGet, h1, h2]
    · by_cases e : i = j
      · have h1 : i < k := by omega
        subst e
        simp [mapDrop, hk, mapGet, h1]
      · simp [mapDrop, hk, e]

/-- A read of another key gives what it gave. -/
theorem mapGet_mapSet_ne {α : Type} [DecidableEq α] (d : α) {i j : Nat} (x : α) (h : j ≠ i) :
    ∀ m : List (Nat × α), mapGet d (mapSet d m i x) j = mapGet d m j
  | [] => by by_cases hx : x = d <;> simp [mapSet, mapGet, hx, h]
  | (k, v) :: m => by
    by_cases h1 : i < k
    · by_cases hx : x = d
      · simp [mapSet, h1, hx]
      · by_cases h3 : j < i
        · have h4 : j < k := by omega
          simp [mapSet, mapGet, h1, hx, h3, h4]
        · simp [mapSet, mapGet, h1, hx, h3, h]
    · by_cases h2 : i = k
      · subst h2
        by_cases hx : x = d
        · by_cases h3 : j < i
          · simp only [mapSet, hx, Nat.lt_irrefl, if_true, if_false, mapGet, h3]
            clear h1 h
            induction m with
            | nil => rfl
            | cons p m ih =>
              obtain ⟨k, v⟩ := p
              by_cases hk : k ≤ i
              · simpa [mapDrop, hk] using ih
              · have h4 : j < k := by omega
                simp [mapDrop, hk, mapGet, h4]
          · have h4 : i ≠ j := fun e => h e.symm
            simp only [mapSet, hx, Nat.lt_irrefl, if_true, if_false, mapGet, h3, h]
            rw [mapGet_mapDrop d i j m (by omega), if_neg h4]
        · simp [mapSet, mapGet, hx, h]
      · simp only [mapSet, h1, h2, if_false, mapGet]
        rw [mapGet_mapSet_ne d x h m]

/-- A read after a write of the same key gives the value written, whatever the list was. -/
theorem mapGet_mapSet_same {α : Type} [DecidableEq α] (d : α) (i : Nat) (x : α) :
    ∀ m : List (Nat × α), mapGet d (mapSet d m i x) i = x
  | [] => by by_cases hx : x = d <;> simp [mapSet, mapGet, hx]
  | (k, v) :: m => by
    by_cases h1 : i < k
    · by_cases hx : x = d <;> simp [mapSet, mapGet, h1, hx]
    · by_cases h2 : i = k
      · by_cases hx : x = d
        · subst h2
          simp only [mapSet, hx, if_true, if_false, Nat.lt_irrefl]
          rw [mapGet_mapDrop d i i m (Nat.le_refl i)]
          simp
        · subst h2; simp [mapSet, mapGet, hx]
      · simp only [mapSet, h1, h2, if_false, mapGet]
        exact mapGet_mapSet_same d i x m

end Sys2Proof.Machine
end

