-- ==== Sys2Proof/Laws/State.lean ====
section
/-!
SUPPORT. The fields of the machine after each update of it.
-/

namespace Sys2Proof.Machine

/-! ## The chip alone -/

@[simp] theorem onChip_pending (s : State) (f : Chip → Chip) : (s.onChip f).pending = s.pending := rfl
@[simp] theorem onChip_cores (s : State) (f : Chip → Chip) : (s.onChip f).cores = s.cores := rfl
@[simp] theorem onChip_mem (s : State) (f : Chip → Chip) : (s.onChip f).mem = s.mem := rfl
@[simp] theorem onChip_chip (s : State) (f : Chip → Chip) : (s.onChip f).chip = f s.chip := rfl
@[simp] theorem onChip_core (s : State) (f : Chip → Chip) (n : Core) : (s.onChip f).core n = s.core n := rfl

/-! ## One core -/

@[simp] theorem setCore_pending (s : State) (n : Core) (c : CoreSt) : (s.setCore n c).pending = s.pending := rfl
@[simp] theorem setCore_mem (s : State) (n : Core) (c : CoreSt) : (s.setCore n c).mem = s.mem := rfl
@[simp] theorem setCore_chip (s : State) (n : Core) (c : CoreSt) : (s.setCore n c).chip = s.chip := rfl
@[simp] theorem setCore_core (s : State) (n : Core) (c : CoreSt) : (s.setCore n c).core n = c := by
  simp [State.core, State.setCore]
theorem setCore_core_ne (s : State) (n k : Core) (c : CoreSt) (h : k ≠ n) : (s.setCore n c).core k = s.core k := by
  have hv : n.val ≠ k.val := fun e => h (Fin.ext e.symm)
  simp [State.core, State.setCore, hv]
@[simp] theorem setCore_setCore (s : State) (n : Core) (c d : CoreSt) : (s.setCore n c).setCore n d = s.setCore n d := by
  cases s
  simp [State.setCore, Vector.set_set]
@[simp] theorem onCore_pending (s : State) (n : Core) (f : CoreSt → CoreSt) : (s.onCore n f).pending = s.pending := rfl
@[simp] theorem onCore_mem (s : State) (n : Core) (f : CoreSt → CoreSt) : (s.onCore n f).mem = s.mem := rfl
@[simp] theorem onCore_chip (s : State) (n : Core) (f : CoreSt → CoreSt) : (s.onCore n f).chip = s.chip := rfl
@[simp] theorem onCore_core (s : State) (n : Core) (f : CoreSt → CoreSt) : (s.onCore n f).core n = f (s.core n) := by
  simp [State.onCore]

/-! ## A general register of a core -/

@[simp] theorem ww_pc (c : CoreSt) (r : RegN) (v : Word) : (c.ww r v).pc = c.pc := by unfold CoreSt.ww; split <;> rfl
@[simp] theorem ww_flags (c : CoreSt) (r : RegN) (v : Word) : (c.ww r v).flags = c.flags := by unfold CoreSt.ww; split <;> rfl
@[simp] theorem ww_f (c : CoreSt) (r : RegN) (v : Word) : (c.ww r v).f = c.f := by unfold CoreSt.ww; split <;> rfl
@[simp] theorem ww_sb (c : CoreSt) (r : RegN) (v : Word) : (c.ww r v).sb = c.sb := by unfold CoreSt.ww; split <;> rfl
@[simp] theorem ww_cstatus (c : CoreSt) (r : RegN) (v : Word) : (c.ww r v).cstatus = c.cstatus := by unfold CoreSt.ww; split <;> rfl
@[simp] theorem ww_vbase (c : CoreSt) (r : RegN) (v : Word) : (c.ww r v).vbase = c.vbase := by unfold CoreSt.ww; split <;> rfl
@[simp] theorem ww_stklim (c : CoreSt) (r : RegN) (v : Word) : (c.ww r v).stklim = c.stklim := by unfold CoreSt.ww; split <;> rfl
@[simp] theorem ww_wait (c : CoreSt) (r : RegN) (v : Word) : (c.ww r v).wait = c.wait := by unfold CoreSt.ww; split <;> rfl
@[simp] theorem ww_run (c : CoreSt) (r : RegN) (v : Word) : (c.ww r v).run = c.run := by unfold CoreSt.ww; split <;> rfl
@[simp] theorem ww_zero (c : CoreSt) (v : Word) : c.ww 0 v = c := rfl
@[simp] theorem rw_zero (c : CoreSt) : c.rw 0 = 0#32 := rfl

theorem rw_ww_same (c : CoreSt) (r : RegN) (v : Word) (h : r ≠ 0) : (c.ww r v).rw r = v := by
  simp [CoreSt.rw, CoreSt.ww, h]

theorem rw_ww_ne (c : CoreSt) (r q : RegN) (v : Word) (h : q ≠ r) : (c.ww r v).rw q = c.rw q := by
  unfold CoreSt.ww
  split
  · rfl
  · have hv : r.val ≠ q.val := fun e => h (Fin.ext e.symm)
    simp [CoreSt.rw, hv]

/-- The register that holds zero is never written (R139). -/
theorem ww_w0 (c : CoreSt) (r : RegN) (v : Word) : (c.ww r v).w[0] = c.w[0] := by
  unfold CoreSt.ww
  split
  · rfl
  · rename_i h
    have hv : r.val ≠ 0 := fun e => h (Fin.ext e)
    simp [hv]

end Sys2Proof.Machine
end

