-- ==== Sys2Proof/Laws/Memory.lean ====
section
/-!
SUPPORT. The laws of memory and of the register file: reads after writes, and that every memory operation keeps the canonical form.
-/

namespace Sys2Proof.Machine

/-! ## Memory keeps its form -/

theorem memSetByte_wf (m : List Host.Cell) (a : Nat) (b : Byte) (h : memWf m = true) : memWf (memSetByte m a b) = true :=
  mapSet_wf memDefault m a b h

theorem memWrite_wf : ∀ (n : Nat) (m : List Host.Cell) (a x : Nat), memWf m = true → memWf (memWrite m n a x) = true
  | 0, _, _, _, h => h
  | n + 1, m, a, x, h => memWrite_wf n _ (a + 1) (x / 256) (memSetByte_wf m a _ h)

theorem memPut_wf : ∀ (bs : List Byte) (m : List Host.Cell) (a : Nat), memWf m = true → memWf (memPut m a bs) = true
  | [], _, _, h => h
  | b :: bs, m, a, h => memPut_wf bs _ (a + 1) (memSetByte_wf m a b h)

theorem memWf_nil : memWf [] = true := rfl

/-! ## What a read gives after a write -/

theorem memByte_memSetByte (m : List Host.Cell) (a i : Nat) (b : Byte) :
    memByte (memSetByte m a b) i = if i = a then b else memByte m i := by
  by_cases e : i = a
  · subst e; simpa [memByte, memSetByte] using mapGet_mapSet_same memDefault i b m
  · simpa [memByte, memSetByte, e] using mapGet_mapSet_ne memDefault b e m

/-- A byte outside the bytes written reads as before; no form is asked of memory. -/
theorem memByte_memWrite_out : ∀ (n : Nat) (m : List Host.Cell) (a x i : Nat), (i < a ∨ a + n ≤ i) →
    memByte (memWrite m n a x) i = memByte m i
  | 0, _, _, _, _, _ => rfl
  | n + 1, m, a, x, i, h => by
    have hi : i ≠ a := by omega
    rw [memWrite, memByte_memWrite_out n _ (a + 1) (x / 256) i (by omega)]
    simpa [memByte, memSetByte] using mapGet_mapSet_ne memDefault (BitVec.ofNat 8 x) hi m

/-- A read after a write of the same bytes gives the number written, cut to them (R13). -/
theorem memRead_memWrite : ∀ (n : Nat) (m : List Host.Cell) (a x : Nat),
    memRead (memWrite m n a x) n a = x % 256 ^ n
  | 0, _, _, x => by simp [memRead, Nat.mod_one]
  | n + 1, m, a, x => by
    have hb : memByte (memWrite (memSetByte m a (BitVec.ofNat 8 x)) n (a + 1) (x / 256)) a = BitVec.ofNat 8 x := by
      rw [memByte_memWrite_out n _ (a + 1) (x / 256) a (by omega), memByte_memSetByte m a a _]
      simp
    rw [memWrite, memRead, hb, memRead_memWrite n _ (a + 1) (x / 256), BitVec.toNat_ofNat]
    rw [show (2 : Nat) ^ 8 = 256 from rfl, Nat.pow_succ', Nat.mod_mul]

/-! ## The register file -/

theorem reg_setReg_ne (c : Chip) (k j : Nat) (w : Word) (h : j ≠ k) : (c.setReg k w).reg j = c.reg j := by
  simpa [Chip.reg, Chip.setReg] using mapGet_mapSet_ne 0#32 w h c.regs

@[simp] theorem reg_setReg_same (c : Chip) (k : Nat) (w : Word) : (c.setReg k w).reg k = w := by
  simpa [Chip.reg, Chip.setReg] using mapGet_mapSet_same 0#32 k w c.regs

theorem setReg_regs_wf (c : Chip) (k : Nat) (w : Word) (h : mapWf 0#32 c.regs = true) : mapWf 0#32 (c.setReg k w).regs = true :=
  mapSet_wf 0#32 c.regs k w h

theorem reg_setFld_ne (c : Chip) (f : Fld) (v j : Nat) (h : j ≠ f.key) : (c.setFld f v).reg j = c.reg j :=
  reg_setReg_ne c f.key j _ h

end Sys2Proof.Machine
end

