-- ==== Sys2Proof/Laws/Chip.lean ====
section
/-!
SUPPORT. What the shared operations over the chip can do, said once for each: writing registers and fields, recording events, answering, the mode
controller's operations, and register writes that reach their island or do not.
-/

namespace Sys2Proof.Machine

/-! ## Fields of a word -/

theorem getF_lt (f : Fld) (w : Word) : getF f w < 2 ^ (f.hi - f.lo + 1) := by
  unfold getF bitsOf
  exact Nat.mod_lt _ (Nat.pos_of_ne_zero (by simp))

theorem getF_testBit (f : Fld) (w : Word) (i : Nat) :
    (getF f w).testBit i = (decide (i < f.hi - f.lo + 1) && w.getLsbD (f.lo + i)) := by
  simp [getF, bitsOf, Nat.testBit_mod_two_pow, Nat.testBit_shiftRight, BitVec.getLsbD]

theorem maskF_bit (f : Fld) (i : Nat) (hi : i < 32) :
    (maskF f).getLsbD i = decide (f.lo ≤ i ∧ i < f.lo + (f.hi - f.lo + 1)) := by
  simp only [maskF, BitVec.getLsbD_ofNat, hi, decide_true, Bool.true_and, Nat.testBit_shiftLeft, Nat.testBit_two_pow_sub_one]
  by_cases h : f.lo ≤ i
  · simp only [h, true_and, decide_true, Bool.true_and, decide_eq_decide]
    omega
  · simp [h]

theorem putF_bit (f : Fld) (w : Word) (v i : Nat) (hi : i < 32) :
    (putF f w v).getLsbD i = if f.lo ≤ i ∧ i < f.lo + (f.hi - f.lo + 1) then v.testBit (i - f.lo) else w.getLsbD i := by
  simp only [putF, BitVec.getLsbD_or, BitVec.getLsbD_and, BitVec.getLsbD_not, BitVec.getLsbD_ofNat, hi, decide_true, Bool.true_and,
    maskF_bit f i hi, Nat.testBit_shiftLeft]
  by_cases h : f.lo ≤ i ∧ i < f.lo + (f.hi - f.lo + 1)
  · simp [h]
  · simp [h]

/-- A field reads as it was written, cut to its width. -/
theorem getF_putF_same (f : Fld) (w : Word) (v : Nat) (h : f.lo ≤ f.hi) (hh : f.hi < 32) :
    getF f (putF f w v) = v % 2 ^ (f.hi - f.lo + 1) := by
  apply Nat.eq_of_testBit_eq
  intro i
  rw [getF_testBit, Nat.testBit_mod_two_pow]
  by_cases hi : i < f.hi - f.lo + 1
  · rw [putF_bit f w v (f.lo + i) (by omega)]
    have : f.lo ≤ f.lo + i ∧ f.lo + i < f.lo + (f.hi - f.lo + 1) := by omega
    simp [hi]
  · simp [hi]

/-- A field keeps its value when other bits of its word are written. -/
theorem getF_putF_ne (f g : Fld) (w : Word) (v : Nat) (h : f.lo ≤ f.hi) (hh : f.hi < 32) (hd : f.hi < g.lo ∨ g.hi < f.lo)
    (hg : g.lo ≤ g.hi) : getF f (putF g w v) = getF f w := by
  apply Nat.eq_of_testBit_eq
  intro i
  rw [getF_testBit, getF_testBit]
  by_cases hi : i < f.hi - f.lo + 1
  · rw [putF_bit g w v (f.lo + i) (by omega)]
    have : ¬(g.lo ≤ f.lo + i ∧ f.lo + i < g.lo + (g.hi - g.lo + 1)) := by omega
    rw [if_neg this]
  · simp [hi]

theorem fld_setFld_same (c : Chip) (f : Fld) (v : Nat) (h : f.lo ≤ f.hi) (hh : f.hi < 32) :
    (c.setFld f v).fld f = v % 2 ^ (f.hi - f.lo + 1) := by
  simp only [Chip.fld, Chip.setFld, reg_setReg_same]
  exact getF_putF_same f _ v h hh

theorem fld_setFld_ne (c : Chip) (f g : Fld) (v : Nat) (h : f.key ≠ g.key) : (c.setFld g v).fld f = c.fld f := by
  simp only [Chip.fld, reg_setFld_ne c g v f.key h]

theorem fld_setFld_apart (c : Chip) (f g : Fld) (v : Nat) (h : f.lo ≤ f.hi) (hh : f.hi < 32) (hd : f.hi < g.lo ∨ g.hi < f.lo)
    (hg : g.lo ≤ g.hi) : (c.setFld g v).fld f = c.fld f := by
  by_cases e : f.key = g.key
  · simp only [Chip.fld, Chip.setFld, e, reg_setReg_same]
    exact getF_putF_ne f g _ v h hh hd hg
  · exact fld_setFld_ne c f g v e

/-! ## What an operation leaves alone -/

/-- Writing fields changes the register file alone. -/
theorem setFlds_only : ∀ (l : List (Fld × Nat)) (c : Chip), c.setFlds l = { c with regs := (c.setFlds l).regs }
  | [], _ => rfl
  | (f, v) :: l, c => by
    have := setFlds_only l (c.setFld f v)
    rw [Chip.setFlds, this]
    rfl

/-- Writing fields changes no register but theirs. -/
theorem reg_setFlds_ne : ∀ (l : List (Fld × Nat)) (c : Chip) (k : Nat), (∀ p ∈ l, k ≠ p.1.key) → (c.setFlds l).reg k = c.reg k
  | [], _, _, _ => rfl
  | (f, v) :: l, c, k, h => by
    rw [Chip.setFlds, reg_setFlds_ne l _ k fun p hp => h p (List.mem_cons_of_mem _ hp)]
    exact reg_setFld_ne c f v k (h (f, v) (List.mem_cons_self ..))

/-- An event is recorded, and nothing else happens. -/
theorem raise_only (c : Chip) (code sev src : Nat) (data : List Byte) :
    c.raise code sev src data = { c with events := c.events ++ [⟨code / 256, sev, code, src, data, c.fabricNow, c.tqNow⟩] } := rfl

/-- A change of the mode controller shows in PENDING, and changes nothing else. -/
theorem onCtl_only (c : Chip) (f : ModeCtl → ModeCtl) : c.onCtl f = { c with ctl := f c.ctl, regs := (c.onCtl f).regs } := rfl

theorem reg_onCtl_ne (c : Chip) (f : ModeCtl → ModeCtl) (k : Nat) (h : k ≠ MG_MODE) : (c.onCtl f).reg k = c.reg k :=
  reg_setFld_ne { c with ctl := f c.ctl } MG_MODE_PENDING _ k h

/-- The operating mode is not the controller's count of requests. -/
theorem mode_onCtl (c : Chip) (f : ModeCtl → ModeCtl) : (c.onCtl f).mode = c.mode :=
  fld_setFld_apart { c with ctl := f c.ctl } MG_MODE_CUR MG_MODE_PENDING _ (by decide) (by decide) (by decide) (by decide)

/-- An outcome goes into MG_MODEOUT alone. -/
theorem modeOutcome_only (c : Chip) (tag o : Nat) : c.modeOutcome tag o = { c with regs := (c.modeOutcome tag o).regs } :=
  setFlds_only _ c

theorem reg_modeOutcome_ne (c : Chip) (tag o k : Nat) (h : k ≠ MG_MODEOUT) : (c.modeOutcome tag o).reg k = c.reg k :=
  reg_setFlds_ne _ c k (by
    intro p hp
    simp only [List.mem_cons, List.not_mem_nil, or_false] at hp
    rcases hp with rfl | rfl | rfl <;> exact h)

/-! ## Register writes and accesses that reach an island, or do not -/

/-- A register write whose way is clear takes effect where the island is ON (R66, R71, R74). -/
theorem whenOn_on (s : State) (src k : Nat) (f : Chip → Chip) (hw : s.chip.writeClear src (islandOf k) = true)
    (h : s.chip.islandOn (islandOf k) = true) : (s.onChip fun c => c.whenOn src k f) = { s with chip := f s.chip } := by
  simp [State.onChip, Chip.whenOn, hw, h]

/-- It gets a bus error where the island is not ON (R71). -/
theorem whenOn_off (s : State) (src k : Nat) (f : Chip → Chip) (hw : s.chip.writeClear src (islandOf k) = true)
    (h : s.chip.islandOn (islandOf k) = false) :
    (s.onChip fun c => c.whenOn src k f) = { s with chip := s.chip.answer src .busError } := by
  simp [State.onChip, Chip.whenOn, hw, h]

/-- It waits, and changes nothing, while its way is not clear (R66, R74). -/
theorem whenOn_waits (s : State) (src k : Nat) (f : Chip → Chip) (hw : s.chip.writeClear src (islandOf k) = false) :
    (s.onChip fun c => c.whenOn src k f) = s := by
  simp [State.onChip, Chip.whenOn, hw]

theorem stateWhenOn_on (s : State) (src k : Nat) (f : State → State) (hw : s.chip.writeClear src (islandOf k) = true)
    (h : s.chip.islandOn (islandOf k) = true) : s.whenOn src k f = f s := by
  simp [State.whenOn, hw, h]

theorem stateWhenOn_off (s : State) (src k : Nat) (f : State → State) (hw : s.chip.writeClear src (islandOf k) = true)
    (h : s.chip.islandOn (islandOf k) = false) : s.whenOn src k f = { s with chip := s.chip.answer src .busError } := by
  simp [State.whenOn, hw, h]

theorem stateWhenOn_waits (s : State) (src k : Nat) (f : State → State) (hw : s.chip.writeClear src (islandOf k) = false) :
    s.whenOn src k f = s := by
  simp [State.whenOn, hw]

theorem regAccess_on (s : State) (src size : Nat) (a : Word) (eff : State → Nat → State) (k : Nat) (hk : keyOfAddr a = k)
    (h : regAccessOk size a = true) (hw : s.chip.writeClear src (islandOf k) = true) (hon : s.chip.islandOn (islandOf k) = true) :
    s.regAccess src size a eff = eff s k := by
  simp [State.regAccess, hk, h, hw, hon]

theorem regAccess_refused (s : State) (src size : Nat) (a : Word) (eff : State → Nat → State)
    (hw : regAccessOk size a = true → s.chip.writeClear src (islandOf (keyOfAddr a)) = true)
    (h : (regAccessOk size a && s.chip.islandOn (islandOf (keyOfAddr a))) = false) :
    s.regAccess src size a eff = { s with chip := s.chip.answer src .busError } := by
  cases ha : regAccessOk size a
  · simp [State.regAccess, State.onChip, ha]
  · rw [ha, Bool.true_and] at h
    simp [State.regAccess, State.onChip, ha, hw ha, h]

theorem regAccess_waits (s : State) (src size : Nat) (a : Word) (eff : State → Nat → State) (ha : regAccessOk size a = true)
    (hw : s.chip.writeClear src (islandOf (keyOfAddr a)) = false) : s.regAccess src size a eff = s := by
  simp [State.regAccess, ha, hw]

theorem place_toNat (k : Nat) (h : k < 0x1800000) : (BitVec.ofNat 32 (0xE0000000 + k)).toNat = 0xE0000000 + k := by
  simp only [BitVec.toNat_ofNat]
  omega

/-- The place of a register and the address that names it. -/
theorem keyOfAddr_place (k : Nat) (h : k < 0x1800000) : keyOfAddr (BitVec.ofNat 32 (0xE0000000 + k)) = k := by
  have := place_toNat k h
  unfold keyOfAddr
  omega

/-- A word-aligned place of the window takes a word access. -/
theorem regAccessOk_place (k : Nat) (h1 : 0x800000 ≤ k) (h2 : k < 0x1800000) (h3 : k % 4 = 0) :
    regAccessOk 4 (BitVec.ofNat 32 (0xE0000000 + k)) = true := by
  have h4 : (0xE0000000 + k) % 4 = 0 := by omega
  have h5 : 0xE0800000 ≤ 0xE0000000 + k ∧ 0xE0000000 + k ≤ 0xE17FFFFF := by omega
  unfold regAccessOk inRegWindow
  rw [place_toNat k h2, h4, decide_eq_true h5]
  rfl

end Sys2Proof.Machine
end

