-- ==== Sys2Proof/Laws/Core.lean ====
section
/-!
SUPPORT. What the shared operations of the program cores can do: the frame of an instruction, an exception, room in the store buffer.
-/

namespace Sys2Proof.Machine

/-! ## The frame of an instruction -/

/-- An instruction that is ready and has no reserved field has its own effect. -/
theorem instr_body (s : State) (n : Core) (w : Word) (len : Nat) (f : State → State) (h : s.ready n len) : s.instr n w len true f = f s := by
  obtain ⟨h1, h2, h3, h4, h5⟩ := h
  unfold State.instr
  by_cases hl : len = 8
  · simp [h1, h2, h3, h4, h5 hl]
  · simp [h1, h2, h3, h4, hl]

/-- One with a reserved field is ILLEGAL (R152). -/
theorem instr_illegal (s : State) (n : Core) (w : Word) (len : Nat) (f : State → State) (h : s.ready n len) :
    s.instr n w len false f = s.exc n excIllegal w := by
  obtain ⟨h1, h2, h3, h4, h5⟩ := h
  unfold State.instr
  by_cases hl : len = 8
  · simp [h1, h2, h3, h4, h5 hl]
  · simp [h1, h2, h3, h4, hl]

/-- A core that does not run, waits, or has no clock executes nothing. -/
theorem instr_stopped (s : State) (n : Core) (w : Word) (len : Nat) (legal : Bool) (f : State → State)
    (h : (s.core n).run ≠ .running ∨ (s.core n).wait ≠ none ∨ s.chip.islandOn n.val = false) : s.instr n w len legal f = s := by
  unfold State.instr
  have hc : ((s.core n).run != .running || (s.core n).wait.isSome || !s.chip.islandOn n.val) = true := by
    rcases h with h | h | h
    · have : ((s.core n).run != .running) = true := by simp [h]
      simp [this]
    · cases hw : (s.core n).wait with
      | none => exact absurd hw h
      | some x => simp
    · simp [h]
  simp [hc]

/-- Everything an instruction can do: nothing, FETCH for its first or its second word, ILLEGAL, or its own effect. -/
theorem instr_cases (s : State) (n : Core) (w : Word) (len : Nat) (legal : Bool) (f : State → State) :
    s.instr n w len legal f = s ∨
    s.instr n w len legal f = s.setCore n ((s.core n).enter excFetch false false (s.core n).pc (s.core n).pc) ∨
    (len = 8 ∧ s.instr n w len legal f = s.setCore n ((s.core n).enter excFetch false false (s.core n).pc ((s.core n).pc + 4))) ∨
    (legal = false ∧ s.instr n w len legal f = s.exc n excIllegal w) ∨ (legal = true ∧ s.instr n w len legal f = f s) := by
  unfold State.instr
  dsimp only
  split
  · exact .inl rfl
  · split
    · exact .inr (.inl rfl)
    · split
      · rename_i h
        simp only [Bool.and_eq_true, beq_iff_eq] at h
        exact .inr (.inr (.inl ⟨h.1, rfl⟩))
      · split
        · rename_i h
          exact .inr (.inr (.inr (.inl ⟨by simpa using h, rfl⟩)))
        · rename_i h
          exact .inr (.inr (.inr (.inr ⟨by simpa using h, rfl⟩)))

/-! ## An exception -/

/-- Outside a handler an exception enters the handler at VBASE (R216). -/
theorem enter_noExl (c : CoreSt) (code : Nat) (irq imprecise : Bool) (epc eaddr : Word) (h : c.exl = false) :
    c.enter code irq imprecise epc eaddr = { c with
      epc := epc, ecause := BitVec.ofNat 32 (b2n irq * 2 ^ 31 + b2n imprecise * 2 ^ 30 + code), eaddr := eaddr
      cstatus := enteredStatus c.cstatus, pc := c.vbase, ovlSeen := false } := by
  simp [CoreSt.enter, h]

/-- In a handler it halts the core (R218). -/
theorem enter_exl (c : CoreSt) (code : Nat) (irq imprecise : Bool) (epc eaddr : Word) (h : c.exl = true) :
    c.enter code irq imprecise epc eaddr = { c with run := .dead } := by
  simp [CoreSt.enter, h]

/-- An exception leaves memory and the queue alone. -/
@[simp] theorem exc_mem (s : State) (n : Core) (code : Nat) (a : Word) : (s.exc n code a).mem = s.mem := by
  unfold State.exc
  split <;> rfl
@[simp] theorem exc_pending (s : State) (n : Core) (code : Nat) (a : Word) : (s.exc n code a).pending = s.pending := by
  unfold State.exc
  split <;> rfl

/-- It changes its own core alone. -/
theorem exc_core_ne (s : State) (n k : Core) (code : Nat) (a : Word) (h : k ≠ n) : (s.exc n code a).core k = s.core k := by
  unfold State.exc
  split
  · exact setCore_core_ne _ _ _ _ h
  · exact setCore_core_ne _ _ _ _ h

/-- What it leaves in its own core. -/
theorem exc_core (s : State) (n : Core) (code : Nat) (a : Word) : (s.exc n code a).core n = (s.core n).enter code false false (s.core n).pc a := by
  unfold State.exc
  split
  · exact setCore_core _ _ _
  · exact setCore_core _ _ _

/-- An exception other than POISON changes nothing else. -/
theorem exc_plain (s : State) (n : Core) (code : Nat) (a : Word) (h : code ≠ excPoison) :
    s.exc n code a = s.setCore n ((s.core n).enter code false false (s.core n).pc a) := by
  simp [State.exc, h]

/-! ## The store buffer -/

/-- Room that is there needs no entry to retire. -/
theorem makeRoom_hasRoom (s : State) (n : Core) (k : Nat) (h : (s.core n).sb.length + k ≤ sbSize) : s.makeRoom n k = s.retire n 0 := by
  unfold State.makeRoom
  have : (s.core n).sb.length + k - sbSize = 0 := by omega
  rw [this]

/-- A store enters its own core's buffer, and nothing else changes. -/
@[simp] theorem pushStore_mem (s : State) (n : Core) (e : StoreEntry) : (s.pushStore n e).mem = s.mem := rfl
@[simp] theorem pushStore_chip (s : State) (n : Core) (e : StoreEntry) : (s.pushStore n e).chip = s.chip := rfl
@[simp] theorem pushStore_pending (s : State) (n : Core) (e : StoreEntry) : (s.pushStore n e).pending = s.pending := rfl
@[simp] theorem push_w (c : CoreSt) (e : StoreEntry) : (c.push e).w = c.w := rfl
@[simp] theorem push_pc (c : CoreSt) (e : StoreEntry) : (c.push e).pc = c.pc := rfl
@[simp] theorem push_flags (c : CoreSt) (e : StoreEntry) : (c.push e).flags = c.flags := rfl
@[simp] theorem push_sb (c : CoreSt) (e : StoreEntry) : (c.push e).sb = c.sb ++ [e] := rfl

end Sys2Proof.Machine
end

