-- ==== Sys2Proof/Tests/Slice0.lean ====
section
/-!
SUPPORT. Tests of single commands, and witnesses: concrete states and operands that meet the hypotheses of the statements. A witness carries the
name of its statement.
-/

open Sys2Proof Sys2Proof.Machine

namespace Sys2Proof.Tests

set_option Elab.async false

/-! ## Small states -/

/-- A chip whose registers hold what reset gives them, but for those that free values fill; no reset holds it. -/
def chip0 : Chip := { State.reset.chip with regs := [], monoBase := 0, power := { State.reset.chip.power with reset := none } }

/-- The same chip still held by the power-on reset. -/
def inReset : Chip := { chip0 with power := State.reset.chip.power }

/-- A state with the chip given. -/
def on (c : Chip) : State := { State.reset with chip := c }

/-- A state with register fields as given. -/
def regs (l : List (Fld × Nat)) : State := on (chip0.setFlds l)

/-- The next state of an outcome. -/
def State.next (o : Out) : State := match o with
  | .next t => t
  | _ => State.reset

/-- The chip of a command's next state. -/
def chipOf (o : Out) : Chip := (State.next o).chip

/-- Core 0 running at level X with its code at 0, instance data at 0x10000000 and literals at 0x50000000. -/
def cpu (f : CoreSt → CoreSt) : State :=
  { State.reset with
    chip := { chip0 with xmap := [⟨0, 0x10000, 0x1000⟩, ⟨0x10000000, 0x10001000, 0x4000⟩, ⟨0x50000000, 0x50001000, 0x5000⟩] }
    cores := State.reset.cores.set 0 (f { CoreSt.atReset with run := .running, cstatus := 1#32 }) }

/-- Core 0 with some of its registers. -/
def cpuW (l : List (Fin 32 × Word)) : State := cpu fun c => { c with w := l.foldl (fun w p => w.set p.1 p.2) c.w }

/-- Core 0 with some of its F registers. -/
def cpuF (l : List (Fin 32 × DWord)) : State := cpu fun c => { c with f := l.foldl (fun w p => w.set p.1 p.2) c.f }

/-- A register of core 0 after an instruction. -/
def w0 (o : Out) (r : Fin 32) : Word := ((State.next o).core 0).rw r

/-- An F register of core 0 after an instruction. -/
def f0 (o : Out) (r : Fin 32) : DWord := ((State.next o).core 0).f[r]

/-- The flags of core 0 after an instruction. -/
def fl0 (o : Out) : Flags := ((State.next o).core 0).flags

/-! ## Well-formed commands -/

/-- A packet of 4 payload bytes that is well formed. -/
def packet : Packet :=
  { kind := 1, tc := 0, hops := 1, dst := 5, src := 6, dstMod := 0, srcMod := 0, dring := 64, sring := 64, seq := 1, tag := 0, quar := false
    retry := false, op := 1, len := 1, epoch := 0, sepoch := 0, addr := 0, payload := [0#8, 0#8, 0#8, 0#8] }

theorem wf_packet : (Instr.read packet).wf = true := by decide
theorem illformed_kind : (Instr.read { packet with kind := 16 }).wf = false := by decide
theorem illformed_tc : (Instr.write { packet with tc := 16 }).wf = false := by decide
theorem illformed_hops : (Instr.fetchadd { packet with hops := 256 }).wf = false := by decide
theorem illformed_dst : (Instr.cas { packet with dst := 4096 }).wf = false := by decide
theorem illformed_src : (Instr.ringput { packet with src := 4096 }).wf = false := by decide
theorem illformed_dstMod : (Instr.post { packet with dstMod := 256 }).wf = false := by decide
theorem illformed_srcMod : (Instr.response { packet with srcMod := 256 }).wf = false := by decide
theorem illformed_dring : (Instr.notice { packet with dring := 65536 }).wf = false := by decide
theorem illformed_sring : (Instr.announce 0 { packet with sring := 65536 }).wf = false := by decide
theorem illformed_seq : (Instr.sync 0 { packet with seq := 4294967296 } 0#32).wf = false := by decide
theorem illformed_tag : (Instr.dreq 0 { packet with tag := 4096 } 0#32).wf = false := by decide
theorem illformed_op : (Instr.drsp 0 { packet with op := 256 } 0#32).wf = false := by decide
theorem illformed_len : (Instr.read { packet with len := 256 }).wf = false := by decide
theorem illformed_epoch : (Instr.read { packet with epoch := 65536 }).wf = false := by decide
theorem illformed_sepoch : (Instr.read { packet with sepoch := 65536 }).wf = false := by decide
theorem illformed_addr : (Instr.read { packet with addr := 18446744073709551616 }).wf = false := by decide
theorem illformed_payload_words : (Instr.read { packet with payload := [0#8] }).wf = false := by decide
theorem illformed_payload_long : (Instr.read { packet with payload := List.replicate 260 0#8 }).wf = false := by decide +kernel

/-- A classical CAN frame of two bytes. -/
def canFrame : CanFrame := { id := 5#29, xtd := false, rtr := false, fdf := false, brs := false, esi := false, dlc := 2, data := [1#8, 2#8] }

theorem wf_canFrame : (Instr.canFrameReceive 0 canFrame 0#32).wf = true := by decide
theorem illformed_can_id : (Instr.canFrameReceive 0 { canFrame with id := 2048#29 } 0#32).wf = false := by decide
theorem illformed_can_fd_remote : (Instr.canFrameReceive 0 { canFrame with fdf := true, rtr := true, data := [] } 0#32).wf = false := by decide
theorem illformed_can_data : (Instr.canFrameReceive 0 { canFrame with data := [1#8] } 0#32).wf = false := by decide
theorem illformed_message_empty : (Instr.publishMessage 64 ⟨0x15, none⟩ [] .good).wf = false := by decide
theorem illformed_hart_reply : (Instr.hartResponse 0 (.reply 0#8 0#8 (List.replicate 256 0#8))).wf = false := by decide +kernel
theorem illformed_burst : (Instr.burstFrame 0 0#16 0#8 0#8 (List.replicate 256 0#8)).wf = false := by decide +kernel
theorem illformed_ethernet : (Instr.ethernetReceive 0 0 [] 0#32).wf = false := by decide
theorem illformed_window : (Instr.replayWindowSync [⟨0, 0, 0, 0, List.replicate 65 (0, none)⟩] []).wf = false := by decide
theorem illformed_resync_window : (Instr.resynchronisation [] [⟨0, 0, 0, 0, List.replicate 65 (0, none)⟩] [] []).wf = false := by decide
theorem illformed_forwarded_entry : (Instr.forwardedChange (.single 0 0#8 0 []) 0#64 false).wf = false := by decide
theorem illformed_forwarded_commit : (Instr.forwardedChange (.commit 0 0#8 [(0, [])]) 0#64 false).wf = false := by decide
theorem illformed_forwarded_record : (Instr.forwardedChange (.update 0#8 [(0, [])]) 0#64 false).wf = false := by decide
theorem illformed_status : (Instr.status (List.replicate 256 0#8)).wf = false := by decide +kernel
theorem illformed_recread : (Instr.recread (List.replicate 256 0#8)).wf = false := by decide +kernel
theorem illformed_almlist : (Instr.almlist (List.replicate 256 0#8)).wf = false := by decide +kernel
theorem illformed_almack : (Instr.almack (List.replicate 256 0#8)).wf = false := by decide +kernel
theorem illformed_unknownService : (Instr.unknownService (List.replicate 256 0#8)).wf = false := by decide +kernel

/-! ## The program cores -/

theorem witness_ArithmeticLogicAndShifts : (cpuW [(2, 7#32), (3, 9#32)]).ready 0 4 := by unfold State.ready; decide
theorem witness_long_form : (cpuW [(2, 7#32)]).ready 0 8 := by unfold State.ready; decide
theorem witness_MultiplyAndDivide_by_zero : (cpuW [(2, 7#32)]).ready 0 4 ∧ ((cpuW [(2, 7#32)]).core 0).rw 3 = 0#32 := by unfold State.ready; decide
theorem witness_MultiplyAndDivide_wide : ((cpuW [(2, 0x80000000#32), (3, 0xFFFFFFFF#32)]).core 0).rw 2 = 0x80000000#32 ∧
    ((cpuW [(2, 0x80000000#32), (3, 0xFFFFFFFF#32)]).core 0).rw 3 = 0xFFFFFFFF#32 := by decide
theorem witness_ConditionsAndImmediates : Claim.holds ((cpuW []).core 0).flags 8#4 ∧ ¬Claim.holds ((cpuW []).core 0).flags 0#4 := by
  constructor
  · exact (by decide : ¬ ((cpuW []).core 0).flags.z = true)
  · exact (by decide : ¬ ((cpuW []).core 0).flags.z = true)
theorem witness_JumpsAndCalls : (((cpuW [(2, 0x103#32)]).core 0).rw 2 + 1#32).toNat % 4 = 0 ∧ (((cpuW [(2, 0x103#32)]).core 0).rw 2).toNat % 4 ≠ 0 ∧
    ((cpuW [(2, 0x103#32)]).core 0).exl = false := by decide
/-- A function block's frame and instance. -/
def fb : State := cpuW [(2, 0x10000100#32), (31, 0x10000800#32), (28, 0x10000200#32), (30, 0x40#32)]
theorem witness_FunctionBlockFrames_called : (fb.core 0).pc.toNat % 4 = 0 ∧ ((fb.core 0).rw 31).toNat % 8 = 0 ∧ ((fb.core 0).rw 2).toNat % 16 = 0 ∧ fb.ready 0 8 ∧
    fb.map 0 .write ((fb.core 0).rw 31 - 8#32).toNat 4 = .at (.dram 0x1007F8) ∧ fb.map 0 .write ((fb.core 0).rw 31 - 4#32).toNat 4 = .at (.dram 0x1007FC) ∧
    (fb.core 0).sb.length ≤ 14 := by unfold State.ready; decide
theorem witness_FunctionBlockFrames_refused : ((cpuW [(31, 4#32)]).core 0).exl = false ∧ (((cpuW [(31, 4#32)]).core 0).rw 31).toNat % 8 ≠ 0 ∧
    ((cpuW [(2, 0x4FFFFFF8#32)]).core 0).rw 2 = 0x4FFFFFF8#32 ∧ (cpuW [(2, 0x10000010#32), (31, 0x20000000#32)]).map 0 .write 0x1FFFFFF8 4 = .denied := by decide
theorem witness_FunctionBlockFrames_below : ((cpu fun c => { c with cstatus := 0#32, stklim := 0x10000008#32 }).core 0).isX = false := by decide
theorem witness_FunctionBlockFrames_returned : ((fb.core 0).rw 31).toNat % 8 = 0 ∧ ((fb.core 0).rw 30).toNat % 4 = 0 ∧
    fb.map 0 .read ((fb.core 0).rw 31).toNat 4 = .at (.dram 0x100800) ∧ fb.map 0 .read ((fb.core 0).rw 31 + 4#32).toNat 4 = .at (.dram 0x100804) ∧
    Claim.loads fb 0 0x100800 4 0 ∧ Claim.loads fb 0 0x100804 4 0 := by
  refine ⟨by decide, by decide, by decide, by decide, ⟨by decide, .inl ⟨by decide, by decide⟩⟩, ⟨by decide, .inl ⟨by decide, by decide⟩⟩⟩
theorem witness_AccessesRefused_misaligned : (((cpuW [(2, 0x10000001#32)]).core 0).rw 2).toNat % 2 ≠ 0 ∧ ((cpuW []).core 0).exl = false := by decide
theorem witness_AccessesRefused_denied : (cpuW []).map 0 .read 0x20000000 4 = .denied ∧ (cpuW []).map 0 .read 0xE1500000 2 = .busError := by decide
theorem witness_Loads : (cpuW [(2, 0x10000008#32)]).map 0 .read 0x10000008 8 = .at (.dram 0x100008) ∧ Claim.loads (cpuW []) 0 0x100008 8 0 :=
  ⟨by decide, by decide, .inl ⟨by decide, by decide⟩⟩
/-- Core 0 with a byte store in its buffer. -/
def cpuSb : State := cpu fun c => { c with w := c.w.set 2 0x10000008#32, sb := [⟨.dram 0x100009, 0x10000009#32, 1, 0xAB, none⟩] }
theorem witness_Loads_forwarded : Claim.loads cpuSb 0 0x100009 1 0xAB :=
  ⟨by decide, .inr ⟨[], [], ⟨.dram 0x100009, 0x10000009#32, 1, 0xAB, none⟩, by decide, by decide, by decide, by decide, by decide⟩⟩
theorem witness_Loads_waits : cpuSb.map 0 .read 0x10000008 4 = .at (.dram 0x100008) ∧ cpuSb.ready 0 4 ∧
    (⟨.dram 0x100009, 0x10000009#32, 1, 0xAB, none⟩ : StoreEntry).overlaps (.dram 0x100008) 4 = true ∧
    (⟨.dram 0x100009, 0x10000009#32, 1, 0xAB, none⟩ : StoreEntry).contains (.dram 0x100008) 4 = false := by unfold State.ready; decide
theorem witness_Stores : (cpuW [(2, 0x10000008#32)]).map 0 .write 0x10000008 8 = .at (.dram 0x100008) ∧ ((cpuW []).core 0).sb.length < 16 := by decide
theorem witness_Stores_retire : cpuSb.chip.islandOn 0 = true ∧ (cpuSb.core 0).sb = [⟨.dram 0x100009, 0x10000009#32, 1, 0xAB, none⟩] := by decide
theorem witness_AtomicsSwap : (cpuW [(2, 0x10000008#32)]).map 0 .atomic 0x10000008 4 = .at (.dram 0x100008) ∧ ((cpuW []).core 0).sb = [] ∧
    BitVec.ofNat 32 (memRead (cpuW []).mem 4 0x100008) = ((cpuW []).core 0).rw 1 ∧ BitVec.ofNat 32 (memRead (cpuW []).mem 4 0x100008) ≠ ((cpuW [(1, 1#32)]).core 0).rw 1 := by decide
theorem witness_AtomicsSwap_outside : (0x50000000#32).toNat % 4 = 0 ∧ 0x50000000 ≤ (0x50000000#32).toNat ∧ ((cpuW []).core 0).exl = false := by decide
theorem witness_EdgesAndTimers_edge : (cpuW [(28, 0x10000000#32)]).map 0 .read 0x10000003 1 = .at (.dram 0x100003) ∧
    (cpuW [(28, 0x10000000#32)]).map 0 .write 0x10000003 1 = .at (.dram 0x100003) ∧ ((cpuW []).core 0).sb.length < 16 := by decide
theorem witness_EdgesAndTimers_slot : Claim.slotNamed ((cpuW [(2, 2047#32)]).core 0) 2047#32 2047 ∧ ∀ j, ¬Claim.slotNamed ((cpuW []).core 0) 2048#32 j := by
  constructor
  · exact .inl ⟨by decide, by decide, by decide⟩
  · rintro j (⟨_, rfl, h⟩ | ⟨h, _⟩)
    · exact absurd h (by decide)
    · exact absurd h (by decide)
theorem witness_EdgesAndTimers_done : (mapGet Slot.idle ((cpu fun c => { c with timers := [(3, ⟨0, false, true, 0⟩)] }).core 0).timers 3).running = true ∧
    (mapGet Slot.idle ((cpu fun c => { c with timers := [(3, ⟨0, false, true, 0⟩)] }).core 0).timers 3).remaining = 0 := by decide
theorem witness_ProcessImageAccesses : ((cpuW []).core 0).isX = true ∧ (((cpuW [(2, 0x3FFFC#32)]).core 0).rw 2).toNat < 0x40000 ∧
    0x40000 ≤ (((cpuW [(2, 0x40000#32)]).core 0).rw 2).toNat ∧ (((cpuW [(2, 0x1FFFFF#32)]).core 0).rw 2).toNat < 0x200000 ∧
    (((cpuW [(2, 1#32)]).core 0).rw 2).toNat % 2 ≠ 0 := by decide
theorem witness_Synchronisation : (∀ e ∈ (cpuSb.core 0).sb, ∃ a, e.place = .dram a) ∧ cpuSb.chip.writesOut 0 = [] ∧ cpuSb.chip.windowStores 0 = false ∧
    (∀ e ∈ cpuSb.chip.impErrs, e.1 ≠ 0) := by
  refine ⟨?_, by decide, by decide, by decide⟩
  intro e he
  have : e = ⟨.dram 0x100009, 0x10000009#32, 1, 0xAB, none⟩ := by simpa [cpuSb, cpu, State.core] using he
  exact ⟨0x100009, by rw [this]⟩
theorem witness_Synchronisation_failed : ({ cpuSb with chip := { cpuSb.chip with impErrs := [(1, 0#32), (0, 8#32)] } } : State).chip.impErrs =
    [(1, 0#32)] ++ (0, 8#32) :: [] ∧ cpuSb.ready 0 4 := by unfold State.ready; decide
theorem witness_ExceptionsAndInterrupts_level_T : ((cpu fun c => { c with cstatus := 0#32 }).core 0).isX = false ∧ ((cpu fun c => { c with cstatus := 0#32 }).core 0).exl = false := by decide
theorem witness_ExceptionsAndInterrupts_handler : ((cpu fun c => { c with cstatus := 0x11#32 }).core 0).exl = true ∧ (cpu fun c => { c with cstatus := 0x11#32 }).ready 0 4 := by
  unfold State.ready; decide
theorem witness_ExceptionsAndInterrupts_irq : 0 ∈ ({ chip0 with dispatchIrq := [0], doorbellIrq := [0] } : Chip).dispatchIrq ∧
    ((cpu fun c => { c with cstatus := 3#32 }).core 0).ie = true := by decide
theorem witness_ExceptionsAndInterrupts_release : (State.reset.core 0).run = .held ∧ ({ chip0 with sec := { chip0.sec with image := [0#8] } } : Chip).sec.image ≠ [] ∧
    chip0.islandOn 0 = true := by decide
theorem witness_FetchesAndFieldsRefused : (cpu fun c => { c with pc := 0x10000#32 }).fetchable 0 0x10000#32 = false ∧
    (cpu fun c => { c with pc := 0xFFFC#32 }).fetchable 0 0xFFFC#32 = true ∧ (cpu fun c => { c with pc := 0xFFFC#32 }).fetchable 0 0x10000#32 = false := by decide
theorem witness_FetchesAndFieldsRefused_wait : ((cpu fun c => { c with pc := 0x10000#32 }).core 0).run = .running ∧ ((cpu fun c => { c with pc := 0x10000#32 }).core 0).wait = none ∧
    (cpu fun c => { c with pc := 0x10000#32 }).chip.islandOn 0 = true ∧ ((cpu fun c => { c with pc := 0x10000#32 }).core 0).exl = false := by decide
theorem witness_CanonicalNaN : ((cpuF []).core 0).fcsr.toNat / 4096 % 32 = 0 ∧ (cpuF []).ready 0 4 := by unfold State.ready; decide
theorem witness_FloatingPointInstructions_nan : binary32.read 0x7FC00000 = .nan false := by decide
theorem witness_FloatingPointInstructions_integer : binary32.read 0x40400000 = .fin false 0xC00000 (-22) ∧ 0xC00000 * 2 ^ (-22 : Int).toNat = 3 * 2 ^ (22 : Int).toNat := by decide

/-- 7 + 0xFFFFFFFF wraps and carries (R155). -/
theorem test_add : w0 (exec (.add 0 1 2 3 true 0#4) (cpuW [(2, 7#32), (3, 0xFFFFFFFF#32)])) 1 = 6#32 ∧
    fl0 (exec (.add 0 1 2 3 true 0#4) (cpuW [(2, 7#32), (3, 0xFFFFFFFF#32)])) = ⟨false, false, true, false⟩ := by decide
/-- 5 - 7 borrows: C = 0 (R155). -/
theorem test_sub : w0 (exec (.sub 0 1 2 3 true 0#4) (cpuW [(2, 5#32), (3, 7#32)])) 1 = 0xFFFFFFFE#32 ∧
    (fl0 (exec (.sub 0 1 2 3 true 0#4) (cpuW [(2, 5#32), (3, 7#32)]))).c = false := by decide
/-- A quotient by zero is 0, a remainder by zero is ra, and V is set (R156). -/
theorem test_div_by_zero : w0 (exec (.div 0 1 2 3 true 0#4) (cpuW [(2, 5#32)])) 1 = 0#32 ∧ w0 (exec (.rem 0 1 2 3 true 0#4) (cpuW [(2, 5#32)])) 1 = 5#32 ∧
    (fl0 (exec (.div 0 1 2 3 true 0#4) (cpuW [(2, 5#32)]))).v = true := by decide
/-- W0 stays 0 (R139). -/
theorem test_w0 : w0 (exec (.addi 0 0 2 5#16) (cpuW [(2, 5#32)])) 0 = 0#32 := by decide
/-- JALR reads ra before it writes rd (R166). -/
theorem test_jalr : ((State.next (exec (.jalr 0 2 2 4#16) (cpuW [(2, 0x100#32)]))).core 0).pc = 0x104#32 ∧
    w0 (exec (.jalr 0 2 2 4#16) (cpuW [(2, 0x100#32)])) 2 = 4#32 := by decide
/-- A store is seen by a load before it retires (R200). -/
theorem test_forward : w0 (exec (.lbu 0 1 2 1#16) cpuSb) 1 = 0xAB#32 := by decide
/-- TSTART with preset 0 is done at once (R173). -/
theorem test_tstart : w0 (exec (.tdone 0 1 2 0 false 0#4) (State.next (exec (.tstart 0 0 2 3 false 0#4) (cpuW [(2, 9#32)])))) 1 = 1#32 := by decide
/-- 1.0 + 2.0 = 3.0 in binary32 (R181). -/
theorem test_fadd : f0 (exec (.fadd 0 1 2 3 false 0#4) (cpuF [(2, 0x3F800000#64), (3, 0x40000000#64)])) 1 = 0x40400000#64 := by decide
/-- SVC returns behind itself (R212). -/
theorem test_svc : ((State.next (exec (.svc 0 5#20) (cpuW []))).core 0).epc = 4#32 ∧ ((State.next (exec (.svc 0 5#20) (cpuW []))).core 0).ecause = 12#32 := by decide


/-! ## Registers, islands and rings -/

/-- A chip that no reset holds, 10 s after its start. -/
def up : Chip := { chip0 with power := { chip0.power with reset := none, risen := true }, now := 10000000000 }

/-- The chip of a state without reset, with register fields. -/
def upRegs (l : List (Fld × Nat)) : Chip := up.setFlds l

theorem witness_ClosedIslandsAnswerBusError : ∀ i : Island, (chip0.setIslandState i.val 3).islandOn i.val = false := by decide
theorem witness_ClosedIslandsAnswerBusError_access : sizeBytes .half ≠ 4 ∧ (0xE1500002#32).toNat % 4 ≠ 0 ∧ (0xE07FFFFC#32).toNat < 0xE0800000 ∧
    0xE17FFFFF < (0xE1800000#32).toNat ∧ 0x15 ∉ chip0.writesOut 0 := by decide
theorem witness_RegistersAndCounters_write : EV_HSHELF / 0x100000 = 0x14 ∧ isBanked EV_HSHELF = false ∧ EV_HSHELF ≠ BT_FLREQ ∧ EV_HSHELF ≠ EV_HCFG ∧
    up.islandOn 0x14 = true ∧ (∃ d, regDesc EV_HSHELF = some d ∧ d.hasLock = false) := by
  refine ⟨?_, ?_, ?_, ?_, ?_, (regDesc EV_HSHELF).get (by decide +kernel), ?_, ?_⟩ <;> decide +kernel
theorem witness_RegistersAndCounters_cross : planeOf 0 ≠ planeOf 0x15 ∧ planeOf 0x12 = planeOf 0x14 ∧
    ({ up with inflight := [⟨1, 0x900000, 0#32, false, false⟩, ⟨0, 0x800004, 1#32, false, false⟩] } : Chip).inflight = [⟨1, 0x900000, 0#32, false, false⟩] ++ ⟨0, 0x800004, 1#32, false, false⟩ :: [] ∧
    islandOf 0x800004 = 8 ∧ up.islandOn 8 = true ∧ planeOf 0 = planeOf 8 := by decide
theorem witness_RegistersAndCounters_counter : 0x800000 ≤ EV_HLOST_LO ∧ EV_HLOST_LO % 4 = 0 ∧ counterAt EV_HLOST_LO = some (EV_HLOST_LO, false) ∧
    up.islandOn (EV_HLOST_LO / 0x100000) = true ∧ ((up.setReg EV_HLOST_LO 0xFFFFFFFF#32).setReg (EV_HLOST_LO + 4) 0xFFFFFFFF#32).counter EV_HLOST_LO = 2 ^ 64 - 1 := by decide
/-- Ring 64 enabled, with room for one buffer. -/
def ring1 (drop : Bool) : Chip := { up with pool := up.pool.setRing 64 ⟨0, 1, true, drop, 0, 0, 0, []⟩ }
theorem witness_PoolRings_fits : ((ring1 false).pool.ring 64).en = true ∧ (∀ h ∈ (ring1 false).pool.held, h.ring ≠ 64) ∧
    (⟨[1#8], false, 0, none⟩ : Msg).need = 1 ∧ (ring1 false).pool.take 64 1 0 = 1 ∧ (up.pool.ring 64).en = false := by decide
theorem witness_PoolRings_full : (⟨List.replicate 257 1#8, false, 0, none⟩ : Msg).need = 2 ∧ (ring1 true).pool.take 64 2 0 ≠ 2 ∧
    ((ring1 true).pool.ring 64).drop = true ∧ ((ring1 false).pool.ring 64).drop = false ∧ (ring1 false).pool.take 64 2 0 = 1 := by decide +kernel
theorem witness_PoolRings_consumer : (({ up with pool := up.pool.setRing 64 ⟨0, 1, true, false, 0, 0, 0, [⟨[1#8], false, 0, none⟩]⟩ } : Chip).pool.ring 64).queue =
    [⟨[1#8], false, 0, none⟩] := by decide
theorem witness_PoolRings_limits : up.islandOn 0x17 = true ∧ up.ringSel 0 = 0 ∧ (up.setReg (banked SG_RINGSEL 0) 64#32).ringSel 0 = 64 ∧
    ((ring1 false).pool.ring 64).max < (2#32).toNat % 2 ^ 18 ∧ (1#32).toNat % 2 ^ 18 ≤ ((ring1 false).pool.ring 64).max ∧
    (ring1 false).pool.resvSum - ((ring1 false).pool.ring 64).resv + 1 ≤ 131072 ∧
    (0#32).toNat < (({ up with pool := up.pool.setRing 64 ⟨1, 1, true, false, 0, 0, 0, []⟩ } : Chip).pool.ring 64).resv := by decide

/-! ## Modes, key switch, power, resets -/

/-- A host request for PROGRAM with TAG 5. -/
def toProgram : Word := putF MG_MODEREQ_TAG (putF MG_MODEREQ_TARGET 0#32 3) 5
/-- SAFE-HOLD with the key in PROGRAM and that request pending. -/
def asked : State := on { upRegs [(MG_MODE_CUR, 2), (MG_KEYSW_POS, 2)] with ctl := { up.ctl with queue := [⟨.host 3, 5⟩] } }
theorem witness_ModeController_request : up.islandOn 0x15 = true ∧ up.ctl.queue.length < 8 ∧ getF MG_MODEREQ_TARGET toProgram = toProgram.toNat % 8 ∧
    8 ≤ ({ up.ctl with queue := List.replicate 8 ⟨.host 3, 5⟩ } : ModeCtl).queue.length := by decide
theorem witness_ModeController_starts : asked.chip.ctl.trans = none ∧ asked.chip.ctl.flushing = none ∧ asked.chip.ctl.flush = false ∧ asked.chip.ctl.fatal = false ∧
    asked.chip.ctl.key = none ∧ nextReq asked.chip.ctl.queue = some ⟨.host 3, 5⟩ ∧
    (asked.onChip fun d => d.onCtl fun y => { y with queue := [] }).modeRefusal 3 = none ∧
    (asked.onChip fun d => d.onCtl fun y => { y with queue := [] }).modeRefusal 7 = some 2 := by decide
theorem witness_ModeController_power : nextReq [⟨.power 0 1, 5⟩] = some ⟨.power 0 1, 5⟩ ∧ (on (upRegs [(MG_MODE_CUR, 3)])).powerRefusal 0 1 = none ∧
    (upRegs [(MG_MODE_CUR, 3)]).islandState 0 ≠ 1 := by decide
/-- A transition to PROGRAM that waits for islands 1 and 2. -/
def going : Trans := ⟨3, none, some 5, [1, 2], 0, false⟩
theorem witness_ModeController_acknowledge : 1 ∈ going.waiting ∧ going.waiting.filter (· ≠ 1) ≠ [] ∧ 3 ∉ going.waiting ∧
    ({ going with waiting := [1], island := some 1, goal := 0 } : Trans).waiting = [1] := by decide
theorem witness_ModeController_timeout : going.since + 1000000 ≤ up.mono ∧ (upRegs [(MG_MODE_CUR, 1)]).mode = 1 ∧ chip0.mono < going.since + 1000000 := by decide
theorem witness_KeySwitch_change : (up.fld MG_KEYSW_CONTACT_A ≠ (1#4).toNat ∨ up.fld MG_KEYSW_CONTACT_B ≠ (1#4).toNat) ∧
    up.fld MG_KEYSW_CONTACT_A = (0#4).toNat ∧ up.fld MG_KEYSW_CONTACT_B = (0#4).toNat := by decide
theorem witness_KeySwitch_position : (upRegs [(MG_KEYSW_CONTACT_A, 4), (MG_KEYSW_CONTACT_B, 4)]).keyShown = some 2 ∧ up.power.reset = none ∧ up.monoBase ≤ up.key.since ∧
    up.key.since + 20000000 ≤ up.now := by decide
theorem witness_KeySwitch_fault : up.keyFaultDue = true ∧ chip0.keyFaultDue = false := by decide
theorem witness_KeySwitch_moves : (upRegs [(MG_MODE_CUR, 3)]).mode = 3 ∧ keyMoves 3 1 = some 2 ∧ keyMoves 3 2 = none ∧ keyMoves 4 0 = some 5 ∧ keyMoves 7 3 = none := by decide
theorem witness_LogicPower_failure : ({ up.power with lowAt := some 5 } : Power).lowAt = some 5 ∧ up.power.risen = true ∧ up.power.failAt = none ∧ 5 + 200000 ≤ up.now ∧
    100000000 ≤ (100000000#64).toNat ∧ 5 + (100000000#64).toNat ≤ up.now := by decide
theorem witness_LogicPower_profile : (upRegs [(PW_FLUSHCTL_ARM, 1)]).flag PW_FLUSHCTL_ARM = true ∧ up.power.ran = false ∧ up.ctl.flushing = none ∧
    5 + 200000 + up.fld PW_FLUSHCTL_RIDE_MS * 1000000 ≤ up.now ∧ up.flag PW_FLUSHCTL_ARM = false ∧ up.fld PW_FLUSHCTL_RIDE_MS ≤ 2000 ∧ (on up).profileAllowed = true ∧
    2000 < (upRegs [(PW_FLUSHCTL_RIDE_MS, 2001)]).fld PW_FLUSHCTL_RIDE_MS ∧ up.islandOn 0x15 = true := by decide
theorem witness_LogicPower_lost : up.power.lostA = false ∧ up.power.lowAt = none := by decide
theorem witness_Resets : (∀ x, up.power.reset ≠ some (1, x)) ∧ inReset.power.reset = some (1, 0) ∧ (1999#32).toNat < 2000 ∧ 2000 ≤ (2000#32).toNat ∧ 2 ≤ (2 : Fin 7).val ∧
    ({ up with power := { up.power with reset := some (2, 0) } } : Chip).power.reset = some (2, 0) := by
  refine ⟨?_, by decide, by decide, by decide, by decide, by decide⟩
  intro x h
  cases h
theorem witness_BootAndBlocks_boot : inReset.power.reset ≠ none ∧ inReset.power.lowAt = none ∧ up.mode = 0 ∧ up.sec.testOpen = false ∧ up.sec.image = [] ∧
    (upRegs [(MG_MODE_CUR, 3)]).mode ≠ 0 := by decide
theorem witness_BootAndBlocks_clock : (upRegs [(MG_STRAP_CLKSEL, 1)]).flag MG_STRAP_CLKSEL = true ∧ (upRegs [(MG_STRAP_CLKSEL, 1)]).flag MG_STRAP_CLK_FALLBACK = false ∧
    10000000 ≤ up.mono := by decide
theorem witness_BootAndBlocks_writes : getF MG_PINREL_RELEASE 1#32 = 1 ∧ getF MG_PINREL_RELEASE 0#32 = 0 ∧ (upRegs [(MG_MODE_CUR, 7)]).mode = 7 ∧
    up.blockRefusal (getF MG_BLKRST_TARGET 0xB#32) = some 4 ∧ up.blockRefusal (getF MG_BLKRST_TARGET 7#32) = none ∧ getF MG_BLKRST_TARGET 7#32 < 8 := by decide
theorem witness_BootAndBlocks_idle : ({ up.ctl with blk := some (7, 0) } : ModeCtl).blk = some ((7 : Fin 8).val, 0) ∧ 0 + up.fld MG_BLKCFG_TIMEOUT * 1000 ≤ up.mono := by decide
theorem witness_BootAndBlocks_store : ({ up with toStore := [MG_STARTCFG], energy := needProgram } : Chip).breath needProgram = true ∧ up.storeDef = none := by decide

/-! ## Tasks and patches -/

/-- A DRAM with values at places: place, width, value. -/
def dram (l : List (Nat × Nat × Nat)) : List Host.Cell := l.foldl (fun m p => memWrite m p.2.1 p.1 p.2.2) []

/-- A descriptor at 0x4000: PERIOD 250 µs, WD 250 µs, core 0, code, instance data and constants of 64 bytes, no map. -/
def descriptor : List Host.Cell :=
  dram [(0x4000, 4, 250), (0x4008, 4, 250), (0x4038, 4, 0x10000000), (0x4044, 4, 0x40), (0x4048, 4, 0x400), (0x4050, 4, 0x10000000), (0x4054, 4, 0x10000040),
    (0x4058, 4, 0x401), (0x4060, 4, 0x10000000), (0x4064, 4, 0x10000000), (0x4070, 4, 0x50000000), (0x4074, 4, 0x50000040), (0x4078, 4, 0x402)]

/-- PROGRAM mode with that descriptor in DRAM. -/
def inProgram (l : List (Fld × Nat)) : State := { on (upRegs ((MG_MODE_CUR, 3) :: l)) with mem := descriptor }

theorem witness_TasksAndCycles_enable : (inProgram []).chip.islandOn 0x15 = true ∧ (inProgram []).chip.mode = 3 ∧
    (inProgram []).chip.flag (MG_TASKDESC_ENABLE 0) = false ∧ ((inProgram []).onChip fun d => d.setFld (MG_TASKDESC_ADDR 0) 0x100).enableReason 0 = 0 := by decide +kernel
theorem witness_TasksAndCycles_refused : ((inProgram []).onChip fun d => d.setFld (MG_TASKDESC_ADDR 0) 0x101).enableReason 0 = 1 ∧
    ((inProgram []).onChip fun d => d.setFld (MG_TASKDESC_ADDR 0) 0x101).tPeriod 0 < 250 ∧
    (inProgram [(MG_TASKDESC_ENABLE 0, 1)]).chip.flag (MG_TASKDESC_ENABLE 0) = true ∧ ¬(up.mode = 3 ∨ up.mode = 7) := by decide +kernel
/-- Task 0 in a run, its next boundary at 10 s. -/
def task0 (dead : Option Nat) : TaskRun := ⟨4, 10000000000, 9000000000, 0, 3, dead, false, 250000, some [1#8], []⟩
/-- RUN with that task. -/
def running (dead : Option Nat) : Chip := { upRegs [(MG_MODE_CUR, 4), (MG_TASKDESC_ENABLE 0, 1)] with cyc := { up.cyc with epoch := some 0, tasks := [(0, task0 dead)], cur := [(2, 1)] } }
theorem witness_TasksAndCycles_boundary : (running none).run 0 = some (task0 none) ∧ (task0 none).next ≤ (running none).mono ∧ (task0 none).dead = none ∧
    (running none).handingOver = false ∧ (running none).pairedStandby = false ∧ (∀ p ∈ (running none).cyc.patches, p.task ≠ 0) ∧
    ({ running none with now := 0 } : Chip).mono < (task0 none).next := by decide
theorem witness_TasksAndCycles_late : (running (some 10000000000)).run 0 = some (task0 (some 10000000000)) ∧
    ∃ x, (task0 (some 10000000000)).dead = some x ∧ x ≤ (running (some 10000000000)).mono ∧ x ≤ (task0 (some 10000000000)).next :=
  ⟨by decide, 10000000000, by decide, by decide, by decide⟩
theorem witness_TasksAndCycles_end : (running none).islandOn 0x15 = true ∧ (0x30#32).toNat % 16 = 0 ∧ mapGet 0 (running none).cyc.cur 2 = 0 + 1 ∧
    mapGet 0 (running none).cyc.cur 1 ≠ 0 + 1 := by decide
theorem witness_TasksAndCycles_remote : ({ on (ring1 false) with mem := dram [(0x1E, 2, 64)] } : State).tRring 0 = 64 ∧
    (({ ring1 false with pool := up.pool.setRing 64 ⟨0, 1, true, false, 0, 0, 0, [⟨[1#8], false, 0, none⟩]⟩ } : Chip).head? 64) = some ⟨[1#8], false, 0, none⟩ ∧
    (task0 none).snap = some [1#8] ∧ ({ task0 none with snap := none } : TaskRun).snap = none := by decide
/-- A patch set of task 0 that is due. -/
def patch0 : PatchSet := ⟨0, 9, 0, 1, 0, true⟩
theorem witness_PatchSets_request : (running none).islandOn 0x15 = true ∧ (running none).mode = 4 ∧ (running none).flag (MG_TASKDESC_ENABLE 0) = true ∧
    (running none).cyc.patches.length < 4 ∧ (0x00000400#32).toNat % 2048 = 1024 ∧ (0x00000401#32).toNat % 2048 = 1025 ∧
    (running none).reg MG_PATCHTGT_LO = 0#32 ∧ ¬({ up.cyc with patches := [patch0, patch0, patch0, patch0] } : Cyc).patches.length < 4 := by decide
theorem witness_PatchSets_past : 5 ≠ 0 ∧ 5 < ((running none).setReg (MG_TASKCYC_LO 0) 6#32).counter (MG_TASKCYC_LO 0) := by decide
theorem witness_PatchSets_done : ({ up.cyc with patches := [{ patch0 with due := false }, patch0] } : Cyc).patches = [{ patch0 with due := false }] ++ patch0 :: [] ∧
    patch0.due = true ∧ patch0.task = (1#32).toNat / 16 % 16 ∧ (on up).tCore 0 = 0 ∧ 1 ≤ (1#32).toNat % 16 ∧ (1#32).toNat % 16 ≤ 3 := by decide

/-- A task that passes is enabled, with its locks (R228, R229). -/
theorem test_task_enable : (chipOf (exec (.taskEnable 0 0 0x80000100#32) (inProgram []))).locks = [⟨0x4000, 256, 0⟩, ⟨0, 0, 0⟩, ⟨0, 0, 0⟩] ∧
    (chipOf (exec (.taskEnable 0 0 0x80000100#32) (inProgram []))).flag (MG_TASKDESC_ENABLE 0) = true := by decide +kernel

/-! ## The loop engine -/

/-- A stage record with some words. -/
def record (l : List (Nat × Word)) : List Word := (List.range 32).map (mapGet 0#32 l)
/-- A PID stage in MANUAL whose manual value is above OUTHI. -/
def pidRec : List Word := record [(0, 1#32), (16, 100#32), (17, 0xFFFFFF9C#32), (19, 200#32)]
/-- An input that is used and good. -/
def inp (x : Int) : InVal := ⟨true, x, false, true, false, false⟩
/-- A RATELIM stage in automatic that rises by 3 and falls by 2 at most. -/
def rateRec : List Word := record [(0, 0x24#32), (8, 3#32), (9, 2#32), (16, 100#32), (17, 0xFFFFFF9C#32)]
theorem witness_StageLawsAndFrames_laws : pidRec.length = 32 ∧ recLo pidRec ≤ recHi pidRec ∧ recType pidRec = tPid ∧ recMode pidRec = 0 ∧
    (({ ins := [inp 1], cascade := 5, track := none, child := false, first := false, delayed := 0, told := false } : EvalIn).inp 0).bad = false ∧ recMode (pidRec.set 0 0x41#32) = 2 := by decide +kernel
theorem witness_StageLawsAndFrames_rate : recType rateRec = tRateLim ∧ recMode rateRec ≠ 0 ∧ 0 ≤ recC rateRec 0 ∧ 0 ≤ recC rateRec 1 ∧ recLo rateRec ≤ recState rateRec 0 ∧
    recState rateRec 0 ≤ recHi rateRec ∧ (({ ins := [inp 50], cascade := 5, track := none, child := false, first := false, delayed := 0, told := false } : EvalIn).x 0) = 50 := by decide +kernel
/-- RUN with an enabled PID stage 0 due in each frame. -/
def engine : Chip := { (upRegs [(MG_MODE_CUR, 4)]).setRec 0 (record [(0, 0x11#32), (1, 1#32), (16, 100#32), (19, 200#32)]) with
  loop := { up.loop with epoch := some 9999968750, frame := 1, due := [0] } }
theorem witness_StageLawsAndFrames_frame : engine.loop.epoch = some 9999968750 ∧ ¬(engine.mono < 9999968750 + engine.counter LE_FRAME_LO * 31250) ∧
    ({ engine with now := 9999968749 } : Chip).mono < 9999968750 + 0 ∧ up.loop.epoch = none := by decide +kernel
theorem witness_StageLawsAndFrames_stage : 0 ∈ engine.loop.due ∧ engine.mustWait 0 = false ∧ 0 ∉ engine.loop.forced ∧ 0 ∉ engine.loop.firsts ∧
    recType (engine.stageRec 0) ≠ tModel1 ∧ recOutDst (engine.stageRec 0) = 0 ∧ engine.flag LE_TRCCTL_ARM = false ∧ engine.flag LE_TRCSTAT_TRIGGERED = false ∧
    recMode (engine.stageRec 0) ≠ 2 := by decide +kernel
theorem witness_StageLawsAndFrames_remote : recEnable (record [(0, 0x100011#32), (3, 0x10000#32)]) = true ∧ recType (record [(0, 0x100011#32), (3, 0x10000#32)]) = tPid ∧
    recRemoteSp (record [(0, 0x100011#32), (3, 0x10000#32)]) = true ∧ recRtmo (record [(0, 0x100011#32), (3, 0x10000#32)]) = 1 ∧
    (recFlags (record [(0, 0x100011#32), (3, 0x10000#32)])).getLsbD 20 = false ∧ 0 + 1 ≤ engine.loop.frame := by decide +kernel
theorem witness_StageChanges_direct : engine.islandOn 8 = true ∧ recEnable (engine.stageRec 0) = true ∧ recEnable (engine.stageRec 1) = false ∧
    modeOnly (engine.stageRec 0) 0x31#32 = true ∧ modeOnly (engine.stageRec 0) 0x12#32 = false := by decide +kernel
/-- The engine with a valid staged record for stage 0. -/
def staged : Chip := (((engine.setReg (LE_STAGING 0) 0x11#32).setReg (LE_STAGING 1) 1#32).setReg (LE_STAGING 4) 0xFFFFFFFF#32).setReg (LE_STAGING 5) 0xFFFFFFFF#32
theorem witness_StageChanges_commit : engine.mode ≠ 5 ∧ engine.mode ≠ 1 ∧ engine.loop.upd = none ∧ engine.running = true ∧ (0x41#32).toNat % 128 = 65 ∧
    (1#32).toNat % 128 = 1 ∧ staged.checkSet (staged.stagedRecs 1) = none ∧ up.running = false ∧ engine.loop.frame = 1 ∧
    (((engine.setFld (LE_UPDMAP_STAGE 0) 5).setReg (LE_STAGING 0) 0xF#32).checkSet (((engine.setFld (LE_UPDMAP_STAGE 0) 5).setReg (LE_STAGING 0) 0xF#32).stagedRecs 1)).isSome = true := by decide +kernel
theorem witness_StageChanges_disable : recEnable (engine.stageRec 0) = true ∧ (engine.enabledStages.any fun j => j != 0) = false := by decide +kernel
theorem witness_StageChanges_tap : (0x80000000#32).getLsbD 31 = true ∧ up.flag (LE_TAPSEL_ENABLE 0) = false ∧ ¬29000 < scheduleBound up.config 1 := by decide +kernel
theorem witness_TracesAndRemoteSetpoints_trace : up.islandOn 8 = true ∧ (0x80000000#32).getLsbD 31 = true ∧ (0x80000000#32).getLsbD 30 = false ∧ (0xC0000000#32).getLsbD 30 = true ∧
    up.flag LE_TRCCTL_ARM = false ∧ up.streaming = false ∧ (upRegs [(LE_TRCCTL_ARM, 1)]).flag LE_TRCCTL_ARM = true ∧ (upRegs [(LE_TRCCTL_ARM, 1)]).flag LE_TRCSTAT_TRIGGERED = false ∧
    ({ up with loop := { up.loop with stream := 70 }, pool := { up.pool with held := [⟨70, 0, ⟨[], false, 8, none⟩⟩] } } : Chip).streaming = true := by decide +kernel
/-- A set-point message of kind `kind` for stage `stage`. -/
def spMsg (kind stage : Byte) : Msg := ⟨[kind, 0#8, stage, 0#8] ++ List.replicate 28 0#8, false, 0x12, none⟩
/-- The engine with that message in ring 80, stage 0 remote-fed. -/
def fed (m : Msg) : Chip := { (upRegs [(LE_RSPCFG_ENABLE, 1), (LE_RSPCFG_RXRING, 80)]).setRec 0 (record [(0, 0x100011#32)]) with
  pool := up.pool.setRing 80 ⟨0, 1, true, false, 0x12, 0x08, 0, [m]⟩ }
theorem witness_TracesAndRemoteSetpoints_setpoint : (fed (spMsg 1 0)).head? ((fed (spMsg 1 0)).fld LE_RSPCFG_RXRING) = some (spMsg 1 0) ∧
    (fed (spMsg 1 0)).flag LE_RSPCFG_ENABLE = true ∧ ((fed (spMsg 1 0)).pool.ring 80).prod = 0x12 ∧ ((fed (spMsg 1 0)).pool.ring 80).cons = 0x08 ∧ (up.pool.ring 0).prod ≠ 0x12 ∧ bytesAt (spMsg 1 0).bytes 0 1 = 1 ∧ bytesAt (spMsg 1 0).bytes 2 2 = 0 ∧
    recEnable ((fed (spMsg 1 0)).stageRec 0) = true ∧ recType ((fed (spMsg 1 0)).stageRec 0) = tPid ∧ recRemoteSp ((fed (spMsg 1 0)).stageRec 0) = true ∧
    bytesAt (spMsg 1 0).bytes 16 8 = 0 ∧ recRemoteSp ((fed (spMsg 1 1)).stageRec 1) = false ∧ bytesAt (spMsg 2 0).bytes 0 1 = 2 ∧ up.flag LE_RSPCFG_ENABLE = false := by decide +kernel

/-- OUTHI limits a manual value (R299). -/
theorem test_out_limit : recOutV (evalStage pidRec ⟨[inp 1], 0, none, false, false, 0, false⟩ 7).words = 100 := by decide +kernel
/-- A RATELIM output rises by RISE (R294). -/
theorem test_ratelim : recOutV (evalStage rateRec ⟨[inp 50], 0, none, false, false, 0, false⟩ 7).words = 3 := by decide +kernel

/-! ## Channels -/

/-- A chip with one channel 0. -/
def ch (f : Chan → Chan) : Chip := { up with chans := [(0, f Chan.unused)] }
/-- A table entry with some bytes. -/
def entry (l : List (Nat × Byte)) : List Byte := (List.range 176).map (mapGet 0#8 l)
/-- A channel of a range at 1 kHz, limits 0 to 100 with hysteresis 10. -/
def analog (range : Byte) (source : Byte) (x : Chan) : Chan :=
  { x with entry := entry [(1, 1#8), (0x10, range), (0x11, 5#8), (0x12, 8#8), (0x40, source), (0x96, 1#8), (0x98, 100#8), (0xA0, 10#8)] }
theorem witness_SamplesAndTriggers_sample : let x := (ch (analog 8 0)).chan 0
    eSource x.entry = 0 ∧ eActive x.entry ≠ 0 ∧ x.window = none ∧ x.ended = [] ∧ x.svcEnd = none ∧ ((ch (analog 8 0)).setFlds [(CG_LINKSTAT_UP 0, 1)]).flag (CG_LINKSTAT_UP 0) = true ∧
    10000000000 = 10000 * 1000000000 / rateHz (eRate x.entry) ∧ up.mono < 10001 * 1000000000 / rateHz (eRate x.entry) ∧
    x.readyAt + windowNs x.entry + 6000 ≤ 10000000000 ∧ x.since + 6000 < 10000000000 ∧ x.samples = [] := by decide +kernel
theorem witness_SamplesAndTriggers_delivered : let x := (ch fun y => { analog 8 0 y with samples := [⟨0#32, 0, 10000000000⟩] }).chan 0
    ∃ q, x.samples.head? = some q ∧ 10000000000 ≤ q.stamp := ⟨_, rfl, by decide⟩
theorem witness_SamplesAndTriggers_trigger : let x := (ch fun y => { analog 8 2 y with arrivals := [9000000000] }).chan 0
    x.arrivals = 9000000000 :: [] ∧ 9000000000 ≤ up.mono ∧ eActive x.entry ≠ 0 ∧ eSource x.entry ≥ 2 ∧ x.readyAt ≤ 9000000000 ∧ x.window = none ∧
    x.lastArr ≠ some (9000000000 / 25) ∧ ({ x with lastArr := some 360000000 } : Chan).lastArr = some (9000000000 / 25) ∧ x.ovr < 2 ^ 64 - 1 ∧
    (∀ a ∈ x.arrivals, chip0.mono < a) := by decide +kernel
theorem witness_SamplesAndTriggers_live : up.islandOn 0x0A = true ∧ isAo 0x20 = true ∧ hasWireBreak 1 = true ∧ hasShort 1 = true ∧ isAo 8 = false ∧ hasWireBreak 8 = false ∧
    hasShort 8 = false := by decide
theorem witness_SamplesAndTriggers_limits : let e := (analog 8 0 Chan.unused).entry
    eLimEn e = true ∧ eLimHi e < 101 ∧ 89 < eLimHi e - eLimHyst e ∧ eLimHi e - eLimHyst e ≤ 90 ∧ -1 < eLimLo e ∧ eLimLo e + eLimHyst e < 11 := by decide +kernel
theorem witness_RotationAndReference_round : (∀ t, (up.grp 0).lastStart = some t → t + up.fld (CG_CALCTL_ROTPERIOD 0) * 1000000000 ≤ up.mono) ∧
    (up.grp 0).round = none ∧ ({ up.grp 0 with round := some 5 } : Grp).round ≠ none ∧ ((ch (analog 8 0)).setFlds [(CG_CALCTL_ROTEN 0, 1)]).rotList 0 ≠ [] :=
  ⟨fun t h => absurd (show (none : Option Nat) = some t from h) (by intro h; cases h), by decide, by decide, by decide +kernel⟩
theorem witness_RotationAndReference_early : ¬(∀ t, ({ up.grp 0 with lastStart := some 9500000000 } : Grp).lastStart = some t → t + 1 * 1000000000 ≤ up.mono) := by
  intro h
  exact absurd (h 9500000000 rfl) (by decide)
theorem witness_RotationAndReference_phases : (Rot.attach ≠ Rot.reattach ∧ ({ Chan.unused with rot := .calibrate } : Chan).rot = .calibrate) ∧
    ({ up.grp 0 with todo := [0], round := some 5 } : Grp).todo = [0] ∧ (up.grp 0).nextLate = false ∧ (6000#16).toInt.natAbs ≤ 6000 ∧ 6000 < (6001#16).toInt.natAbs ∧
    2000 < (2001#16).toInt.natAbs ∧ up.flag (CG_CALSTAT_REFFAULT 0) = false ∧ up.flag (CG_CALSTAT_FROZEN 0) = false := by decide
theorem witness_RotationAndReference_service : up.islandOn 0x0A = true ∧ (0x80000000#32).getLsbD 31 = true ∧ (upRegs [(MG_MODE_CUR, 7)]).mode = 7 ∧
    (upRegs [(MG_MODE_CUR, 7)]).flag (CG_SVCSTAT_BUSY 0) = false ∧ eActive ((ch (analog 8 0)).chan 0).entry ≠ 0 ∧ eActive (up.chan 1).entry = 0 ∧
    ({ Chan.unused with svcEnd := some 5 } : Chan).svcEnd = some 5 ∧ 5 ≤ up.mono := by decide +kernel
/-- An analogue output of 4–20 mA with the command received. -/
def output : Chip := { (ch fun y => { analog 0x20 0 y with got := some 7#32 }) with sec := { up.sec with package := [1#8] } }
theorem witness_OutputsAndHart_output : (output.chan 0).isOutput = true ∧ output.flag (CG_LINKSTAT_SAFE 0) = false ∧ output.flag (CG_FPSTAT_MISSING 0) = false ∧
    (output.grp 0).filling = false ∧ output.sec.package ≠ [] ∧ eMode (output.chan 0).entry = 0 ∧ (output.chan 0).ramp = none ∧ (output.chan 0).got = some 7#32 ∧
    (up.chan 0).isOutput = false ∧ up.sec.package = [] := by decide +kernel
theorem witness_OutputsAndHart_ramp : let r : Ramp := ⟨10000000001, 0, none⟩
    up.mono < r.stop ∧ ({ r with stop := 9999999975, held := some 7#32 } : Ramp).stop + 25 ≤ up.mono ∧ ({ r with held := some 7#32 } : Ramp).held = some 7#32 := by decide
/-- A HART channel 0 with one request waiting, and a request for it in ring 70. -/
def hart : Chip := { ((ch fun y => { y with entry := (analog 4 0 y).entry.set 0x70 1#8, hart := [⟨3, 1, false, []⟩], samples := [⟨0#32, 20 * 2 ^ 32, 5⟩] }).setFlds [(CG_HARTCFG_ENABLE 0, 1), (CG_HARTCFG_REQRING 0, 70)]) with
  pool := up.pool.setRing 70 ⟨0, 1, true, false, 0, 0x0A, 0, [⟨List.replicate 16 0#8, false, 0, none⟩]⟩ }
theorem witness_OutputsAndHart_request : hart.head? (hart.fld (CG_HARTCFG_REQRING 0)) = some ⟨List.replicate 16 0#8, false, 0, none⟩ ∧ hart.flag (CG_HARTCFG_ENABLE 0) = true ∧
    bytesAt (List.replicate 16 0#8) 0 2 = hart.chanBase + 0 ∧ (hart.chan 0).hartOn = true ∧ (hart.chan 0).hart.length < 4 ∧
    4 ≤ ({ hart.chan 0 with hart := List.replicate 4 ⟨3, 1, false, []⟩ } : Chan).hart.length := by decide +kernel
theorem witness_OutputsAndHart_answer : hart.mode ≠ 6 ∧ hart.red.xAt = none ∧ (hart.chan 0).hart = ⟨3, 1, false, []⟩ :: [] ∧ (hart.chan 0).loopLow hart.mono = false ∧
    ({ hart.chan 0 with samples := [] } : Chan).loopLow hart.mono = true ∧ (up.chan 0).hartOn = false := by decide +kernel

/-! ## The channel table, digital channels, the link -/

theorem witness_ChannelTable_load : up.islandOn 0x0A = true ∧ (0#32).toNat % 1024 = up.chanBase + 0 ∧ (upRegs [(TP_SWBANK_SW1, 1)]).refusal [(0, up.copyEntry (dram [(0x62, 1, 0xFF)]) 0)] false none = none ∧
    up.refusal [(0, up.copyEntry (dram [(0x10, 1, 0x77), (1, 1, 1)]) 0)] false none = some (1, 0) ∧
    up.fieldBad [(0, up.copyEntry (dram [(0x10, 1, 0x77), (1, 1, 1)]) 0)] 0 (up.copyEntry (dram [(0x10, 1, 0x77), (1, 1, 1)]) 0) = true := by decide +kernel
/-- A load pending on an unused channel since 5 µs before now. -/
def pending (relevant : Bool) : Chan := { Chan.unused with pend := some ⟨entry [], 3, relevant, 9999995000, false⟩ }
theorem witness_ChannelTable_apply : (pending true).pend = some ⟨entry [], 3, true, 9999995000, false⟩ ∧ eActive (pending true).entry = 0 ∧ 10000000000 = (9999995000 / 5000 + 1) * 5000 ∧
    10000000000 ≤ up.mono ∧ up.flag TP_SWBANK_SW1 = false ∧ chip0.mono < 10000000000 := by decide +kernel
theorem witness_ChannelTable_triggered : let x := { analog 8 2 Chan.unused with window := some (5, 10000000000) }
    eActive x.entry ≠ 0 ∧ isAo (eActive x.entry) = false ∧ ∃ z, x.window = some (z, 10000000000) := ⟨by decide +kernel, by decide +kernel, 5, rfl⟩
theorem witness_ChannelTable_set : 1 ≤ (64#32).toNat % 128 ∧ (64#32).toNat % 128 ≤ 64 ∧ (up.reg CT_SETADDR).toNat * 8 + 2 * 64 ≤ 0x800000000 ∧ (65#32).toNat % 128 = 65 ∧
    (upRegs [(TP_SWBANK_SW1, 1)]).refusal ((chanList (dram [(0x62, 1, 0xFF)]) 0 1).map fun g => (g, up.copyEntry (dram [(0x62, 1, 0xFF)]) g)) true none = none := by decide +kernel
theorem witness_ChannelTable_status : up.fld CT_BASE_ADDR * 0x40000 + (up.chanBase + 511) * 0x100 + 0xB0 + 64 ≤ 0x800000000 ∧
    0x800000000 < (upRegs [(CT_BASE_ADDR, 0x20000)]).fld CT_BASE_ADDR * 0x40000 + ((upRegs [(CT_BASE_ADDR, 0x20000)]).chanBase + 0) * 0x100 + 0xB0 + 64 ∧
    (up.mode ≠ 3 ∧ up.mode ≠ 7) ∧ (upRegs [(MG_MODE_CUR, 3)]).mode = 3 := by decide
theorem witness_ChannelTable_heat : (340#11).toInt ≤ 340 ∧ 500 < (501#11).toInt := by decide
/-- A digital channel of a mode with a filter of 3 ms. -/
def digital (mode : Byte) : Chan := { Chan.unused with entry := entry [(0, mode), (1, 1#8), (0x11, 4#8)] }
theorem witness_DigitalChannels_pulsed : (digital 1).isInput 1 = true ∧ 250000 ≤ up.mono + 1000 ∧ (digital 1).samples = [] ∧ (digital 1).filt = false ∧
    (digital 1).agree + 1 < pulsedCount (digital 1).entry ∧ pulsedCount (digital 1).entry ≤ ({ digital 1 with agree := 12 } : Chan).agree + 1 ∧
    (upRegs [(CG_LINKSTAT_UP 0, 1)]).flag (CG_LINKSTAT_UP 0) = true := by decide +kernel
theorem witness_DigitalChannels_changed : (digital 2).isInput 2 = true ∧ 31250 ≤ up.mono + 1000 ∧ true ≠ (digital 2).filt ∧ 5 + dfiltNs (eF (digital 2).entry 0x11 1) ≤ up.mono ∧
    up.flag (CG_SOECFG_ENABLE 0) = false ∧ (upRegs [(CG_SOECFG_ENABLE 0, 1)]).flag (CG_SOECFG_ENABLE 0) = true ∧ (up.grp 0).soe.length < 64 ∧
    64 ≤ ({ up.grp 0 with soe := List.replicate 64 [] } : Grp).soe.length := by decide +kernel
theorem witness_DigitalChannels_records : let c := (ring1 false).setFlds [(CG_SOECFG_RING 0, 64), (CG_LINKSTAT_UP 0, 1)]
    c.flag (CG_LINKSTAT_UP 0) = true ∧ c.pool.canTake (c.fld (CG_SOECFG_RING 0)) = true ∧ (∀ q ∈ c.pool.held, q.ring ≠ 64) ∧
    ({ up.grp 0 with soe := [[1#8]] } : Grp).soe = [1#8] :: [] := by decide +kernel
theorem witness_DigitalChannels_switch : (digital 4).isSwitch = true ∧ ({ digital 4 with status := 8 } : Chan).status.testBit 3 = true ∧ eMode (digital 7).entry = mPaired ∧
    (digital 7).isSwitch = true ∧ (digital 4).rearm = false ∧ ({ digital 7 with status := 8, rearm := true } : Chan).rearm = true ∧
    ({ digital 7 with status := 8 } : Chan).status.testBit 3 = true ∧ (digital 7).cooled = false ∧ (digital 7).status.testBit 3 = false ∧ (digital 1).isSwitch = false ∧ 0x20 ≤ eActive (analog 0x22 0 Chan.unused).entry ∧
    eActive (analog 0x22 0 Chan.unused).entry ≤ 0x22 ∧ (analog 0x22 0 Chan.unused).isSwitch = false := by decide +kernel
theorem witness_FieldAndLink_supply : 18000 ≤ (18000#16).toNat ∧ (17999#16).toNat < 18000 ∧ 10000 ≤ (10000#16).toNat ∧ (9999#16).toNat < 10000 ∧
    (19000#16).toNat ≤ 19000 ∧ 19000 < (19001#16).toNat := by decide
theorem witness_FieldAndLink_frame : up.islandOn 0x0A = true ∧ (up.grp 0).frame ≠ some (up.mono / 5000 * 5000) ∧ up.sets = [] ∧ up.mode ≠ 6 ∧ up.red.xAt = none ∧
    up.flag (CG_FPSTAT_MISSING 0) = false ∧ (up.grp 0).frame = none ∧ ({ up.grp 0 with frame := some 5 } : Grp).frame = some 5 ∧ (up.grp 0).deen = false ∧
    ({ up.grp 0 with deen := true } : Grp).deen = true := by decide
theorem witness_FieldAndLink_all : ∀ h : Group, (({ up with grps := (List.range 8).map fun g => (g, { up.grp 0 with frame := some (up.mono / 5000 * 5000) }) } : Chip).grp h.val).frame =
    some (up.mono / 5000 * 5000) := by decide +kernel
theorem witness_FieldAndLink_timeout : (∃ t, ({ up.grp 0 with goodDown := some 9999000000 } : Grp).goodDown = some t ∧ t + (up.grp 0).tmo * 1000 ≤ up.mono) ∧
    up.flag (CG_LINKSTAT_SAFE 0) = false ∧ (output.chan 0).isOutput = true ∧ up.counter (CG_LINKTMO_LO 0) < 2 ^ 64 - 1 ∧ (upRegs [(CG_LINKSTAT_UP 0, 1)]).flag (CG_LINKSTAT_UP 0) = true :=
  ⟨⟨9999000000, rfl, by decide⟩, by decide, by decide +kernel, by decide, by decide⟩

/-- LINK_TIMEOUT below 10 µs is set to 10 (R482). -/
theorem test_link_timeout : (chipOf (exec (.linkResume 0 0 3#32) (on up))).fld (CG_LINKCFG_TIMEOUT 0) = 10 := by decide +kernel
/-- A set of 65 entries is refused with reason 1 (R436). -/
theorem test_set_length : (chipOf (exec (.ctCommit 0 65#32) (on up))).fld CT_SETSTAT_REASON = 1 := by decide +kernel

/-! ## Safety lanes and the trip matrix -/

theorem witness_LanesAndComparators_lanes : chip0.mono < (assocGet chip0.trip.downAt 0).getD 0 + 2000 ∧ (assocGet up.trip.downAt 0).getD 0 + 2000 ≤ up.mono ∧
    0 ∉ up.trip.failed ∧ assocGet up.trip.upAt 0 = none ∧ 2000 ≤ up.mono ∧ 0 ∈ ({ up.trip with failed := [0] } : Trip).failed := by decide
theorem witness_LanesAndComparators_steady : ∃ x, assocGet ({ up.trip with upFrom := [(0, 9000000000)], upAt := [(0, 9999999000)] } : Trip).upFrom 0 = some x ∧
    x + 10000 ≤ up.mono ∧ ¬(9999999000 + 2000 ≤ up.mono) := ⟨9000000000, by decide, by decide, by decide⟩
/-- A channel with both comparators armed at 100 and 1,000 with hysteresis 0, and a digital input with its binding. -/
def compared : Chan := { Chan.unused with entry := entry [(1, 1#8), (0x10, 8#8), (0x60, 1#8), (0x64, 100#8), (0x66, 0xE8#8), (0x67, 3#8)] }
def bound : Chan := { Chan.unused with entry := entry [(0, 1#8), (1, 1#8), (0x60, 2#8)] }
theorem witness_LanesAndComparators_compare : eEnable compared.entry = true ∧ eMode compared.entry = 0 ∧ eCmpEn compared.entry = true ∧ eCmpFilt compared.entry = 0 ∧
    eEnable bound.entry = true ∧ isDi (eMode bound.entry) = true ∧ eDiEn bound.entry = true ∧ up.trip.faults.testBit 0 ≠ true ∧ 5 + 100000000 ≤ up.mono ∧
    up.mono < 9999999999 + 100000000 ∧ eEnable Chan.unused.entry = false := by decide +kernel
/-- Pair 0 used by a configuration in force, with a switch in channel 0. -/
def matrix (flags : Nat) (l : List (Fld × Nat)) : Chip := { (upRegs ((TP_STAT_CFGVALID, 1) :: (TP_STAT_EVAL, 1) :: l)).setReg (TP_ACT_OUT 8) (BitVec.ofNat 32 flags) with
  chans := [(0, { Chan.unused with entry := entry [(0, 8#8), (1, 1#8)], term := some 1#32 })], permA := 1, permB := 1 }
theorem witness_TripMatrix_evaluate : (matrix 1 []).flag TP_STAT_EVAL = true ∧ (matrix 1 []).mono / 40 ≠ (matrix 1 []).trip.evalAt / 40 ∧ (matrix 1 []).outFlag 0 0 = true ∧
    ((matrix 1 []).outMask 0).testBit 0 = false ∧ (matrix 1 []).outMask 0 = 0 ∧ (matrix 1 []).pairBlind 0 = false ∧ (matrix 1 []).flag TP_STAT_ABFAULT = false ∧
    (matrix 1 []).arrBit TP_LATCHED 0 = false ∧ (matrix 1 []).arrBit TP_STUCK 0 = false ∧ (matrix 1 []).trip.failed = [] ∧ up.flag TP_STAT_EVAL = false := by decide +kernel
theorem witness_TripMatrix_tripped : (matrix 3 [(TP_STAT_ABFAULT, 1)]).outFlag 0 0 = true ∧ (matrix 3 [(TP_STAT_ABFAULT, 1)]).flag TP_STAT_ABFAULT = true ∧
    (matrix 3 [(TP_STAT_ABFAULT, 1)]).outFlag 0 1 = true ∧ (matrix 3 [(TP_STAT_ABFAULT, 1)]).flag TP_FIRSTOUT_VALID = false ∧
    (matrix 3 [(TP_STAT_ABFAULT, 1)]).arrBit TP_TRIPPED 0 = false ∧ ({ up.trip with rst := 1 } : Trip).rst.testBit 0 = true ∧
    (up.setReg (TP_LATCHED 0) 1#32).arrBit TP_LATCHED 0 = true ∧ (up.setReg (TP_STUCK 0) 1#32).arrBit TP_STUCK 0 = true := by decide +kernel
theorem witness_TripMatrix_switches : (matrix 1 []).islandOn 9 = true ∧ (matrix 1 []).pairChan 0 = some 0 ∧ (matrix 1 []).permA.testBit 0 = true ∧
    ({ matrix 1 [] with permA := 0 } : Chip).permA.testBit 0 = false ∧ 5 + 1000000 ≤ (matrix 1 []).mono ∧ ((matrix 1 []).chan 0).term = some 1#32 := by decide +kernel
theorem witness_TripMatrix_proof : (matrix 5 []).outFlag 0 0 = true ∧ (matrix 5 []).outFlag 0 2 = true ∧ (matrix 5 []).energised 0 = true ∧ assocGet (matrix 5 []).trip.proofs 0 = none ∧
    (assocGet (matrix 5 []).trip.proved 0).getD 0 + (matrix 5 []).outProofH 0 * 3600000000000 ≤ (matrix 5 []).now ∧
    assocGet ({ (matrix 5 []).trip with proofs := [(0, ⟨1, 5⟩)] } : Trip).proofs 0 = some ⟨1, 5⟩ ∧ 5 + 10000000 ≤ (matrix 5 []).mono ∧
    5 + (matrix 5 []).outProofW 0 * 1000 ≤ (matrix 5 []).mono := by decide +kernel
theorem witness_SealedSwitchAndConfiguration_contacts : up.flag TP_SWBANK_SW1A = false ∧ up.flag TP_SWBANK_SW1B = false ∧ up.trip.swAt + 20000000 ≤ up.mono ∧ up.flag TP_SWBANK_SW1 = false ∧
    up.flag TP_SWBANK_SW1FAULT = false := by decide
/-- SAFE-HOLD with SW1 on and outputs whose terms are unused. -/
def sealedOn (l : List (Fld × Nat)) : Chip := upRegs ((TP_SWBANK_SW1, 1) :: (MG_MODE_CUR, 2) :: l)
theorem witness_SealedSwitchAndConfiguration_commit : (sealedOn []).islandOn 9 = true ∧ (0x80000000#32).getLsbD 31 = true ∧ (sealedOn []).flag TP_SWBANK_SW1 = true ∧ (sealedOn []).mode = 2 ∧
    (sealedOn []).flag TP_STAT_HASHBUSY = false ∧ (sealedOn [(TP_STAT_HASHBUSY, 1)]).flag TP_STAT_HASHBUSY = true ∧ (upRegs [(TP_SWBANK_SW1, 1)]).mode ≠ 2 := by decide
/-- A staged configuration that is valid: every voter takes two of three. -/
def stagedGood : Chip := (List.range 64).foldl (fun c v => c.setReg (TP_STAGE_VOTER (2 * v + 1)) 0x10000#32) (sealedOn [])
theorem witness_SealedSwitchAndConfiguration_staged : stagedGood.badStaged = none ∧ (sealedOn []).badStaged = some 0x2004 := by decide +kernel

/-! ## The fabric -/

/-- Station 6 with port 0 up, a route to station 5 by port 0, station 5 ACTIVE in epoch 0. -/
def fabric (l : List (Fld × Nat)) : Chip :=
  let c := upRegs ((FX_PORTSTAT_UP 0, 1) :: (FX_RTE_V0 4, 1) :: (FX_RTE_NH0 4, 0) :: (FX_MEMBER_STATE 4, 1) :: l)
  { c with eff := [(FX_STATION, putF FX_STATION_ID 0#32 6)] }
/-- A request from station 5 to this station. -/
def toMe : Packet := { packet with dst := 6, src := 5, sring := 64, dring := 70 }
theorem witness_LinksAndMembership_train : (fabric []).flag (FX_PORTSTAT_UP 0) = true ∧ up.flag (FX_PORTSTAT_UP 0) = false ∧ (up.port 0).triedAt = none ∧ (1 : Fin 5).val < 2 ∧
    2 ≤ (2 : Fin 5).val := by decide
theorem witness_LinksAndMembership_forward : 1 = ((fabric []).port 0).accNum + 1 ∧ (fabric []).flag (FX_PORTSTAT_JOINONLY 0) = false ∧ packet.kind = 1 ∧ packet.dst ≠ 4095 ∧
    packet.dst ≠ 0 ∧ (fabric []).forMe packet = false ∧ packet.hops ≠ 0 ∧ (fabric []).nextHop packet = some 0 ∧ (fabric []).forMe toMe = true ∧ (fabric []).fabricOpen = true := by decide
theorem witness_LinksAndMembership_failed : 8 ≤ ({ LinkPort.down with fails := 8 } : LinkPort).fails ∧
    ∃ t, ({ LinkPort.down with unacked := [⟨1, packet, false⟩], nackAt := some 5 } : LinkPort).nackAt = some t ∧ t + 20000 ≤ up.mono := ⟨by decide, 5, by decide, by decide⟩
theorem witness_LinksAndMembership_join : up.fab.joinDue = false ∧ (∀ t, ({ up.fab with joinAt := some 5 } : Fabric).joinAt = some t → t + 10000000 ≤ up.mono) ∧
    1 ≤ (5 : Station).val ∧ (5 : Station).val < 4095 ∧ toMe.src = 5 ∧ 5 ≠ (fabric []).stationId ∧ assocGet (fabric []).fab.joins 5 = none ∧ (fabric []).fab.trans = [] := by
  refine ⟨by decide, ?_, by decide, by decide, by decide, by decide, by decide, by decide⟩
  intro t h
  obtain rfl : 5 = t := Option.some.inj h
  decide
/-- A JOIN record received 30 ms before now. -/
def joined : JoinRec := ⟨9970000000, 0, 0, 4, 0, 0, 0, 0, false, false⟩
theorem witness_LinksAndMembership_absent : (assocGet ({ up.fab with joins := [(5, [joined])] } : Fabric).joins 5).getD [] = [joined] ∧ joined.at_ + 30000000 ≤ up.mono ∧
    (∃ t, assocGet ({ up.fab with absent := [(5, 0)] } : Fabric).absent 5 = some t ∧ t + 10000000000 ≤ up.mono) ∧
    (∃ t, ({ up.fab with within := some 9000000000 } : Fabric).within = some t ∧ t + 1000000000 ≤ up.mono) :=
  ⟨by decide, by decide, ⟨0, by decide, by decide⟩, ⟨9000000000, by decide, by decide⟩⟩
theorem witness_LinksAndMembership_exports : (fabric []).islandOn 0x12 = true ∧ (exportAtAddr (dram [(8, 8, 4096)]) 0).ok = true ∧
    exportsDisjoint [exportAtAddr (dram [(8, 8, 4096)]) 0] = true ∧ memRead (dram [(8, 8, 4096)]) 1 0x19 = 0 ∧ (0x80000001#32).toNat % 32 = 1 ∧
    ¬(17 ≤ 16) := by decide
/-- The station in RUN with an export of 4,096 bytes at 0x4000 for every station, and ring 70 for the fabric. -/
def serving : Chip := { fabric [(MG_MODE_CUR, 4)] with fab := { (fabric []).fab with exports := [⟨0, 4096, 0x4000, 7, 0, 4095⟩] }, pool := up.pool.setRing 70 ⟨0, 1, true, true, 0x12, 0, 0, []⟩ }
theorem witness_FabricTransactions_admitted : serving.fabricOpen = true ∧ toMe.src ≠ 0 ∧ toMe.src < 4095 ∧ toMe.src ≠ serving.stationId ∧ serving.fld (FX_MEMBER_STATE (toMe.src - 1)) = 1 ∧
    serving.mode ≠ 6 ∧ toMe.epoch = serving.fld FX_STATION_EPOCH ∧ toMe.sepoch = serving.fld (FX_MEMBER_EPOCH (toMe.src - 1)) ∧ serving.fab.windows = [] ∧ 0 < serving.windowSlots := by decide
theorem witness_FabricTransactions_operations : serving.exportAt toMe.addr (4 * toMe.len) 0 toMe.src = some 0x4000 ∧ serving.poisoned 0x4000 4 = false ∧
    serving.exportAt 4096 4 0 5 = none ∧ serving.exportAt toMe.addr toMe.payload.length 1 toMe.src = some 0x4000 ∧ serving.locked 0x4000 4 = false ∧ toMe.addr % 8 = 0 ∧
    serving.exportAt toMe.addr 8 2 toMe.src = some 0x4000 ∧ serving.locked 0x4000 8 = false ∧ serving.poisoned 0x4000 8 = false ∧ serving.fabricRing 70 = true ∧
    serving.fabricRing 71 = false ∧ serving.nextHop (serving.responseTo toMe (0, [])) = some 0 := by decide
theorem witness_FabricTransactions_replay : let w : Window := ⟨5, 0, 64, 1, [(1, some (0, []))]⟩
    [w].find? (fun y => y.src == toMe.src && y.mod == toMe.srcMod && y.ring == toMe.sring) = some w ∧ w.hi = toMe.seq ∧
    w.seen.find? (fun y => y.1 == toMe.seq) = some (toMe.seq, some (0, [])) ∧ toMe.seq < 2 ^ 32 := by decide
/-- A READ of one word from station 5 for ring 72, as a message of ring 71. -/
def readMsg : List Byte := [1#8, 1#8, 5#8, 0#8, 0#8, 1#8, 72#8, 0#8] ++ List.replicate 24 0#8
def asking (m : List Byte) : Chip := { serving with
  pool := (serving.pool.setRing 71 ⟨0, 1, true, true, 0, 0x12, 0, [⟨m, false, 0, none⟩]⟩).setRing 72 ⟨0, 1, true, true, 0x12, 0, 0, []⟩ }
theorem witness_FabricTransactions_issue : (asking readMsg).head? 71 = some ⟨readMsg, false, 0, none⟩ ∧ ((asking readMsg).pool.ring 71).cons = 0x12 ∧ (asking readMsg).islandOn 0x12 = true ∧
    bytesAt readMsg 0 1 ≠ 6 ∧ badRequest readMsg = false ∧ (asking readMsg).mustHold 71 false = false ∧ bytesAt readMsg 2 2 ≠ (asking readMsg).stationId ∧
    (asking readMsg).nextHop { (asking readMsg).packetOf readMsg with sring := 71 } = some 0 ∧
    ((asking readMsg).pool.allocate (bytesAt readMsg 6 2) (Nat.max 1 ((0x20 + 4 * bytesAt readMsg 5 1 + 255) / 256))).isSome = true ∧
    badRequest (List.replicate 32 0#8) = true := by decide +kernel
/-- A transaction to station 5 whose deadline has come. -/
def transn : Transn := ⟨9, 71, 72, 0, 0, 5, 20000, 0, { packet with dst := 5, src := 6, tag := 9 }, none, 1⟩
theorem witness_FabricTransactions_response : let c := { serving with fab := { serving.fab with trans := [transn] } }
    serving.accepts 5 = true ∧ serving.accepts 9 = false ∧ serving.accepts 0 = false ∧ c.fab.trans.find? (fun t => t.tag == 9 && t.pkt.seq == 1) = some transn ∧ transn.win = none ∧
    (({ serving with fab := { serving.fab with trans := [transn] } } : Chip).setFlds [(FX_TMOCFG_RETRIES, 2)]).fld FX_TMOCFG_RETRIES ≠ transn.tries ∧
    transn.deadline ≤ c.mono ∧ transn.tries < 2 ∧ transn.pkt.kind = 1 ∧ transn.pkt.dst ≠ 4095 ∧ transn.pkt.dst ≠ c.stationId ∧ c.nextHop transn.pkt = some 0 ∧
    c.fld FX_TMOCFG_RETRIES ≤ transn.tries ∧ assocGet ({ c.fab with done := [(9, 1, false)] } : Fabric).done 9 = some (1, false) := by decide

/-- FETCHADD adds modulo 2^64 and keeps the rest (R562). -/
theorem test_fetchadd : memRead (State.next (exec (.fetchadd { toMe with op := 3, len := 2, payload := toBytes 8 2 })
    { on serving with mem := dram [(0x4000, 8, 2 ^ 64 - 1)] })).mem 8 0x4000 = 1 := by decide +kernel
/-- A route entry keeps its reserved bits at 0 (R558). -/
theorem test_route : (chipOf (exec (.routeWrite 0 7 0xFFFFFFFF#32) (on up))).reg (FX_RTE 6) = 0xC0000077#32 := by decide +kernel

/-! ## Fabric time, Ethernet and CAN -/

/-- A time station: port 0 open, its neighbour known, TIME registers as given. -/
def timed (l : List (Fld × Nat)) : Chip := fabric ((FX_PORTSTAT_NBR 0, 5) :: l)
/-- A time packet of a kind from station 5, with a payload of 48 bytes; the first byte says what it is. -/
def timePkt (what : Byte) (rest : List (Nat × Byte)) : Packet :=
  { packet with kind := 6, src := 5, dst := 4095, len := 12, payload := (List.range 48).map (mapGet 0#8 ((0, what) :: rest)) }
theorem witness_FabricTime_sends : (timed [(TS_STAT_ISGM, 1)]).flag TS_STAT_ISGM = true ∧ (timed []).fabricOpen = true ∧ (timed []).time.annAt = none ∧ (timed []).time.sentAt = none ∧
    (timed []).flag (FX_PORTSTAT_UP 0) = true ∧ (timed []).flag (FX_PORTSTAT_JOINONLY 0) = false ∧ 0 ∈ (timed []).timePorts ∧ (timed []).flag TS_STAT_ISGM = false ∧
    ({ up.time with dirty := true } : TimeUnit).dirty = true ∧ up.time.dirty = false := by decide
theorem witness_FabricTime_early : ¬(∀ y, ({ up.time with annAt := some 9900000000 } : TimeUnit).annAt = some y → y + 125000000 ≤ up.mono) ∧
    ¬(∀ y, ({ up.time with sentAt := some 9999900000 } : TimeUnit).sentAt = some y → y + 1000000 ≤ up.mono) := by
  refine ⟨fun h => ?_, fun h => ?_⟩
  · exact absurd (h 9900000000 rfl) (by decide)
  · exact absurd (h 9999900000 rfl) (by decide)
theorem witness_FabricTime_announce : let b := timePkt 1 [(4, 5#8), (8, 9#8)]
    b.kind = 6 ∧ bytesAt b.payload 0 1 = 1 ∧ b.payload.length = 48 ∧ ((timed []).floodSeen b).1 = false ∧ 0 < b.hops ∧ (heardOf 0 b.payload up.mono).serial ≠ (timed []).serial ∧
    (timed []).time.heard = [] ∧ (heardOf 0 b.payload up.mono).id = 5 ∧ (timed []).fld (FX_MEMBER_STATE 4) = 1 := by decide +kernel
/-- A grandmaster heard on port 0. -/
def master0 : Heard := ⟨0, 5, 0, 0, 9, 0, 0, 9999999000⟩
def slaved : Chip := { timed [(TS_STAT_TQ, 1)] with time := { up.time with heard := [master0], gm := some master0, goodAt := some 5, dreqs := [(0, 7)] } }
theorem witness_FabricTime_sync : slaved.accepts 5 = true ∧ slaved.accepts 9 = false ∧
    ({ slaved with time := { slaved.time with syncAt := assocSet slaved.time.syncAt 0 slaved.mono } } : Chip).timeParent = some 0 ∧
    slaved.time.gm.map Heard.serial = some (bytesAt (timePkt 2 [(3, 1#8), (8, 9#8)]).payload 8 8) ∧ bytesAt (timePkt 2 [(3, 1#8), (8, 9#8)]).payload 3 1 % 4 ≠ 0 ∧
    assocGet slaved.time.dreqs 0 = some 7 ∧ assocGet up.time.dreqs 0 = none := by decide +kernel
theorem witness_FabricTime_lost : up.time.gm = none ∧ up.time.heard = [] ∧ (upRegs [(TS_GMCFG_CAND, 1)]).flag TS_GMCFG_CAND = true ∧ up.time.betterAt + 375000000 ≤ up.mono ∧
    slaved.flag TS_STAT_ISGM = false ∧ slaved.fld TS_STAT_TQ % 4 = 1 ∧ slaved.time.goodAt = some 5 ∧ 5 + 5000000 ≤ slaved.mono ∧ up.fld TS_STAT_TQ % 4 = 0 ∧
    up.islandOn 0x12 = true := by decide
theorem witness_SchedulesAndEthernet_enable : up.islandOn 0x12 = true ∧ (0x80000000#32).getLsbD 31 = true ∧ (up.reg (TS_PERIOD 0)).toNat = 0 ∧
    31250 ≤ ((up.setReg (TS_PERIOD 0) 31250#32).reg (TS_PERIOD 0)).toNat := by decide
/-- Schedule 0 with a start ahead and its next instance 0. -/
def scheduled : Chip := { (upRegs [(TS_SCHEDCTL_CANEN 0, 1)]).setReg (TS_START_HI 0) 5#32 with time := { up.time with scheds := [(0, 0)] } }
theorem witness_SchedulesAndEthernet_firing : assocGet scheduled.time.scheds 0 = some 0 ∧ scheduled.fabricNow < scheduled.schedStart 0 ∧ scheduled.flag (TS_SCHEDCTL_CANEN 0) = true ∧
    scheduled.mono ≤ scheduled.monoOf (scheduled.schedStart 0) ∧ assocGet up.time.scheds 0 = none := by decide +kernel
theorem witness_SchedulesAndEthernet_ptp : (upRegs [(EN_PTPCFG_EN 0, 1)]).islandOn 0x13 = true ∧ (upRegs [(EN_PTPCFG_EN 0, 1)]).flag (EN_PTPCFG_EN 0) = true ∧
    false = (upRegs [(EN_PTPCFG_EN 0, 1)]).flag (EN_PTPCFG_UDP 0) ∧ (0#8).toNat = (upRegs [(EN_PTPCFG_EN 0, 1)]).fld (EN_PTPCFG_DOMAIN 0) ∧
    (upRegs [(EN_PTPCFG_EN 0, 1)]).ptpMaster 0 = none ∧
    ({ upRegs [(EN_PTPCFG_EN 0, 1)] with eths := [(0, ⟨some ⟨[0], 3, 9999999000, 1000000000⟩, 0, [], none, 0⟩)] } : Chip).ptpState 0 = 2 := by decide +kernel
/-- A chip with messages in ring 70 for NX. -/
def nx (msgs : List (List Byte)) (l : List (Fld × Nat)) : Chip :=
  { upRegs l with pool := up.pool.setRing 70 ⟨0, 9, true, true, 0, 0x13, 0, msgs.map fun b => ⟨b, false, 0, none⟩⟩ }
/-- An Ethernet message of 60 bytes with a launch time. -/
def ethMsg (launch flags : Nat) : List Byte := toBytes 8 launch ++ toBytes 2 60 ++ toBytes 2 flags ++ toBytes 4 0 ++ List.replicate 60 0#8
def ethOn (b : List Byte) : Chip := nx [b] [(EN_TXQ_EN 0 7, 1), (EN_TXQ_RING 0 7, 70), (EN_LTCFG_LTEN 0, 128)]
theorem witness_SchedulesAndEthernet_launch : (ethOn (ethMsg 0 0)).islandOn 0x13 = true ∧ (ethOn (ethMsg 0 0)).mode ≠ 6 ∧ ((ethOn (ethMsg 0 0)).eth 0).busy ≤ (ethOn (ethMsg 0 0)).mono ∧
    (ethOn (ethMsg 0 0)).ethHead 0 7 = some ⟨ethMsg 0 0, false, 0, none⟩ ∧ (ethOn (ethMsg 0 0)).ethMayStart 0 7 ⟨ethMsg 0 0, false, 0, none⟩ = true ∧
    (ethOn (ethMsg 0 0)).ethHead 0 6 = none ∧ (ethOn (ethMsg 0 0)).ethLaunch 0 7 ⟨ethMsg 0 0, false, 0, none⟩ = none := by decide +kernel
theorem witness_SchedulesAndEthernet_discard : (ethOn (ethMsg 5 1)).ethLaunch 0 7 ⟨ethMsg 5 1, false, 0, none⟩ = some 5 ∧
    5 + (ethOn (ethMsg 5 1)).fld (EN_LTCFG_LATE_NS 0) < (ethOn (ethMsg 5 1)).fabricNow ∧
    (ethOn (ethMsg (2 ^ 63) 1)).fabricNow + 1000000000 < 2 ^ 63 ∧ (ethOn (ethMsg (2 ^ 63) 1)).ethLaunch 0 7 ⟨ethMsg (2 ^ 63) 1, false, 0, none⟩ = some (2 ^ 63) := by decide +kernel
theorem witness_SchedulesAndEthernet_receive : up.islandOn 0x13 = true ∧ 60 ≤ (List.replicate 60 0#8).length ∧ (List.replicate 1518 0#8).length ≤ 1518 ∧ up.flag (EN_PTPCFG_EN 0) = false ∧
    (({ up with pool := up.pool.setRing 70 ⟨0, 9, true, true, 0x13, 0, 0, []⟩ } : Chip).pool.ring 70).prod = 0x13 ∧ ¬60 ≤ (List.replicate 59 0#8).length := by decide +kernel
/-- A CAN controller 0 in NORMAL with queue 0 from ring 70. -/
def can0 (b : List Byte) (l : List (Fld × Nat)) : Chip := nx [b] ((CN_STAT_MODE 0, 1) :: (CN_CFG_MODE 0, 1) :: (CN_TXQ_EN 0 0, 1) :: (CN_TXQ_RING 0 0, 70) :: l)
/-- A transmit message with no data: flags as given, token 7, launch time 5. -/
def canMsg (flags : Nat) : List Byte := toBytes 4 0x40000 ++ toBytes 1 0 ++ toBytes 1 flags ++ toBytes 2 7 ++ toBytes 8 5
theorem witness_CanControllers_writes : up.islandOn 0x13 = true ∧ up.fld (CN_CFG_MODE 0) = 0 ∧ getF (CN_CFG_MODE 0) (putF (CN_CFG_MODE 0) 0#32 1) ≠ 0 ∧ up.canTimingOk 0 = false ∧
    ((up.setReg (CN_NBT 0) 0x004F1F1F#32).setReg (CN_DBT 0) 0x000F0303#32).canTimingOk 0 = true ∧ (can0 [] []).fld (CN_CFG_MODE 0) ≠ 0 := by decide +kernel
theorem witness_CanControllers_recover : (0x80000000#32).getLsbD 31 = true ∧ (upRegs [(CN_STAT_STATE 0, 2)]).fld (CN_STAT_STATE 0) = 2 ∧ up.fld (CN_STAT_STATE 0) ≠ 2 ∧
    ({ up.can 0 with recover := true } : Can).recover = true ∧ (up.can 0).recover = false := by decide
theorem witness_CanControllers_cancel : (7#32).getLsbD 23 = false ∧ getF (CN_CANCEL_INDEX 0) 7#32 = 0 ∧ up.fld (CN_TXQ_RING 0 0) < 64 ∧ 64 ≤ (can0 (canMsg 0) []).fld (CN_TXQ_RING 0 0) ∧
    (can0 (canMsg 0) []).tokenPlace 70 7 = some 0 ∧ ({ can0 (canMsg 0) [] with cans := [(0, { up.can 0 with attempt := some (0, canMsg 0, 5) })] } : Chip).canActive 0 0 = true ∧
    (nx [[], canMsg 0] []).tokenPlace 70 7 = some 1 ∧ (can0 (canMsg 0) []).tokenPlace 70 8 = none ∧ msgFlag (canMsg 0) 4 = false := by decide +kernel
theorem witness_CanControllers_integration : ({ up.can 0 with moving := true } : Can).moving = true ∧ (up.can 0).attempt = none ∧ (up.can 0).moving = false := by decide
theorem witness_CanControllers_send : (can0 (canMsg 0) []).canMaySend 0 = true ∧ ((can0 (canMsg 0) []).can 0).slots = [] ∧
    (can0 (canMsg 0) []).canHead 0 0 = some ⟨canMsg 0, false, 0, none⟩ ∧ (can0 (canMsg 0) []).canInvalid 0 (canMsg 0) = false ∧ msgFlag (canMsg 0) 3 = false ∧
    (can0 (canMsg 0) []).canHead 0 1 = none ∧ (can0 (canMsg 0) []).canHead 0 2 = none ∧ (can0 (canMsg 0) []).canHead 0 3 = none ∧ (can0 (canMsg 0) []).canRing 0 0 = some 70 ∧
    (can0 (canMsg 0) []).pool.voids = [] ∧ up.canMaySend 0 = false := by decide +kernel
theorem witness_CanControllers_receive : (can0 [] []).fld (CN_STAT_MODE 0) ≠ 0 ∧ (can0 [] []).fld (CN_STAT_STATE 0) < 2 ∧ (can0 [] []).fld (CN_ERRCNT_REC 0) < 128 ∧
    (can0 [] []).canAccepts 0 canFrame = true ∧ (can0 [] [(CN_FILT_EN 0 0, 1), (CN_FILT_ID 0 0, 1), (CN_FMASK_MASK 0 0, 2)]).canAccepts 0 canFrame = true ∧
    (can0 [] [(CN_FILT_EN 0 0, 1), (CN_FILT_XTD 0 0, 1)]).canAccepts 0 canFrame = false ∧
    ((can0 [] []).offer 71 ⟨[], false, 0x13, none⟩).1 = .dropped ∧ ((can0 [] []).offer 70 ⟨[], false, 0x13, none⟩).1 ≠ .dropped := by decide +kernel
theorem witness_CanControllers_errors : (can0 [] [(CN_ERRCNT_TEC 0, 247)]).fld (CN_ERRCNT_TEC 0) < 248 ∧ 248 ≤ (can0 [] [(CN_ERRCNT_TEC 0, 248)]).fld (CN_ERRCNT_TEC 0) ∧
    (can0 [] []).flag (CN_CFG_PXHD 0) = false := by decide +kernel
theorem witness_CanControllers_launch : (can0 (canMsg 8) []).canHead 0 0 = some ⟨canMsg 8, false, 0, none⟩ ∧ msgFlag (canMsg 8) 3 = true ∧
    (can0 (canMsg 8) []).monoOf (msgTime (canMsg 8)) = 5 ∧ 5 + (can0 (canMsg 8) []).fld (CN_LATE_US 0) * 1000 ≤ (can0 (canMsg 8) []).mono ∧
    assocGet ((can0 (canMsg 8) []).can 0).launched 0 = none ∧ assocGet ({ up.can 0 with launched := [(0, 5)] } : Can).launched 0 = some 5 ∧
    ({ can0 (canMsg 8) [] with now := 4 } : Chip).mono < 5 := by decide +kernel
theorem witness_CanControllers_cycle : (upRegs [(CN_TTCFG_EN 0, 1)]).flag (CN_TTCFG_EN 0) = true ∧ ({ up.can 0 with firings := [(up.fld (CN_TTCFG_SCHED 0), 3, 5)] } : Can).firings =
    (up.fld (CN_TTCFG_SCHED 0), 3, 5) :: [] ∧ 5 ≤ up.mono := by decide
theorem witness_CanControllers_slot : let c := nx [canMsg 0] [(CN_SLOT_EN 0 0, 1), (CN_SLOT_RING 0 0, 70), (CN_SLOTT_COLMASK 0 0, 1)]
    5 + c.fld (CN_SLOTT_OFFSET 0 0) * 1000 ≤ c.mono ∧ c.flag (CN_SLOT_EN 0 0) = true ∧ (c.fld (CN_SLOTT_COLMASK 0 0)).testBit 0 = true ∧ 64 ≤ c.fld (CN_SLOT_RING 0 0) ∧
    (c.pool.ring 70).cons = 0x13 ∧ c.head? 70 = some ⟨canMsg 0, false, 0, none⟩ ∧ (nx [] []).head? 70 = none ∧ (upRegs [(CN_SLOT_REPEAT 0 0, 1)]).flag (CN_SLOT_REPEAT 0 0) = true ∧
    ({ up.can 0 with slots := [⟨0, 5, canMsg 0, false⟩] } : Can).slots.find? (fun y => y.slot == 0) = some ⟨0, 5, canMsg 0, false⟩ ∧ c.canActive 0 0x40 = false ∧
    5 + c.fld (CN_LATE_US 0) * 1000 ≤ c.mono := by decide +kernel

/-- A transmit error adds 8 and from 128 the controller is error passive (R618, R619). -/
theorem test_can_error : (chipOf (exec (.canError 0 .transmit) (on (can0 [] [(CN_ERRCNT_TEC 0, 120)])))).fld (CN_ERRCNT_TEC 0) = 128 ∧
    (chipOf (exec (.canError 0 .transmit) (on (can0 [] [(CN_ERRCNT_TEC 0, 120)])))).fld (CN_STAT_STATE 0) = 1 := by decide +kernel

/-! ## Double Reed and Duplex -/

/-- A unit of a set: TOPO, role, mode and fields. -/
def unit (topo role mode : Nat) (l : List (Fld × Nat)) (f : Red → Red) : Chip :=
  { upRegs ((MG_REDSTAT_ROLE, role) :: (MG_MODE_CUR, mode) :: l) with eff := [(MG_REDCFG, putF MG_REDCFG_TOPO 0#32 topo)], red := f up.red }
/-- A counterpart in RUN, READY, last heard at 5 ns. -/
def peer0 : Peer := { Peer.unknown with mode := 4, ready := true, hb := some 5 }
theorem witness_PairRoles_act : up.red.droveAt = none ∧ up.red.retryAt = none ∧ ({ up.red with droveAt := some 9999999000 } : Red).droveAt = some 9999999000 ∧
    up.mono < 9999999000 + 50000 ∧ 5 + 50000 ≤ up.mono ∧ ({ Peer.unknown with serial := some 3 } : Peer).serial = some 3 ∧ up.serial = 0 ∧ Peer.unknown.serial = none := by decide
theorem witness_PairRoles_heartbeats : (unit 1 1 4 [(MG_STRAP_CLKSEL, 1)] id).topo ≠ 0 ∧ (unit 1 1 4 [(MG_STRAP_CLKSEL, 1)] id).flag MG_STRAP_CLKSEL = true ∧
    (unit 1 1 4 [] id).flag MG_STRAP_CLK_FALLBACK = false ∧ up.red.hbSent = none ∧ up.topo = 0 := by decide
theorem witness_PairRoles_loss : let c := unit 1 2 6 [(MG_REDSTAT_READY, 1)] fun r => { r with peer := peer0 }
    c.fld MG_REDSTAT_ROLE = 2 ∧ c.mode = 6 ∧ c.red.peer.hb.getD 0 + c.fld MG_REDCFG_HBLOSS * 1000 ≤ c.mono ∧ (199999#32).toNat < 200000 ∧ 200000 ≤ (200000#32).toNat ∧
    c.flag MG_REDSTAT_READY = true ∧ c.red.peer.mode = 4 ∧ (unit 1 2 6 [] id).flag MG_REDSTAT_READY = false := by decide
theorem witness_PairRoles_partner : 2 ≤ (unit 2 0 4 [] id).topo ∧ (unit 2 0 4 [] id).red.lost = false ∧
    (unit 2 0 4 [] id).red.partner.hb.getD 0 + (unit 2 0 4 [] id).fld MG_REDCFG_HBLOSS * 1000 ≤ (unit 2 0 4 [] id).mono ∧ ¬2 ≤ (unit 1 0 4 [] id).topo ∧
    (unit 2 0 4 [] id).ctl.queue.length < 8 ∧ ((5#64).toNat : Int) - signed 64 (up.counter MG_PARTOFS_LO) = 5 ∧ 5 + 10000 < up.mono ∧
    up.mono ≤ (10000000000#64).toNat + 10000 := by decide
theorem witness_PairRoles_drain : (digital 4).isOutput = true ∧ eMode (digital 4).entry ≠ 0 ∧ eMode (digital 4).entry ≠ 7 ∧ (digital 4).ign < 2 ^ 64 - 1 ∧ up.enabledTasks = [] := by
  decide +kernel
theorem witness_PairRoles_commands : let c := unit 1 1 4 [] fun r => { r with peer := peer0 }
    c.islandOn 0x15 = true ∧ c.topo % 2 = 1 ∧ c.fld MG_REDSTAT_ROLE = 1 ∧ ¬(c.red.xAt ≠ none ∨ c.red.fight ≠ none ∨ c.red.want ≠ 0) ∧ c.red.peer.ready = true ∧
    Peer.unknown.ready = false ∧ ({ c.red with want := 2 } : Red).want ≠ 0 ∧ ¬up.topo % 2 = 1 ∧ (unit 1 0 2 [(MG_KEYSW_POS, 1)] id).mode = 2 ∧
    keyAllows (unit 1 0 2 [(MG_KEYSW_POS, 1)] id).keyPos 6 = true ∧ keyAllows (unit 1 0 2 [(MG_KEYSW_POS, 3)] id).keyPos 6 = false := by decide
theorem witness_PairRoles_swap : let c := unit 3 1 4 [(MG_REDCFG_SWAPEN, 1), (FX_STATION_POS, 1)] fun r => { r with peer := peer0 }
    c.topo = 3 ∧ c.flag MG_REDCFG_SWAPEN = true ∧ c.fld MG_REDSTAT_ROLE = 1 ∧ c.fld FX_STATION_POS = 1 ∧ c.red.xAt = none ∧ c.red.fight = none ∧ c.red.want = 0 ∧
    c.red.swapFrom + c.fld MG_REDCFG_SWAPH * 3600000000000 ≤ c.now ∧ c.red.swapWait ≤ c.now ∧ c.red.peer.ready = true := by decide
/-- A paired standby with task 0, whose cycle 3 has ended. -/
def standby : Chip := { unit 1 2 6 [] id with cyc := { up.cyc with epoch := some 0, tasks := [(0, task0 none)] } }
theorem witness_PairHandover_compare : standby.run 0 = some (task0 none) ∧ standby.mode = 6 ∧ standby.topo % 2 = 1 ∧ standby.fld MG_REDSTAT_ROLE = 2 ∧
    ¬(standby.red.xAt ≠ none ∧ standby.red.taking = true) ∧ (task0 none).cycle = (3#64).toNat ∧ (task0 none).dead = none ∧ (on standby).itemDiffs 0 [] = [] := by decide +kernel
theorem witness_PairHandover_differs : (({ on standby with mem := dram [(0x18, 4, 0x100), (0x1C, 2, 1), (0x4000, 1, 3), (0x4001, 1, 5)] } : State).itemDiffs 0 [(0, 9#32)]) ≠ [] := by decide +kernel
theorem witness_PairHandover_stages : up.red.mirSent = none ∧ (unit 1 1 4 [] id).fld MG_REDSTAT_ROLE = 1 ∧ 0 ∈ engine.enabledStages ∧ 1 ∉ engine.enabledStages ∧
    up.fld MG_REDSTAT_ROLE ≠ 1 ∧ up.fld MG_REDSTAT_ROLE ≠ 2 := by decide +kernel
/-- A bound output whose stage gives another value than the active unit. -/
def boundOut : Chip := { unit 1 2 6 [] id with chans := [(0, { Chan.unused with entry := entry [(1, 1#8), (0x10, 0x20#8), (0x51, 0x80#8)] })] }
theorem witness_PairHandover_bound : isAo (eActive (boundOut.chan 0).entry) = true ∧ eBind (boundOut.chan 0).entry = true ∧ isAo (eActive (up.chan 0).entry) = false := by decide +kernel
theorem witness_PairHandover_far : let y := boundOut.stageRec (eStage (boundOut.chan 0).entry)
    let here := (convertChannel (outputWord (recOutV y) (recEs y) (recOutExp y)).toInt (recOutExp y) (recEs y)).1
    let there := (convertChannel (0x1000#32).toInt (recOutExp y) (recEs y)).1
    (boundOut.fld MG_REDTOL_LETOL : Int) * (recHi y - recLo y) < (here - there).natAbs * 100000 ∧ assocGet boundOut.red.diffs 0 = none ∧
    assocGet ({ boundOut.red with diffs := [(0, 5)] } : Red).diffs 0 = some 5 ∧ 5 + boundOut.fld MG_REDTOL_LETIME * 1000000 ≤ boundOut.mono := by decide +kernel
theorem witness_PairHandover_inputs : let x := { digital 1 with samples := [⟨1#32, 0, 5⟩] }
    x.samples = ⟨1#32, 0, 5⟩ :: [] ∧ isDi (eMode x.entry) = true ∧ (1#32).getLsbD 0 ≠ (0#32).getLsbD 0 ∧ 1 ≤ (1#16).toNat ∧ isDi (eMode (analog 8 0 Chan.unused).entry) = false ∧
    (rangeSpan (eRange (analog 8 0 Chan.unused).entry)).isSome = true ∧ up.fld MG_REDTOL_LETIME ≤ (0#16).toNat ∧
    (⟨up.fld MG_REDTOL_INTOL * (100 - 0), 1000000⟩ : Frac).lt ((commandOf (analog 8 0 Chan.unused).entry 0x4000#32).add ((commandOf (analog 8 0 Chan.unused).entry 0#32).mul ⟨-1, 1⟩)) =
      true := by decide +kernel
theorem witness_PairHandover_referee : ({ up.red with fight := some [3] } : Red).fight = some [3] ∧ ({ up.red with evActive := true } : Red).evActive = true ∧ up.red.evOwn = false ∧
    (∃ i ∈ [3], ∃ x ∈ [(3 : Chan512)], x.val = i) ∧ (∀ i ∈ [3], ¬up.rbShown i = true) := by
  refine ⟨by decide, by decide, by decide, ⟨3, by decide, 3, by decide, by decide⟩, by decide⟩
theorem witness_PairHandover_agreed : standby.red.xAt = none ∧ 50000 ≤ (50000#32).toNat ∧ (1#2) ≠ 0#2 ∧ ¬50000 ≤ (49999#32).toNat := by decide
theorem witness_PairHandover_crossfade : ({ up.red with xAt := some 5, taking := true } : Red).xAt = some 5 ∧ 5 ≤ up.mono ∧ up.flag MG_REDSTAT_XFADE = false ∧
    (upRegs [(MG_REDSTAT_XFADE, 1)]).flag MG_REDSTAT_XFADE = true ∧ 5 + 200000 ≤ up.mono ∧ ({ up.red with xAt := some 5, taking := false, why := 2 } : Red).taking = false := by decide
theorem witness_PairHandover_resync : (unit 1 2 6 [(MG_REDSTAT_PL1UP, 1)] id).flag MG_REDSTAT_PL1UP = true ∧ up.locked 0 4 = false ∧
    ({ up with locks := [⟨0, 64, 16⟩] } : Chip).locked 0 4 = true ∧ standby.flag MG_REDSTAT_PL1UP = false := by decide

/-! ## Storage -/

/-- A chip whose bank 0 queue has one request. -/
def flashed (r : FlashReq) : Chip := { up with flash := { up.flash with queues := [(0, [r])] } }
/-- A program of one page, and an erase. -/
def program : FlashReq := ⟨0, 1, some 3, 400, 0, 1, 0, false, none⟩
theorem witness_FlashAndHoldup_island : up.islandOn 0x14 = true ∧ up.flash.queue 0 = [] ∧ (0#32).toNat / 2 ^ 30 < 3 ∧ (0xC0000000#32).toNat / 2 ^ 30 = 3 := by decide
theorem witness_FlashAndHoldup_breath : (flashed program).flash.queue 0 = program :: [] ∧ program.op ≠ 0 ∧ program.admitted = false ∧ program.deferAt = none ∧
    1243125 ≤ ({ flashed program with energy := 1243125 } : Chip).energy ∧ up.power.failAt = none ∧ ¬1303500 ≤ ({ flashed program with energy := 1303499 } : Chip).energy ∧
    ({ program with deferAt := some 5 } : FlashReq).deferAt = some 5 ∧ 5 + 10000000 ≤ up.mono := by decide
theorem witness_FlashAndHoldup_done : ({ program with op := 0 } : FlashReq).op = 0 ∧ program.count = 1 ∧
    ({ up.flash with pages := [(400 * 1024, .bytes [(0, 1#8)])] } : Flash).page (up.flash.pageNo 400 0) = .bytes [(0, 1#8)] ∧ 2048 ≤ up.flash.pageNo 400 0 ∧
    up.locked 0 16384 = false ∧ ({ program with admitted := true } : FlashReq).admitted = true ∧ (up.flash.unit 400).started < 30000 := by decide

/-! ## Management commands -/

/-- A command of key 7 with COUNTER 1, a payload of zeros, and a signature whose r is the base point's x; the key is the base point itself. -/
def command (code arg len s : Nat) : Msg :=
  ⟨toBytes 1 code ++ [0#8] ++ toBytes 2 7 ++ toBytes 2 0 ++ toBytes 2 len ++ toBytes 8 0 ++ toBytes 8 1 ++ toBytes 8 arg ++ List.replicate 32 0#8 ++ List.replicate len 0#8 ++
    (toBytes 48 (p384G.1 % p384N)).reverse ++ (toBytes 48 s).reverse, false, 0x15, none⟩
/-- A key set whose one entry is key 7, in the seven roles, with the base point. -/
def keys : List Byte :=
  toBytes 4 1 ++ toBytes 4 1 ++ toBytes 2 1 ++ List.replicate 54 0#8 ++ toBytes 2 7 ++ toBytes 2 0x7F ++ toBytes 4 0 ++ List.replicate 23 0#8 ++ [4#8] ++
    (toBytes 48 p384G.1).reverse ++ (toBytes 48 p384G.2).reverse
/-- A module with a command waiting at the service port, whose active key set has key 7 in every role; mode and key switch as given. -/
def managed (m : Msg) (mode pos : Nat) (l : List (Fld × Nat)) : Chip :=
  { upRegs ((MG_MODE_CUR, mode) :: (MG_KEYSW_POS, pos) :: l) with pool := up.pool.setRing 46 ⟨0, 9, true, true, 0, 0x15, 0, [m]⟩, sec := { up.sec with anchor := { up.sec.anchor with slotA := keys } } }
/-- readreg. -/
def cmd_readreg : Msg := command 1 1376256 0
  0xa1c66b45e37484b745dd987eb3fe0a0ca7b22cde58c5f2e61d0619479da90c5c1e8c61c622bb4d02f525ca22eecefb56
/-- writereg. -/
def cmd_writereg : Msg := command 2 1314820 4
  0x5eaca821dda32ddbc34296f5b384dc6460b9be0354889a1fd58234968c5b29c831a10ca6d65e664b28d4e033e603e573
/-- mode. -/
def cmd_mode : Msg := command 3 3 0
  0x213a8fc1d43ed28fd05bddc68c6960f97650f5477e006101851b73251f3eac42e6d6f47106a5ea85bdd4356eb7ddb37c
/-- recclear. -/
def cmd_recclear : Msg := command 5 1 0
  0x18fe46f8815e898cf1b0a7eb74e96364e9c056a7f489b5154ab6d5a80e411baaffc0962edcc1648699a94e8cc384d9d4
/-- histfmt. -/
def cmd_histfmt : Msg := command 6 0 0
  0xd56e67237b12730f3cd8db603b9a890601053fc2654d6a80d7cce7c8524e79a157e236140b3fdcbcac374c0446a9bf1c
/-- commit. -/
def cmd_commit : Msg := command 20 0 0
  0x6efd2d674a28b111032e2077e9959f7f2c638dad8fd19bb02b93490fe9685c888e97265b24eef9ffb21f538d4c936743
/-- abandon. -/
def cmd_abandon : Msg := command 21 0 0
  0x84edd8ad162c6cbe8c16eab0140a7bd5175f88ea1a1bc2e34d3e87f4746373ae64e556d58b81c4ec3dab13b9242fe9a6
/-- keycommit. -/
def cmd_keycommit : Msg := command 33 0 0
  0x799ceff90850e39bc16d28ebaa37b20d2ee0b18fbd2ff820abe9ee952d1a181e5b0304e03cdce1cc8e3149d7e1dbf502

/-- A command of key 7 with a payload, and its signature. -/
def commandOf (code arg : Nat) (payload : List Byte) (s : Nat) : Msg :=
  ⟨toBytes 1 code ++ [0#8] ++ toBytes 2 7 ++ toBytes 2 0 ++ toBytes 2 payload.length ++ toBytes 8 0 ++ toBytes 8 1 ++ toBytes 8 arg ++ List.replicate 32 0#8 ++ payload ++
    (toBytes 48 (p384G.1 % p384N)).reverse ++ (toBytes 48 s).reverse, false, 0x15, none⟩
/-- A command without a key, as RECOVERY takes it from an empty key store. -/
def unsigned (code arg len : Nat) : Msg :=
  ⟨toBytes 1 code ++ List.replicate 5 0#8 ++ toBytes 2 len ++ List.replicate 8 0#8 ++ toBytes 8 1 ++ toBytes 8 arg ++ List.replicate (128 + len) 0#8, false, 0x15, none⟩
/-- Key set 2, signed by key 7 of set 1, but for its last four bytes. -/
def keys2 : List Byte :=
  toBytes 4 1 ++ toBytes 4 2 ++ toBytes 2 1 ++ toBytes 2 7 ++ List.replicate 52 0#8 ++ keys.drop 0x40 ++ List.replicate 3968 0#8 ++
    (toBytes 48 (p384G.1 % p384N)).reverse ++ (toBytes 48 0xff9ec5293b37d1499a7aa3aa6012d793ad5857db607acba33d05063bd18157b6d429f78dbc2d4f502a062b83545c5cfd).reverse ++ List.replicate 3932 0#8
/-- A module in RECOVERY without keys. -/
def recovery (m : Msg) (f : Chip → Chip) : State :=
  let c := managed m 1 3 [(MG_KSSTAT_EMPTY, 1)]
  on (f { c with sec := { c.sec with recSect := some 0 } })
def withSec (f : Security → Security) (c : Chip) : Chip := { c with sec := f c.sec, energy := 1400000 }

theorem witness_CommandChecks_form : up.head? (pathRing .port) = none ∧ (managed cmd_mode 2 3 []).head? (pathRing .port) = some cmd_mode ∧ cmdCode cmd_mode.bytes = 3 ∧
    cmdCode cmd_mode.bytes ≠ 2 ∧ ({ cmd_mode with poisoned := true } : Msg).poisoned = true ∧ cmdFormOk .port cmd_mode.bytes = true ∧ cmdFormOk .port (unsigned 0x3F 0 0).bytes = false ∧
    (unsigned 0 0 0).bytes.length = 160 ∧ cmdFormOk .port (unsigned 0 0 0).bytes = true ∧ cmdModeOk (unsigned 0 0 0).bytes 5 = true ∧
    up.counter MG_AUTHREF_LO < 2 ^ 64 - 1 ∧ (up.pool.ring (pathReply .port)).drops < 2 ^ 64 - 1 ∧ (32 ≤ cmdLen (unsigned 16 0 1281).bytes ∧ 1280 < cmdLen (unsigned 16 0 1281).bytes) := by
  decide +kernel
theorem witness_CommandChecks_refused : (managed (unsigned 0x3F 0 0) 2 3 []).checkCommand .port (unsigned 0x3F 0 0) = .refused 1 1 none ∧
    cmdSerial cmd_mode.bytes = up.serial ∧ cmdSerial cmd_mode.bytes ≠ (upRegs [(⟨MG_SERIAL_LO, 31, 0⟩, 1)]).serial ∧ cmdEpoch cmd_mode.bytes = up.fld FX_STATION_EPOCH ∧
    cmdEpoch cmd_mode.bytes ≠ (upRegs [(FX_STATION_EPOCH, 1)]).fld FX_STATION_EPOCH ∧ (managed cmd_mode 2 3 []).unsignedOk cmd_mode.bytes = false ∧
    up.cmdEntry .port cmd_mode = none ∧ ((managed cmd_mode 2 3 []).cmdEntry .port cmd_mode).map KeyEntry.id = some 7 ∧ 0 < cmdCounter cmd_mode.bytes ∧
    (∀ r ∈ cmdRoles cmd_mode.bytes, (0x7F).testBit r = true) ∧ (∃ r ∈ cmdRoles cmd_mode.bytes, (1).testBit r = false) ∧
    cmdKeyOk cmd_recclear.bytes 2 = false ∧ cmdKeyOk cmd_recclear.bytes 3 = true ∧ cmdModeOk cmd_histfmt.bytes 5 = false ∧ cmdModeOk cmd_histfmt.bytes 4 = true ∧
    (({ up.sec with used := [⟨7, 1, [1#8, 2#8]⟩] } : Security).used.find? fun u => u.key == 7) = some ⟨7, 1, [1#8, 2#8]⟩ ∧ (up.sec.used.find? fun u => u.key == 7) = none := by decide +kernel
theorem witness_CommandChecks_again : (withSec (fun x => { x with used := [⟨7, 1, [129#8, 2#8]⟩] }) (managed cmd_readreg 2 3 [])).checkCommand .port cmd_readreg = .again [129#8, 2#8] := by decide +kernel
theorem witness_CommandChecks_signature : (managed (command 1 1376256 0 5) 2 3 []).checkCommand .port (command 1 1376256 0 5) = .refused 5 5 none := by decide +kernel

theorem witness_QueriesAndClears_ident : Claim.passed (on (managed (unsigned 0 0 0) 4 1 [])) .port (unsigned 0 0 0) 0 none := by unfold Claim.passed; decide +kernel
theorem witness_QueriesAndClears_readreg : Claim.passed (on (managed cmd_readreg 2 3 [])) .port cmd_readreg 1 (some 7) := by unfold Claim.passed; decide +kernel
theorem witness_QueriesAndClears_writereg : Claim.passed (on (managed cmd_writereg 2 3 [])) .port cmd_writereg 2 (some 7) := by unfold Claim.passed; decide +kernel
theorem witness_QueriesAndClears_recclear : Claim.passed (on (managed cmd_recclear 2 3 [])) .port cmd_recclear 5 (some 7) := by unfold Claim.passed; decide +kernel
theorem witness_QueriesAndClears_histfmt : Claim.passed (on (managed cmd_histfmt 2 3 [(EV_HNS_STATE 0, 4)])) .port cmd_histfmt 6 (some 7) := by unfold Claim.passed; decide +kernel
theorem witness_QueriesAndClears_operands : let c := managed cmd_readreg 2 3 []
    c.islandOn 0x15 = true ∧ c.regsOk [0x1500000] 0 = true ∧ cmdLen cmd_writereg.bytes = 4 ∧ up.recorder.journalOpen = true ∧ up.sec.keyWait = none ∧
    (cmdArg cmd_recclear.bytes % 2 ^ 32).testBit 31 = false ∧ (0x80000000).testBit 31 = true ∧ ({ up.sec with keyWait := some (0, 5) } : Security).keyWait = some (pathCode .port, 5) ∧
    up.energy < 10350 ∧ 5 + 1000000000 ≤ up.now ∧ (managed cmd_histfmt 2 3 [(EV_HNS_STATE 0, 4)]).fld (EV_HNS_STATE 0) = 4 ∧ c.fld (EV_HNS_STATE 0) ≠ 4 := by decide +kernel
theorem witness_QueriesAndClears_write : let c := managed cmd_writereg 2 3 []
    let word := cmdArg cmd_writereg.bytes / 65536 % 32 * 0x100000 + cmdArg cmd_writereg.bytes % 65536
    c.regsOk [word] 4 = true ∧ ((on c).writeReg 0x15 word 0#32).chip.pool = c.pool := by decide +kernel

theorem witness_Updates_begin : Claim.passed (recovery (unsigned 16 0 1024) (withSec id)) .port (unsigned 16 0 1024) 16 none ∧ up.updTarget 0 = some (134, 120) ∧
    (∀ i, i < 120 → (up.flash.unit (134 + i)).gone = false) ∧ (∀ i, i < 120 → (up.flash.unit (134 + i)).started + 1 < 30000) ∧
    1303500 ≤ (withSec id up).energy ∧ up.power.failAt = none ∧ cmdLen (unsigned 16 0 1024).bytes = 1024 := by unfold Claim.passed; decide +kernel
/-- An update that has 16,384 bytes less one. -/
def updating : Update := ⟨0, 134, 0, List.replicate 16383 0#8⟩
theorem witness_Updates_data : Claim.passed (recovery (unsigned 17 0 1) (withSec fun x => { x with upd := some updating })) .port (unsigned 17 0 1) 17 none ∧
    cmdArg (unsigned 17 0 1).bytes = updating.next ∧ (updating.tail ++ cmdPayload (unsigned 17 0 1).bytes).length = 16384 ∧ up.sec.upd = none ∧
    (1024 + updating.next - updating.tail.length) / 16384 + 1 ≤ 120 * 1024 ∧ 1243125 ≤ (withSec id up).energy ∧ ¬1243125 ≤ up.energy := by unfold Claim.passed; decide +kernel
theorem witness_Updates_end : Claim.passed (recovery (unsigned 18 0 0) (withSec fun x => { x with upd := some ⟨0, 134, 5, []⟩ })) .port (unsigned 18 0 0) 18 none := by
  unfold Claim.passed; decide +kernel
theorem witness_Updates_trial : Claim.passed (recovery (unsigned 19 1 0) (withSec fun x => { x with cand := true })) .port (unsigned 19 1 0) 19 none ∧
    cmdArg (unsigned 19 1 0).bytes % 4 = 1 ∧ cmdArg (unsigned 19 0 0).bytes % 4 = 0 ∧ up.sec.cand = false ∧ up.sec.mark = false := by unfold Claim.passed; decide +kernel
theorem witness_Updates_commit : Claim.passed (on (withSec id (managed cmd_commit 2 3 [(MG_BOOTSTAT_TRIAL, 1)]))) .port cmd_commit 20 (some 7) ∧
    (managed cmd_commit 2 3 [(MG_BOOTSTAT_TRIAL, 1)]).flag MG_BOOTSTAT_TRIAL = true ∧ up.flag MG_BOOTSTAT_MIGRATED = false ∧ up.sec.anchor.bootLog.length < 4096 ∧
    up.sec.keyWait = none ∧ 1213800 ≤ (withSec id up).energy := by unfold Claim.passed; decide +kernel
theorem witness_Updates_abandon : Claim.passed (on (managed cmd_abandon 2 3 [])) .port cmd_abandon 21 (some 7) := by unfold Claim.passed; decide +kernel
/-- An anchor store whose latest boot word asks for 9 fuses. -/
def wantsFuses : Chip := { withSec (fun x => { x with anchor := { x.anchor with bootLog := [(commitWord (9 * 4096), true)] } }) up with regs := (upRegs [(MG_MODE_CUR, 2)]).regs }
theorem witness_Updates_rollback : wantsFuses.sec.anchor.fuses < Nat.min wantsFuses.sec.anchor.svnt 256 ∧ 1213800 ≤ wantsFuses.energy ∧ wantsFuses.power.failAt = none ∧
    2 ≤ wantsFuses.mode ∧ Nat.min up.sec.anchor.svnt 256 ≤ up.sec.anchor.fuses := by decide +kernel

/-- A part of a key set. -/
def cmd_stage : Msg := commandOf 32 0 (List.replicate 1280 0#8) 0xbf1a5ae2579c913e41e8da812c89aedad55150e8447a1df852f2e059029668094a702375cab17b4ee28203e64e4aef2f
/-- The last part of a key set. -/
def cmd_last : Msg := commandOf 32 8191 [0#8] 0x711b9e6eec6f91271b01ec2abd76e1bc609737ab98bec65afcc0c6376b0e540eaeaa4cf2a81e09ed73d68e4115fd6059
theorem witness_KeySets_part : Claim.passed (on (managed cmd_stage 2 3 [])) .port cmd_stage 32 (some 7) ∧ cmdArg cmd_stage.bytes = 0 ∧
    cmdLen cmd_stage.bytes = Nat.min 1280 (8192 - cmdArg cmd_stage.bytes) ∧ (cmdPayload cmd_stage.bytes).length < 8192 := by unfold Claim.passed; decide +kernel
theorem witness_KeySets_last : Claim.passed (on (withSec (fun x => { x with stage := some (keys2 ++ List.replicate 3 0#8) }) (managed cmd_last 2 3 []))) .port cmd_last 32 (some 7) ∧
    cmdArg cmd_last.bytes = (keys2 ++ List.replicate 3 0#8).length ∧ keys2.length = 8188 ∧ cmdLen cmd_last.bytes = Nat.min 1280 (8192 - cmdArg cmd_last.bytes) := by unfold Claim.passed; decide +kernel
theorem witness_KeySets_formed : setShape (keys2 ++ List.replicate 4 0#8) = true ∧ firstAdmin (setEntries keys2) ≠ none ∧ up.sec.keyWait = none ∧ 1213800 ≤ (withSec id up).energy ∧
    setShape (List.replicate 8192 0#8) = false ∧ ¬1213800 ≤ up.energy ∧ up.flag MG_KSSTAT_EMPTY = false ∧ up.flag MG_KSSTAT_ACTSLOT = false := by decide +kernel
theorem witness_KeySets_signed : (setGen (keys2 ++ toBytes 4 0x5A5A) == setGen keys + 1 && signedBy (keys2 ++ toBytes 4 0x5A5A) keys) = true := by decide +kernel
theorem witness_KeySets_good : (managed cmd_last 2 3 []).stageOk (keys2 ++ toBytes 4 0x5A5A) = true := by
  have e : (managed cmd_last 2 3 []).flag MG_KSSTAT_EMPTY = false := by decide +kernel
  have a : (managed cmd_last 2 3 []).flag MG_KSSTAT_ACTSLOT = false := by decide +kernel
  unfold Chip.stageOk
  rw [e, a, if_neg Bool.false_ne_true]
  exact witness_KeySets_signed
/-- A module whose slot B holds key set 2. -/
def hasStaged (m : Msg) : Chip := withSec (fun x => { x with anchor := { x.anchor with slotB := keys2 ++ toBytes 4 0x5A5A } }) (managed m 2 3 [])
theorem witness_KeySets_commit : Claim.passed (on (hasStaged cmd_keycommit)) .port cmd_keycommit 33 (some 7) := by unfold Claim.passed; decide +kernel
theorem witness_KeySets_staged : (hasStaged cmd_keycommit).isStaged = true := by
  have e : (hasStaged cmd_keycommit).flag MG_KSSTAT_EMPTY = false := by decide +kernel
  have f : (hasStaged cmd_keycommit).flag MG_KSSTAT_KSFAULT = false := by decide +kernel
  have a : (hasStaged cmd_keycommit).flag MG_KSSTAT_ACTSLOT = false := by decide +kernel
  have v : (setValid (keys2 ++ toBytes 4 0x5A5A) && setShape (keys2 ++ toBytes 4 0x5A5A)) = true := by decide +kernel
  have w : (hasStaged cmd_keycommit).sec.anchor.slot (!false) = keys2 ++ toBytes 4 0x5A5A := rfl
  have x : (hasStaged cmd_keycommit).sec.anchor.slot false = keys := rfl
  unfold Chip.isStaged
  simp only [e, f, a, if_neg Bool.false_ne_true, w, x, v, Bool.true_and]
  exact witness_KeySets_signed
theorem witness_KeySets_unstaged : up.isStaged = false ∧ up.sec.anchor.keyLog.length < 4096 ∧ 1213800 ≤ (hasStaged cmd_keycommit).energy ∧
    (managed cmd_last 2 3 []).stageOk (List.replicate 8192 0#8) = false := by decide +kernel

/-! ## Recorder and historian -/

/-- An event of stream 20 and one of an application. -/
def event0 : Event := ⟨20, 5, 0x1502, 0x15, [], 0, 0⟩
/-- A record like it. -/
def rec0 (stream seq : Nat) : EvRec := ⟨seq, stream, 5, 0x1502, 0, 1, 0, 0, 0, 0, 0, 0x15, List.replicate 16 0#8⟩
/-- A chip whose recorder is as given. -/
def recording (f : Recorder → Recorder) : Chip := { up with recorder := f up.recorder, energy := 20000 }
theorem witness_Recorder_event : up.events = [] ∧ ({ up with events := [event0] } : Chip).events = event0 :: [] ∧
    (recording fun r => { r with buf := [rec0 20 1] }).recorder.latest event0.stream = some (rec0 20 1) ∧ (rec0 20 1).code = event0.code ∧ (rec0 20 1).src = event0.src ∧
    (rec0 20 1).data = dataOf event0.data ∧ up.recorder.latest event0.stream = none ∧ up.recorder.buf.length < 8192 ∧
    ¬(List.replicate 8192 (rec0 20 1)).length < 8192 := by decide +kernel
theorem witness_Recorder_flush : up.recWanted = false ∧ ({ recording id with recWanted := true } : Chip).recWanted = true ∧ up.energy < 10350 ∧ 10350 ≤ (recording id).energy ∧
    up.recorder.buf = [] ∧ (recording fun r => { r with buf := [rec0 20 1] }).recorder.buf = [rec0 20 1] ∧ up.recorder.count 20 ≤ up.recorder.cap 20 * 65536 ∧
    up.recorder.count 20 < up.recorder.cap 20 * 65536 := by decide +kernel
theorem witness_Recorder_full : ∀ st < 32, up.recorder.count st ≤ up.recorder.cap st * 65536 := by decide +kernel
theorem witness_Recorder_full_stream : let r := (recording fun r => { r with caps := [(28, 1)], log := [] }).recorder
    r.cap 28 * 65536 ≤ r.count 28 ∧ r.log = [] := by decide +kernel
/-- A recorder whose stream 28 holds its capacity of 65,536 records. -/
def full28 : Recorder := { up.recorder with caps := [(28, 2)], log := List.replicate 65536 (rec0 28 1) }
theorem witness_Recorder_replaces : full28.cap 28 * 65536 ≤ full28.count 28 ∧ full28.log = [] ++ rec0 28 1 :: List.replicate 65535 (rec0 28 1) ∧ (rec0 28 1).stream = 28 ∧
    (∀ st, st ≠ 28 → full28.count st = 0) ∧ full28.count 28 ≤ full28.cap 28 * 65536 := by
  have h : full28.cap 28 = 1 := by decide
  have n : full28.count 28 = 65536 := by simp [Recorder.count, full28, rec0, -List.reduceReplicate]
  exact ⟨by rw [h, n] <;> decide, List.replicate_succ, rfl, fun st hs => by simp [Recorder.count, full28, rec0, Ne.symm hs, -List.reduceReplicate], by rw [h, n] <;> decide⟩
/-- A chip with a message in ring 70, which takes application events, record reads and the first binding's files. -/
def ringed (b : List Byte) : Chip :=
  { upRegs [(EV_RINGS_APP, 70), (EV_RINGS_RDREQ, 70), (EV_HBIND_RING 0, 70), (EV_HBIND_EN 0, 1), (EV_HCFG_EN, 1), (MG_MODE_CUR, 3)] with
    pool := up.pool.setRing 70 ⟨0, 9, true, true, 0, 0x15, 0, [⟨b, false, 0, none⟩]⟩
    hist := ⟨[], [], [⟨1, 0, 1, 0⟩], false, false, false⟩ }
theorem witness_Recorder_app : (ringed [1#8]).fld EV_RINGS_APP = 70 ∧ (ringed [1#8]).head? 70 = some ⟨[1#8], false, 0, none⟩ ∧ bytesAt [1#8] 4 1 % 32 ≤ 15 ∧
    (ringed [1#8]).recorder.latest 0 = none ∧ up.fld EV_RINGS_APP < 64 ∧ 15 < bytesAt [0#8, 0#8, 0#8, 0#8, 16#8] 4 1 % 32 := by decide +kernel
theorem witness_Recorder_read : (ringed (toBytes 8 0 ++ [1#8])).fld EV_RINGS_RDREQ = 70 ∧ bytesAt (toBytes 8 0 ++ [1#8]) 8 2 = 1 ∧ up.recorder.select 0 0 1 = [] ∧
    (recording fun r => { r with buf := [rec0 20 1] }).recorder.select 0x100000 0 1 = [rec0 20 1] ∧ bytesAt (toBytes 8 0 ++ [0#8]) 8 2 = 0 := by decide +kernel
theorem witness_Recorder_caps : up.islandOn 0x15 = true ∧ up.modeLockOpen = false ∧ (ringed []).modeLockOpen = true ∧ (up.reg (banked EV_STRSEL 0)).toNat % 32 ≠ 31 ∧
    ((List.range 32).map (up.recorder.setCap 0 0).cap).sum ≤ up.logUnits ∧ ¬((List.range 32).map (up.recorder.setCap 0 255).cap).sum ≤ up.logUnits ∧
    (recording fun r => { r with alarms := [⟨rec0 20 1, false⟩] }).recorder.alarms.find? (fun a => a.rec_.seq == (1#32).toNat) = some ⟨rec0 20 1, false⟩ ∧
    (up.recorder.alarms.find? fun a => a.rec_.seq == 1) = none := by decide +kernel

/-- A volume of two segments, with segments and NVMe commands as given. -/
def volume (segs : List HSeg) (ops : List NvmeOp) : Volume := ⟨2, List.replicate 16 0#8, 1, 0, 0, segs, ops⟩
/-- A chip with it at namespace 3, and one shelf on it. -/
def shelved (segs : List HSeg) (ops : List NvmeOp) (e : Shelf) : Chip := { ringed [1#8] with hist := ⟨[(3, volume segs ops)], [], [e], false, false, false⟩ }
/-- An open segment, and a sealed one whose last file is old. -/
def openSeg (at_ : Nat) : HSeg := ⟨0, false, 0, 0, [], at_⟩
def oldSeg : HSeg := ⟨1, true, 0, 0, [⟨0, 0, 0, 0, 0, 0, []⟩], 0⟩
theorem witness_Historian_mount : up.flag EV_HCFG_EN = false ∧ (ringed []).flag EV_HCFG_EN = true ∧ (ringed []).hist.vol? 3 = none ∧ ¬2 ^ 36 < (ringed []).hist.lbas 3 + 1000 ∧
    2 ^ 36 < (ringed []).hist.lbas 3 + 68719476737 ∧ (⟨false, false, 1000, true, some (2, [], 1, 0, 0), [], 0⟩ : NsInfo).volume = some (2, [], 1, 0, 0) ∧
    (⟨false, true, 1000, false, none, [], 0⟩ : NsInfo).error = true := by decide +kernel
theorem witness_Historian_file : let c := shelved [] [] ⟨8, 2, 1, 1⟩
    c.flag EV_HCFG_EN = true ∧ c.flag (EV_HBIND_EN 0) = true ∧ c.fld (EV_HBIND_RING 0) = 70 ∧ c.head? 70 = some ⟨[1#8], false, 0, none⟩ ∧ c.hist.closed = false ∧
    c.hist.shelves[c.fld (EV_HBIND_SHELF 0)]? = some ⟨8, 2, 1, 1⟩ ∧ (8).testBit 3 = true ∧ c.hist.vols = [(3, volume [] [])] ∧ 0 < (volume [] []).count ∧
    ¬((⟨8, 2, 1, 1⟩ : Shelf).mode = 0 ∧ (⟨8, 2, 1, 1⟩ : Shelf).max ≤ (c.hist.sealedOf 0).length) := by decide +kernel
theorem witness_Historian_file_open : (shelved [openSeg 0] [] ⟨8, 2, 1, 1⟩).hist.vols = [(3, volume [openSeg 0] [])] ∧ (openSeg 0).shut = false ∧ (openSeg 0).shelf = 0 ∧
    segUsed (openSeg 0) + 128 ≤ 0x4000000 ∧ (shelved [oldSeg] [] ⟨8, 0, 1, 1⟩).hist.sealedOf 0 = [(3, oldSeg)] ∧ (ringed [1#8]).hist.placeFile 1 0 128 = none := by decide +kernel
theorem witness_Historian_segments : up.hist.vol? 3 = none ∧ (shelved [openSeg 0, oldSeg] [] ⟨8, 0, 1, 1⟩).hist.vol? 3 = some (volume [openSeg 0, oldSeg] []) ∧
    (volume [openSeg 0, oldSeg] []).open? (0#32).toNat = some (openSeg 0) ∧ (openSeg 0).at_ + 0 * 1000000000 ≤ up.mono ∧ ¬(openSeg 10000000001).at_ ≤ up.mono ∧
    segUsed (openSeg 0) + 64 ≤ 0x4000000 ∧ (volume [oldSeg] []).open? (0#32).toNat = none ∧
    ((volume [oldSeg] []).segs.find? fun z => z.num == (1#32).toNat && z.shut) = some oldSeg ∧ (⟨8, 2, 1, 1⟩ : Shelf).mode = 2 ∧
    (shelved [oldSeg] [] ⟨8, 2, 1, 1⟩).hist.shelves[oldSeg.shelf]? = some ⟨8, 2, 1, 1⟩ := by decide +kernel
theorem witness_Historian_nvme : (volume [] [.flush 0]).ops = .flush 0 :: [] ∧ (volume [] [.free 0]).ops = .free 0 :: [] ∧ (volume [] [.sync]).ops = .sync :: [] ∧ (volume [] []).ops = [] ∧
    (volume [] [.entry 0]).ops = .entry 0 :: [] := by decide
theorem witness_Historian_shelves : up.islandOn 0x14 = true ∧ (up.reg EV_HSHELF).toNat * 64 + 1024 ≤ dramSize ∧ (0x40000000#32).getLsbD 30 = true ∧ (0#32).getLsbD 30 = false ∧
    (∀ e ∈ (List.range 64).map (fun k => shelfAt [] (16 * k)), e.mask = 0 ∨ (e.mode ≤ 2 ∧ 1 ≤ e.max ∧ (e.mode = 2 → 1 ≤ e.age))) := by decide +kernel

/-! ## Self-test and the service port -/

/-- A chip with self-test enabled. -/
def testing (mode : Nat) (l : List (Fld × Nat)) (f : SelfTest → SelfTest) : Chip := { upRegs ((MG_STCFG_ENABLE, 1) :: (MG_MODE_CUR, mode) :: l) with test := f up.test }
theorem witness_SelfTests_slice : let c := testing 4 [(MG_DISP_IDLE 0, 1), (MG_STCFG_BUDGET, 50)] id
    c.flag MG_STCFG_ENABLE = true ∧ c.mode = 4 ∧ c.islandOn (testIsland 1) = true ∧ 1 ∉ c.test.granted ∧ c.flag (MG_DISP_IDLE 0) = true ∧ ((on c).coreBoundaries 0).2 = none ∧
    c.test.used 0 ((on c).coreBoundaries 0).1 + 40 ≤ c.fld MG_STCFG_BUDGET ∧ (testing 4 [] id).flag (MG_DISP_IDLE 0) = false ∧ up.flag MG_STCFG_ENABLE = false ∧
    c.islandOn (testIsland 11) = true ∧ c.pool.free ≠ 0 := by decide +kernel
theorem witness_SelfTests_frame : let c := { testing 4 [] id with loop := { up.loop with epoch := some 9999999000 } }
    c.loop.epoch = some 9999999000 ∧ c.islandOn (testIsland 9) = true ∧ c.loop.due = [] ∧ ¬c.mono + 3000 ≤ 9999999000 + c.counter LE_FRAME_LO * 31250 ∧
    ({ c with loop := { c.loop with epoch := some 10000003000 } } : Chip).mono + 3000 ≤ 10000003000 + c.counter LE_FRAME_LO * 31250 ∧ c.test.used 8 10000003000 = 0 := by decide +kernel
theorem witness_SelfTests_outside : let c := testing 2 [(MG_DISP_IDLE 0, 1)] id
    c.mode = 2 ∧ c.flag (MG_DISP_IDLE 0) = true ∧ (c.test.spent.find? fun y => y.1 == 0) = none ∧ (testing 2 [] id).flag (MG_DISP_IDLE 0) = false := by decide +kernel
/-- A test whose slice has been granted, once more where `again`. -/
def grantedTest (again : List Nat) : SelfTest := { up.test with granted := [12], again := again }
theorem witness_SelfTests_result : 12 ∈ (grantedTest []).granted ∧ 12 ∉ (grantedTest []).again ∧ 12 ∈ (grantedTest [12]).again ∧ 12 ∉ up.test.granted ∧ fatalTest 12 = true ∧
    fatalTest 11 = false ∧ (assocGet up.test.done 12).getD 0 + 1 < slicesOf 12 ∧ slicesOf 12 ≤ (assocGet ({ up.test with done := [(12, 4095)] } : SelfTest).done 12).getD 0 + 1 ∧
    up.counter MG_STTRANS_LO < 2 ^ 64 - 1 := by decide +kernel
theorem witness_SelfTests_signature : ∃ good bad : Word, good = Config.sliceSignature 12 0 ∧ bad ≠ Config.sliceSignature 12 0 :=
  ⟨Config.sliceSignature 12 0, ~~~Config.sliceSignature 12 0, rfl, fun h => absurd (congrArg (fun x => x.getLsbD 0) h) (by simp)⟩
theorem witness_SelfTests_starved : passTarget 9 = some 600 ∧ (up.reg MG_STSTARVE).getLsbD 9 = false ∧ ¬(assocGet up.test.passAt 9).getD 0 + 600 * 1000000000 ≤ up.mono ∧
    (assocGet up.test.passAt 9).getD 0 + 600 * 1000000000 ≤ ({ up with now := 600000000000 } : Chip).mono ∧ passTarget 0 = none := by decide +kernel
theorem witness_SelfTests_reset : let c := { up with test := { up.test with failAt := some 0 } }
    c.ctl.fatal = false ∧ c.ctl.trans = none ∧ c.ctl.doneAt + 10000000 ≤ c.mono ∧ (∃ y, c.test.failAt = some y ∧ y + 10000000 ≤ c.mono) ∧ up.test.failAt = none :=
  ⟨by decide, by decide, by decide, ⟨0, by decide, by decide⟩, by decide⟩
theorem witness_SelfTests_health : up.flag PW_HOLDUP_CHARGING = false ∧ up.power.failAt = none ∧ up.test.huAt = none ∧ (799#13).toNat < 800 ∧ ¬((800#13).toNat < 800 ∨ 2000 < (2000#13).toNat) ∧
    ¬((600#13).toNat < 600 ∨ 4000 < (4000#13).toNat) ∧ (599#13).toNat < 600 ∧ up.flag PW_HUHEALTH_WARN = false ∧
    (upRegs [(PW_HUHEALTH_WARN, 1)]).flag PW_HUHEALTH_WARN = true ∧ up.test.crackAt = none ∧ ({ up.test with crackAt := some 9999999999 } : SelfTest).crackAt = some 9999999999 := by decide

/-- A frame of the service port that asks for a service, with its payload. -/
def frame (service : Nat) (p : List Byte) : List Byte := irFrame service p
theorem witness_ServicePort_good : let f := frame 1 []
    bytesAt f 0 2 = 0xA55A ∧ bytesAt f 2 1 < 128 ∧ bytesAt f 3 1 ≤ 128 ∧ f.length = 6 + bytesAt f 3 1 ∧ bytesAt f 4 2 = crc16 0xFFFF (cut f 2 2) ∧ bytesAt f 2 1 % 64 = 1 ∧
    up.flag MG_IRSTAT_BLIND = false ∧ up.mouth.satAt = none ∧ up.mouth.last = none ∧ ({ up.mouth with last := some (0, 1, []) } : Mouth).last = some (0, 1, []) ∧
    bytesAt (frame 5 []) 2 1 % 64 ∉ [1, 2, 3, 4] := by decide +kernel
theorem witness_ServicePort_services : ∀ x ∈ [(1, 0), (2, 8), (3, 2), (4, 4)], let f := frame x.1 (List.replicate x.2 0#8)
    bytesAt f 3 1 = x.2 ∧ bytesAt f 2 1 % 64 = x.1 ∧ f.length = 6 + x.2 ∧ bytesAt f (4 + x.2) 2 = crc16 0xFFFF (cut f 2 (2 + x.2)) := by decide +kernel
theorem witness_ServicePort_blind : (upRegs [(MG_IRSTAT_BLIND, 1)]).flag MG_IRSTAT_BLIND = true ∧ up.counter MG_IRBLIND_LO < 2 ^ 64 - 1 ∧
    ({ up.mouth with satAt := some 0 } : Mouth).satAt = some 0 ∧ 0 + 20000000 ≤ up.mono ∧ signed 11 (up.fld PW_THERM_TEMP) ≥ -120 ∧
    signed 11 ((upRegs [(PW_THERM_TEMP, 1927)]).fld PW_THERM_TEMP) < -120 ∧ (recording fun r => { r with alarms := [⟨rec0 20 1, true⟩] }).recorder.alarms = [⟨rec0 20 1, true⟩] := by
  decide

/-! ## The whole machine -/

theorem witness_StepRunsFrontCommand : ({ State.reset with pending := [.eventRecord, .opmsStore] } : State).pending = .eventRecord :: [.opmsStore] ∧ State.reset.pending = [] := by
  exact ⟨rfl, rfl⟩
theorem witness_StepKeepsInvariant : (cpuW []).Inv ∧ ∃ t, step { cpuW [] with pending := [.opmsStore] } = .next t :=
  ⟨⟨by decide, by decide +kernel⟩, ⟨_, rfl⟩⟩
/-- Core 0 at level T about to execute SVC, and at level X about to execute ERET to level T. -/
def callsService : State := { cpu fun c => { c with cstatus := 0#32, vbase := 0x100#32 } with pending := [.svc 0 5#20] }
def returns : State := { cpu fun c => { c with cstatus := 0x11#32, epc := 0x40#32 } with pending := [.eret 0 0#20] }
theorem witness_LevelChanges_entry : (callsService.core 0).run = .running ∧ (callsService.core 0).isX = false ∧ ((State.next (step callsService)).core 0).isX = true := by decide +kernel
theorem witness_LevelChanges_return : (returns.core 0).run = .running ∧ (returns.core 0).isX = true ∧ (returns.core 0).cstatus.getLsbD 2 = false ∧
    ((State.next (step returns)).core 0).isX = false := by decide +kernel

/-! ## What reaches an island and what waits -/

/-- A message that waits for room in a ring, so that nothing goes before it. -/
def waits (r : Nat) (m : Msg) (c : Chip) : Chip := { c with pool := { c.pool with held := [⟨r, 0, m⟩] } }
/-- A chip with a write of island 0 to a register under way. -/
def sending (key : Nat) : Chip := { up with inflight := [⟨0, key, 0#32, false, false⟩] }

theorem witness_reaches : (∀ d ∈ [0x17, 0x15, 0x08, 0x09, 0x0A, 0x12, 0x13, 0x14], up.writeClear 0 d = true ∧ up.islandOn d = true) ∧
    up.writeClear 0x15 0x14 = true ∧ up.islandOn 0x14 = true := by decide +kernel
theorem witness_ClosedIslandsAnswerBusError_waits : (sending 0x1500000).writeClear 0 0x15 = false ∧ (sending 0x1500000).readClear 0 0x15 = false ∧
    (waits (crossRing (planeOf 0x15) (planeOf 0)) ⟨[], false, 0, none⟩ up).readClear 0 0x15 = false ∧
    (chip0.setIslandState 0x15 3).writeClear 0 0x15 = true ∧ (chip0.setIslandState 0x15 3).readClear 0 0x15 = true ∧ (chip0.setIslandState 0x15 3).islandOn 0x15 = false := by decide +kernel
theorem witness_RegistersAndCounters_read : up.islandOn (EV_HSHELF / 0x100000) = true ∧ up.readClear 0 (EV_HSHELF / 0x100000) = true ∧
    up.readClear 0 (EV_HLOST_LO / 0x100000) = true := by decide +kernel
theorem witness_RegistersAndCounters_core : ((cpuW []).core 0).run = .running ∧ ((cpuW []).core 0).wait = none ∧ (cpuW []).chip.islandOn 0 = true ∧ ((cpuW []).core 0).isX = true ∧
    ((cpu fun c => { c with cstatus := 0#32 }).core 0).isX = false ∧ ((cpu fun c => { c with cstatus := 0#32 }).core 0).exl = false := by decide
theorem witness_Synchronisation_acknowledgement : (waits 0 ⟨[], false, 0x15, some ⟨0, 0x1500000, 0#32, true, false⟩⟩ up).ackHeld 0 = true ∧ up.ackHeld 0 = false := by decide
/-- Ring 64 with one buffer at most, when one unreserved buffer is left. -/
def lastBuffer : Chip := { ring1 false with pool := { (ring1 false).pool with retired := 129023 } }
theorem witness_PoolRings_sides : up.islandOn 8 = true ∧ (chip0.setIslandState 8 3).islandOn 8 = false ∧ up.mode ≠ 6 ∧ ((nx [] []).pool.ring 70).cons = 0x13 ∧
    (upRegs [(MG_MODE_CUR, 6)]).mode = 6 ∧ up.islandOn (({ up with pool := up.pool.setRing 64 ⟨0, 1, true, false, 0, 0x14, 0, []⟩ } : Chip).pool.ring 64).cons = true ∧
    (chip0.setIslandState 0x14 3).islandOn 0x14 = false ∧ ((cpuW []).core 0).isX = true ∧ ((cpu fun c => { c with cstatus := 0#32 }).core 0).isX = false := by decide +kernel
theorem witness_PoolRings_contest : (8 : Nat) < 0x15 ∧ (lastBuffer.pool.ring 64).en = true ∧ (∀ h ∈ lastBuffer.pool.held, h.ring ≠ 64) ∧ (lastBuffer.pool.ring 64).drop = false ∧
    (let asking : Pool := { lastBuffer.pool with held := ⟨64, 0, ⟨[], false, 0, none⟩⟩ :: lastBuffer.pool.held }
     (lastBuffer.pool.ring 64).resv ≤ asking.occ 64 ∧ asking.free = 1) := by decide +kernel

/-! ## Resets and BOOT -/

/-- A power-on reset 20 ms after its beginning, with its power fields as given. -/
def rising (f : Power → Power) : Chip := { inReset with power := f inReset.power, now := 20000000 }
theorem witness_BootAndBlocks_rise : (rising id).mayRise = true ∧ inReset.mayRise = false ∧ (rising fun p => { p with dropped := true }).mayRise = false ∧
    (rising fun p => { p with rstHigh := 20000001 }).mayRise = false ∧ (rising fun p => { p with lowAt := some 5 }).power.lowAt ≠ none := by decide
theorem witness_BootAndBlocks_program : let c : Chip := { upRegs [(MG_KEYSW_POS, 2)] with sec := { up.sec with image := [0#8] } }
    c.mode = 0 ∧ c.power.reset = none ∧ c.sec.testOpen = false ∧ c.ctl.trans = none ∧ c.sec.image ≠ [] ∧ c.keyPos = 2 ∧ c.flag MG_STSTAT_BOOTFAIL = false ∧
      c.ctl.bootSafe = false ∧ c.ctl.fatal = false ∧ c.cyc.broken = [] := by decide
theorem witness_Resets_progress : up.power.reset = none ∧ up.inCoreReset = false ∧ ({ up with power := { up.power with coreAt := some 9999999000 } } : Chip).inCoreReset = true ∧
    (rising fun p => { p with dropped := true }).power.dropped = true ∧ inReset.power.reset = some (1, 0) := by decide
theorem witness_ModeController_still : asked.chip.mode = 2 ∧ asked.chip.writeClear 0 0x15 = true ∧ ({ going with island := some 1, waiting := [], back := true } : Trans).back = true ∧
    (upRegs [(MG_MODE_CUR, 2)]).mode = 2 := by decide
theorem witness_LogicPower_flush : ({ up.power with failAt := some 5 } : Power).failAt = some 5 ∧ up.power.lowAt = none ∧ up.red.xAt = none ∧ up.writeClear 0 0x15 = true := by decide

/-! ## Tasks, the loop engine and channels -/

theorem witness_TasksAndCycles_reaches : (running none).writeClear 0 0x15 = true ∧ (running none).islandOn 0x15 = true ∧ (0x30#32).toNat % 16 = 0 ∧
    mapGet 0 (running none).cyc.cur 2 = 0 + 1 ∧ (∃ x, (task0 (some 9999999999)).dead = some x ∧ x ≤ (running none).mono) :=
  ⟨by decide, by decide, by decide, by decide, 9999999999, rfl, by decide⟩
theorem witness_PatchSets_late : (∃ x, (task0 (some 10000000000)).dead = some x ∧ x ≤ (running none).mono) ∧ ∀ x, (task0 none).dead = some x → (running none).mono < x :=
  ⟨⟨10000000000, rfl, by decide⟩, fun _ h => nomatch h⟩
/-- The engine with stages 0 and 1 due. -/
def twoDue : Chip := { engine with loop := { engine.loop with due := [0, 1] } }
theorem witness_StageLawsAndFrames_order : 0 ∈ twoDue.loop.due ∧ twoDue.mustWait 0 = false ∧ (∀ q ∈ twoDue.loop.due, q < 0 → twoDue.heldBack q = true) ∧
    1 ∈ twoDue.loop.due ∧ (∃ q ∈ twoDue.loop.due, q < 1 ∧ twoDue.heldBack q = false) ∧ twoDue.mode = 4 := by decide +kernel
theorem witness_StageChanges_reaches : engine.writeClear 0 8 = true ∧ engine.islandOn 8 = true ∧ recEnable (engine.stageRec 5) = false ∧ up.running = false := by decide +kernel
theorem witness_SamplesAndTriggers_powered : (ch (analog 8 0)).islandOn 0x0A = true ∧ (ch (analog 8 0)).topo < 2 ∧ (up.setIslandState 0x0A 3).islandOn 0x0A = false ∧
    up.writeClear 0 0x0A = true := by decide
/-- A channel that is read by software and stands in a phase of its rotation since the start. -/
def rotating (r : Rot) : Chip := ch fun x => { analog 8 3 x with rot := r }
theorem witness_RotationAndReference_over : ∀ r ∈ [Rot.attach, .calibrate, .reattach, .shadowCal], ((rotating r).chan 0).rot = r ∧ ((rotating r).chan 0).rotAt + 80 * 1000000 ≤ up.mono ∧
    ((rotating r).chan 0).betweenWindows up.mono = true ∧ ¬((rotating r).chan 0).rotAt + 10 * 1000000 ≤ chip0.mono ∧
    ({ (rotating r).chan 0 with window := some (9999999000, 10000000001) } : Chan).betweenWindows up.mono = false := by decide +kernel
theorem witness_RotationAndReference_started : (∀ i, ((ch (analog 8 0)).chan i).rot ≠ .onShadow) ∧ ({ up.grp 0 with todo := [0], round := some 9999999999 } : Grp).round = some 9999999999 := by
  refine ⟨fun i => ?_, by decide⟩
  unfold ch Chip.chan
  by_cases h : i = 0
  · subst h; decide
  · simp [mapGet, h, Chan.unused]
theorem witness_OutputsAndHart_given : 64 ≤ hart.fld (CG_HARTCFG_REQRING 0) ∧ hart.fld (CG_HARTCFG_REQRING 0) < 16384 ∧
    (hart.pool.ring (hart.fld (CG_HARTCFG_REQRING 0))).cons = 0x0A + 0 ∧ hart.islandOn 0x0A = true ∧ (up.pool.ring 70).cons ≠ 0x0A ∧
    (up.setIslandState 0x0A 3).islandOn 0x0A = false := by decide +kernel
theorem witness_ChannelTable_room : up.hasRoom 1 = true ∧ up.hasRoom 4 = true ∧ (waits 1 ⟨[], false, 0, none⟩ up).hasRoom 1 = false ∧ up.writeClear 0 0x0A = true ∧
    (waits 1 ⟨[], false, 0, none⟩ up).writeClear 8 0x0A = true := by decide +kernel
theorem witness_ChannelTable_busy : let x : Chan := { analog 8 2 Chan.unused with window := some (5, 10000000000), pend := some ⟨entry [], 3, false, 9999995000, true⟩ }
    x.pend = some ⟨entry [], 3, false, 9999995000, true⟩ ∧ eActive x.entry ≠ 0 ∧ isAo (eActive x.entry) = false ∧ (∃ z, x.window = some (z, 10000000000) ∧ z ≤ 9999995000) ∧
    10000000000 ≤ up.mono ∧ up.islandOn 0x0A = true ∧ eSource x.entry ≠ 0 := by
  refine ⟨by decide +kernel, by decide +kernel, by decide +kernel, ⟨5, rfl, by decide⟩, by decide, by decide, by decide +kernel⟩
theorem witness_ChannelTable_writeback : let at_ := up.fld CT_BASE_ADDR * 0x40000 + (up.chanBase + 0) * 0x100 + 0xB0
    at_ + 64 ≤ 0x800000000 ∧ (upRegs [(MG_MODE_CUR, 1)]).mode = 1 ∧ ({ up with locks := [⟨at_, 64, 16⟩] } : Chip).locked at_ 64 = true ∧ up.mode ≠ 1 ∧ up.locked at_ 64 = false := by decide
theorem witness_DigitalChannels_instants : (digital 1).readyAt + 26000 ≤ (up.mono + 1000) / 250000 * 250000 - 1000 ∧ (∀ q ∈ (digital 1).lastArr, q < 9999749000) ∧
    (digital 2).readyAt + 0 ≤ (up.mono + 1000) / 31250 * 31250 - 1000 ∧ eDiEn (digital 1).entry = false ∧ eDiEn bound.entry = true ∧ bound.isInput 1 = true ∧
    up.topo < 2 ∧ ({ digital 1 with readyAt := 10000000000 } : Chan).readyAt = 10000000000 := by
  refine ⟨by decide, ?_, by decide, by decide +kernel, by decide +kernel, by decide +kernel, by decide, rfl⟩
  intro q h
  simp [digital, Chan.unused] at h
theorem witness_FieldAndLink_expired : (∃ l, ({ up.grp 0 with goodDown := some 9998000000, frame := some 9999995000 } : Grp).goodDown = some l ∧ l + (up.grp 0).tmo * 1000 ≤ 9999995000) ∧
    9999995000 ≤ up.mono ∧ (up.grp 0).resumed = false ∧ (up.grp 0).deen = false ∧ (up.grp 0).goodDown = none ∧ (up.setIslandState 0x0A 3).islandOn 0x0A = false ∧
    (∃ t, ({ up.grp 0 with goodUp := some 9999000000 } : Grp).goodUp = some t ∧ t + (up.grp 0).tmo * 1000 ≤ up.mono) :=
  ⟨⟨9998000000, rfl, by decide⟩, by decide, by decide, by decide, by decide, by decide, 9999000000, rfl, by decide⟩

/-! ## The fabric, time and Ethernet -/

theorem witness_LinksAndMembership_stopped : (up.setIslandState 0x12 3).islandOn 0x12 = false ∧ (up.setIslandState 0x13 3).islandOn 0x13 = false ∧ (fabric []).writeClear 0 0x12 = true := by decide
/-- A set-point message in a packet from station 5 for ring 70. -/
def spPacket : Packet := { toMe with kind := 3, op := 0, payload := [1#8, 0#8, 7#8, 0#8] ++ List.replicate 28 0#8 }
/-- The station in a Double Reed set, whose partner alone has stage 7 enabled with REMOTE_SP. -/
def doubled : Chip :=
  let c := serving.setFlds [(LE_RSPCFG_RXRING, 70), (FX_PORTSTAT_UP 4, 1)]
  { c with eff := c.eff ++ [(MG_REDCFG, putF MG_REDCFG_TOPO 0#32 2)], red := { c.red with partner := { c.red.partner with remotes := [7] } } }
theorem witness_FabricTransactions_partner : doubled.partnersSetpoint spPacket = true ∧ serving.partnersSetpoint spPacket = false ∧ doubled.fabricOpen = true ∧
    doubled.stationId ≠ 0 ∧ doubled.fld (FX_MEMBER_STATE (spPacket.src - 1)) = 1 ∧ spPacket.sepoch = doubled.epochOf spPacket.src := by decide +kernel
/-- The standby of a pair with port 5 up. -/
def relaying : Chip :=
  let c := serving.setFlds [(MG_MODE_CUR, 6), (MG_REDSTAT_PL1UP, 1), (FX_PORTSTAT_UP 5, 1)]
  { c with eff := c.eff ++ [(MG_REDCFG, putF MG_REDCFG_TOPO 0#32 1)] }
theorem witness_FabricTransactions_standby : relaying.mode = 6 ∧ relaying.topo % 2 = 1 ∧ toMe.dst ≠ 4095 ∧ relaying.stationId ≠ 0 ∧ relaying.flag MG_REDSTAT_PL1UP = true ∧
    relaying.flag (FX_PORTSTAT_UP 5) = true ∧ relaying.flag (FX_PORTSTAT_JOINONLY 5) = false ∧ relaying.islandOn 0x12 = true := by decide
theorem witness_FabricTransactions_lengths : (toBytes 8 2).length = 8 ∧ (toBytes 16 2).length = 16 ∧ serving.poisoned 0x4000 4 = false ∧
    ({ serving with badMem := [0x100] } : Chip).poisoned 0x4000 4 = true ∧ serving.islandOn 0x12 = true := by decide
/-- A set-point message of the loop engine for station 5, and a store of core 0 to window 0, which names station 5. -/
def spOut : Msg := ⟨[1#8] ++ List.replicate 31 0#8, false, 0x08 + 0x100 * 5, none⟩
def windowStore : Msg := ⟨[], false, 0, some ⟨0, 0xA0000000, 9#32, false, false⟩⟩
def issuing (ring : Nat) (m : Msg) : Chip :=
  let c := serving.setFld (FX_CWIN_A_STATION 0) 5
  { c with pool := c.pool.setRing ring ⟨0, 1, true, true, 0, 0x12, 0, [m]⟩ }
theorem witness_FabricTransactions_sources : (issuing 71 spOut).head? 71 = some spOut ∧ ((issuing 71 spOut).pool.ring 71).cons = 0x12 ∧ (issuing 71 spOut).islandOn 0x12 = true ∧
    (issuing 71 spOut).mode ≠ 6 ∧ (issuing 71 spOut).fabricOpen = true ∧ spOut.acc = none ∧ spOut.src % 0x100 = 8 ∧ 0x100 ≤ spOut.src ∧ (issuing 71 spOut).mustHold 71 true = false ∧
    spOut.src / 0x100 % 4096 = 5 ∧ 5 ≠ (issuing 71 spOut).stationId ∧ (issuing 71 spOut).nextHop { (issuing 71 spOut).ownPacket 3 1 5 (spOut.src / 2 ^ 20) with sring := 71 } = some 0 ∧
    (issuing 71 windowStore).head? 71 = some windowStore ∧ windowStore.acc = some ⟨0, 0xA0000000, 9#32, false, false⟩ ∧ (issuing 71 windowStore).fld (FX_CWIN_A_STATION 0) = 5 ∧
    (issuing 71 windowStore).mustHold 71 false = false ∧
    (issuing 71 windowStore).nextHop { (issuing 71 windowStore).ownPacket 1 1 5 ((issuing 71 windowStore).fld (FX_CWIN_A_MOD 0)) with sring := 71 } = some 0 ∧
    (({ issuing 71 spOut with regs := (upRegs [(MG_MODE_CUR, 6)]).regs } : Chip).mode = 6 ∧ spOut.src % 0x100 ≤ 8) ∧ (serving.head? 71) = none := by decide +kernel
theorem witness_FabricTransactions_last_try : let c := { serving with fab := { serving.fab with trans := [{ transn with tries := serving.fld FX_TMOCFG_RETRIES }] } }
    c.fab.trans.find? (fun t => t.tag == 9 && t.pkt.seq == 1) = some { transn with tries := serving.fld FX_TMOCFG_RETRIES } ∧ transn.deadline ≤ c.mono := by decide
theorem witness_FabricTime_room : (∀ r, 14 ≤ r → r < 24 → up.hasRoom r = true) ∧ (waits 14 ⟨[], false, 0x12, none⟩ up).hasRoom 14 = false ∧ (timed []).islandOn 0x12 = true ∧
    (timed []).accepts (timePkt 1 []).src = true := by
  refine ⟨fun r a b => ?_, by decide, by decide, by decide⟩
  have h : ∀ r < 24, up.hasRoom r = true := by decide +kernel
  exact h r b
theorem witness_SchedulesAndEthernet_room : (∀ g : Group, scheduled.hasRoom (14 + g.val) = true) ∧ scheduled.islandOn 0x12 = true ∧ (waits 14 ⟨[], false, 0x12, none⟩ up).hasRoom (14 + 0) = false ∧
    up.writeClear 0 0x12 = true := by decide +kernel

/-- Four bytes, the most significant first, as a number. -/
theorem netAt_four (a b c d : Byte) : ofBytes [d, c, b, a] = a.toNat * 2 ^ 24 + b.toNat * 2 ^ 16 + c.toNat * 2 ^ 8 + d.toNat := by
  simp [ofBytes]; omega
/-- The bytes of this module's address. -/
theorem ip_bytes : ∃ a b c d : Byte, Config.ipAddress.toNat = a.toNat * 2 ^ 24 + b.toNat * 2 ^ 16 + c.toNat * 2 ^ 8 + d.toNat := by
  refine ⟨BitVec.ofNat 8 (Config.ipAddress.toNat / 2 ^ 24), BitVec.ofNat 8 (Config.ipAddress.toNat / 2 ^ 16), BitVec.ofNat 8 (Config.ipAddress.toNat / 2 ^ 8),
    BitVec.ofNat 8 Config.ipAddress.toNat, ?_⟩
  have h := Config.ipAddress.isLt
  simp only [BitVec.toNat_ofNat]; omega
/-- An ARP request for an address. -/
def arpFor (a b c d : Byte) : List Byte :=
  List.replicate 12 0#8 ++ [8#8, 6#8, 0#8, 1#8, 8#8, 0#8, 6#8, 4#8, 0#8, 1#8] ++ List.replicate 16 0#8 ++ [a, b, c, d] ++ List.replicate 18 0#8
/-- A datagram for port 7411 of an address with one byte, from the address whose bits are the complement, so that the header's checksum is the same for each. -/
def commandFor (a b c d : Byte) : List Byte :=
  List.replicate 12 0#8 ++ [8#8, 0#8, 0x45#8, 0#8, 0#8, 29#8, 0#8, 0#8, 0#8, 0#8, 0#8, 17#8, 0xBA#8, 0xD1#8, ~~~a, ~~~b, ~~~c, ~~~d, a, b, c, d] ++
    [0#8, 0#8, 0x1C#8, 0xF3#8, 0#8, 9#8, 0#8, 0#8, 5#8] ++ List.replicate 17 0#8
theorem witness_SchedulesAndEthernet_arp : ∃ frame : List Byte, 60 ≤ frame.length ∧ frame.length ≤ 1518 ∧ commandData frame = none ∧ (echoReply frame <|> arpReply frame).isSome = true := by
  obtain ⟨a, b, c, d, h⟩ := ip_bytes
  have e : echoReply (arpFor a b c d) = none := by simp [echoReply, ipForMe, netAt, cut, arpFor, ofBytes, List.replicate]
  refine ⟨arpFor a b c d, by simp [arpFor], by simp [arpFor], by simp [commandData, ipForMe, netAt, cut, arpFor, ofBytes, List.replicate], ?_⟩
  rw [e]
  simp [arpReply, netAt, cut, arpFor, List.replicate, netAt_four, h, ofBytes]
theorem witness_SchedulesAndEthernet_command : ∃ frame x : List Byte, 60 ≤ frame.length ∧ frame.length ≤ 1518 ∧ commandData frame = some x := by
  obtain ⟨a, b, c, d, h⟩ := ip_bytes
  refine ⟨commandFor a b c d, [5#8], by simp [commandFor], by simp [commandFor], ?_⟩
  have k : sumOk [69#8, 0#8, 0#8, 29#8, 0#8, 0#8, 0#8, 0#8, 0#8, 17#8, 186#8, 209#8, ~~~a, ~~~b, ~~~c, ~~~d, a, b, c, d] = true := by
    simp [sumOk, wordSum, foldSum]
    omega
  simp [commandData, ipForMe, k, netAt, ipData, cut, commandFor, List.replicate, netAt_four, h, ofBytes]

/-! ## Pairs, storage, commands, self-test, the service port, words -/

theorem witness_PairRoles_room : up.hasRoom 24 = true ∧ up.hasRoom 25 = true ∧ up.hasRoom 28 = true ∧ (waits 25 ⟨[], false, 0, none⟩ up).hasRoom 25 = false ∧
    (waits 28 ⟨[], false, 0, none⟩ up).hasRoom 28 = false ∧ (unit 1 1 4 [] id).running = true ∧ up.running = false ∧
    ({ up.red with retryAt := some 9999999999 } : Red).retryAt = some 9999999999 ∧ (unit 1 1 4 [] id).writeClear 0 0x15 = true := by decide
theorem witness_PairHandover_mirror : up.hasRoom 26 = true ∧ up.hasRoom 27 = true ∧ (waits 27 ⟨[], false, 0, none⟩ up).hasRoom 27 = false ∧
    (task0 none).last + (on standby).tWd 0 * 1000 ≤ standby.mono ∧ ({ standby with now := 0 } : Chip).mono < (task0 none).last + (on standby).tWd 0 * 1000 := by decide
theorem witness_PairHandover_setpoint : ∃ i, ((({ on standby with mem := dram [(0x18, 4, 0x100), (0x1C, 2, 1), (0x4000, 1, 3), (0x4001, 1, 3)] } : State).tMap 0)[0]?) = some i ∧ i.kind = 3 :=
  ⟨_, rfl, by decide⟩
theorem witness_PairHandover_fading : let c := unit 1 2 6 [(MG_REDSTAT_XFADE, 1)] fun r => { r with xAt := some 5, taking := true }
    c.red.xAt = some 5 ∧ c.flag MG_REDSTAT_XFADE = true ∧ 5 + 200000 ≤ c.mono ∧ c.running = true ∧ (unit 1 2 2 [] id).running = false ∧
    (unit 1 2 6 [] fun r => { r with xAt := some 5 }).flag MG_REDSTAT_XFADE = false := by decide
theorem witness_FlashAndHoldup_recovery : (upRegs [(MG_MODE_CUR, 1)]).mode = 1 ∧ program.op ≠ 2 ∧ ({ program with admitted := true } : FlashReq).admitted = true ∧ up.mode ≠ 1 ∧
    up.writeClear 0 0x14 = true := by decide
theorem witness_Recorder_rings : 64 ≤ (ringed [1#8]).fld EV_RINGS_APP ∧ (ringed [1#8]).fld EV_RINGS_APP < 16384 ∧ ((ringed [1#8]).pool.ring 70).cons = 0x15 ∧
    ((nx [] []).pool.ring 70).cons ≠ 0x15 := by decide
theorem witness_Recorder_running : let c := (recording fun r => { r with buf := [rec0 20 1], stored := (0, 0, 5) }).setFlds [(EV_RECSTAT_FLUSHING, 1)]
    c.flag EV_RECSTAT_FLUSHING = true ∧ c.recorder.buf = [rec0 20 1] ∧ serialGe c.recorder.stored.2.2 (rec0 20 1).seq = true ∧ 10350 ≤ c.energy ∧
    (∀ st, up.recorder.count st ≤ up.recorder.cap st * 65536) := by
  refine ⟨by decide, by decide, by decide, by decide, fun st => ?_⟩
  show 0 ≤ _
  exact Nat.zero_le _
/-- A chip whose first binding takes files of a ring that ST consumes. -/
def filing : Chip := let c := shelved [] [] ⟨8, 2, 1, 1⟩
  { c with pool := c.pool.setRing 70 ⟨0, 9, true, true, 0, 0x14, 0, [⟨[1#8], false, 0, none⟩]⟩ }
theorem witness_Historian_open : filing.flag EV_HCFG_EN = true ∧ filing.islandOn 0x14 = true ∧ filing.flag (EV_HBIND_EN 0) = true ∧ filing.hist.closed = false ∧
    64 ≤ filing.fld (EV_HBIND_RING 0) ∧ filing.fld (EV_HBIND_RING 0) < 16384 ∧ (filing.pool.ring (filing.fld (EV_HBIND_RING 0))).cons = 0x14 ∧
    filing.head? (filing.fld (EV_HBIND_RING 0)) = some ⟨[1#8], false, 0, none⟩ ∧ (up.setIslandState 0x14 3).islandOn 0x14 = false ∧ filing.mode ≠ 1 := by decide +kernel
theorem witness_CommandChecks_halted : (managed cmd_mode 1 3 []).halted = true ∧ (managed cmd_mode 2 3 []).halted = false ∧ (recovery cmd_mode id).chip.halted = false := by decide
theorem witness_QueriesAndClears_mode : Claim.passed (on (managed cmd_mode 2 3 [])) .port cmd_mode 3 (some 7) ∧ (managed cmd_mode 2 3 []).ctl.queue.length < 8 := by
  unfold Claim.passed; decide +kernel
theorem witness_QueriesAndClears_reset : Claim.passed (recovery (unsigned 4 1 0) id) .port (unsigned 4 1 0) 4 none ∧ (cmdArg (unsigned 4 1 0).bytes).testBit 0 = true := by
  unfold Claim.passed; decide +kernel
theorem witness_SelfTests_idle_engine : let c := testing 4 [] id
    c.loop.epoch = none ∧ c.mode = 4 ∧ c.islandOn (testIsland 9) = true ∧ 9 ∉ c.test.granted ∧ (c.test.spent.find? fun y => y.1 == testIsland 9) = none ∧
    ({ c.test with spent := [(testIsland 9, 9999999000, 2)] } : SelfTest).spent.find? (fun y => y.1 == testIsland 9) = some (testIsland 9, 9999999000, 2) ∧
    ¬9999999000 + 2 * 2000 ≤ c.mono := by decide
theorem witness_ServicePort_sending : ({ up.mouth with reply := some (9999999000, frame 1 []) } : Mouth).reply = some (9999999000, frame 1 []) ∧ ¬up.mono < 9999999000 ∧
    ¬9999999000 + (frame 1 []).length * 8 * 1000000000 / 57600 ≤ up.mono ∧ up.mouth.reply = none ∧ up.mouth.sendTo ≤ up.mono ∧
    up.mouth.sendTo + (frame 1 []).length * 8 * 1000000000 / 57600 ≤ up.mono := by decide
theorem witness_TracesAndRemoteSetpoints_reaches : up.writeClear 0 0x08 = true ∧ up.islandOn 0x08 = true := by decide
theorem witness_InstructionWords : (5#4) ≠ 0xF#4 ∧ (1 : RegN).val < 2 ∧ (127#16).toNat < 128 ∧ (0x8000#16).toNat / 2 ^ 14 ≠ 3 ∧ (0xA000#16).toNat / 2 ^ 13 ≤ 5 ∧
    (0x6000#16).toNat / 2 ^ 13 ∈ [0, 1, 3, 5] := by decide
theorem witness_FetchesAndFieldsRefused_words : instrOf 0 0#32 0#32 = none ∧ (0x2C000000#32).toNat / 2 ^ 26 = 0x0B ∧ (0xA4000008#32).toNat / 2 ^ 26 = 0x29 ∧
    8 ≤ (0xA4000008#32).toNat % 64 := by decide

/-- Words written out by the forms of 03_zci32_instruction_set.md: ADDI W5, W28, -16 is op 0x02, rd 5, ra 28, imm 0xFFF0 (R150, R157). -/
theorem test_word_addi : instrOf 0 0x08BCFFF0#32 0#32 = some (.addi 0 5 28 0xFFF0#16) := by decide +kernel
/-- BCC under condition 8, back by three words: op 0x20, cond 8, disp -3 (R150, R165). -/
theorem test_word_bcc : instrOf 0 0x823FFFFD#32 0#32 = some (.bcc 0 8#4 0x3FFFFD#22) := by decide +kernel
/-- LI W7: op 0x3F, lop 1, rd 7, and the second word (R150, R188). -/
theorem test_word_li : instrOf 0 0xFC138000#32 0x40002A00#32 = some (.li 0 7 0 0#10 0x40002A00#32) ∧ lenOf 0xFC138000#32 = 8 := by decide +kernel
end Sys2Proof.Tests
end

section
/-!
PROOF. Registers and their traffic between islands, and the 64-bit counters.
-/

namespace Sys2Proof.Machine

/-! ## Register accesses by the place of a register -/

/-- A word write to a place of the window whose way is clear has its effect there (R65, R71). -/
theorem regAccess_place (s : State) (src k : Nat) (eff : State → Nat → State) (h1 : 0x800000 ≤ k) (h2 : k < 0x1800000) (h3 : k % 4 = 0)
    (hw : s.chip.writeClear src (islandOf k) = true) (hon : s.chip.islandOn (islandOf k) = true) :
    s.regAccess src 4 (BitVec.ofNat 32 (0xE0000000 + k)) eff = eff s k :=
  regAccess_on s src 4 _ eff k (keyOfAddr_place k h2) (regAccessOk_place k h1 h2 h3) hw hon

theorem writeClear_of_readClear {c : Chip} {src dst : Nat} (h : c.readClear src dst = true) : c.writeClear src dst = true := by
  simp only [Chip.readClear, Bool.and_eq_true] at h
  exact h.1

theorem pathRoom_of_readClear {c : Chip} {src dst : Nat} (h : c.readClear src dst = true) : c.pathRoom dst src = true := by
  simp only [Chip.readClear, Bool.and_eq_true] at h
  exact h.2

/-- A register of ST that starts no action follows its access codes (R20). -/
theorem writeReg_st (s : State) (src k : Nat) (v : Word) (hi : islandOf k = 0x14) (hb : isBanked k = false) (h1 : k ≠ BT_FLREQ)
    (h2 : k ≠ EV_HCFG) : s.writeReg src k v = s.onChip fun c => c.writePlain src k v := by
  simp [State.writeReg, State.writeSt, hi, hb, h1, h2]

/-- A write of a register without RWL fields (R20). -/
theorem writePlain_noLock (c : Chip) (src k : Nat) (v : Word) (d : RegDesc) (hd : regDesc k = some d) (hl : d.hasLock = false) :
    c.writePlain src k v = c.setReg k (writeWord c.modeLockOpen (c.reg k) v d.fields (c.reg k)) := by
  simp [Chip.writePlain, hd, hl, Chip.lockOpen]

/-- A read changes the chip alone. -/
theorem readReg_only (s : State) (src k : Nat) : (s.readReg src k).2 = { s with chip := (s.readReg src k).2.chip } := by
  unfold State.readReg
  split
  · rfl
  · split <;> rfl

/-- A read that is answered gives what the register shows (R69). -/
theorem readResponse_place (s : State) (src k : Nat) (h1 : 0x800000 ≤ k) (h2 : k < 0x1800000) (h3 : k % 4 = 0)
    (hon : s.chip.islandOn (islandOf k) = true) (hr : s.chip.readClear src (islandOf k) = true) :
    s.readResponse src 4 (BitVec.ofNat 32 (0xE0000000 + k)) =
      (s.readReg src k).2.onChip fun c => c.answer src (.data (s.readReg src k).1) := by
  unfold State.readResponse
  rw [keyOfAddr_place k h2, pathRoom_of_readClear hr,
    regAccess_place s src k _ h1 h2 h3 (writeClear_of_readClear hr) hon]
  simp

theorem crossPlaneMessage_apart (c : Chip) (src k : Nat) (v : Word) (h : planeOf src ≠ planeOf (islandOf k)) :
    c.crossPlaneMessage src k v =
      (c.offer (crossRing (planeOf src) (planeOf (islandOf k))) ⟨[], false, src, some ⟨src, k, v, false, false⟩⟩).2 := by
  simp [Chip.crossPlaneMessage, h]

/-! ## Writes under way and acknowledgements within a plane -/

/-- The first entry of a list that meets a test is found and taken out. -/
theorem find?_eraseP_first {α : Type} (p : α → Bool) (older younger : List α) (x : α) (hx : p x = true) (ho : ∀ y ∈ older, ¬p y = true) :
    (older ++ x :: younger).find? p = some x ∧ (older ++ x :: younger).eraseP p = older ++ younger := by
  rw [List.find?_append, List.find?_eq_none.2 ho, List.find?_cons_of_pos hx, List.eraseP_append_right _ ho, List.eraseP_cons_of_pos hx]
  exact ⟨rfl, rfl⟩

/-- The oldest write under way between two islands of a plane is the one taken (R66). -/
theorem takeWrite_oldest (c : Chip) (src dst : Nat) (older younger : List Access) (x : Access) (hp : planeOf src = planeOf dst)
    (hc : c.inflight = older ++ x :: younger) (ho : ∀ y ∈ older, ¬(y.src = src ∧ islandOf y.key = dst)) (hs : x.src = src)
    (hk : islandOf x.key = dst) : c.takeWrite src dst = (some x, { c with inflight := older ++ younger }) := by
  obtain ⟨hfind, herase⟩ := find?_eraseP_first (fun a : Access => a.src == src && islandOf a.key == dst) older younger x
    (by simp [hs, hk]) (by simpa using ho)
  rw [← hc] at hfind herase
  simp only [Chip.takeWrite, if_pos hp, hfind, herase]

theorem sendAck_plane (c : Chip) (src dst : Nat) (hp : planeOf src = planeOf dst) :
    c.sendAck src dst = { c with acks := c.acks ++ [(src, dst)] } := by
  simp [Chip.sendAck, hp]

theorem takeAck_plane (c : Chip) (src dst : Nat) (hp : planeOf src = planeOf dst) :
    c.takeAck src dst = { c with acks := c.acks.erase (src, dst) } := by
  simp [Chip.takeAck, hp]

/-- The oldest write under way takes effect, and is acknowledged unless a core reset has muted it (R66, R68, R115). -/
theorem writeArrives_oldest (s : State) (src dst : Nat) (older younger : List Access) (x : Access) (hp : planeOf src = planeOf dst)
    (hc : s.chip.inflight = older ++ x :: younger) (ho : ∀ y ∈ older, ¬(y.src = src ∧ islandOf y.key = dst)) (hs : x.src = src)
    (hk : islandOf x.key = dst) (hon : s.chip.islandOn dst = true) :
    let lands := ({ s with chip := { s.chip with inflight := older ++ younger } } : State).writeReg src x.key x.value
    s.writeArrives src dst = if x.mute then lands else lands.onChip fun d => { d with acks := d.acks ++ [(src, dst)] } := by
  have hon' : ({ s.chip with inflight := older ++ younger } : Chip).islandOn dst = true := hon
  simp only [State.writeArrives, takeWrite_oldest s.chip src dst older younger x hp hc ho hs hk, hon', if_true, sendAck_plane _ _ _ hp]

/-! ## Counters -/

/-- The counters that no selection register chooses, but for OPMS. -/
def PlainCounter (k : Nat) : Prop := counterAt k = some (k, false) ∧ k ≠ SG_RINGDROP_LO ∧ k ≠ EV_STRLOST_LO ∧ k ≠ EV_OPMS_LO

theorem readCounterAt_plain (c : Chip) (src k : Nat) (h : PlainCounter k) :
    c.readCounterAt src k false =
      (BitVec.ofNat 32 (c.counter k), c.setReg (latchKey k src) (BitVec.ofNat 32 (c.counter k / 2 ^ 32))) := by
  obtain ⟨-, h1, h2, h3⟩ := h
  simp [Chip.readCounterAt, Chip.counterNow, h1, h2, h3, halfOf]

/-- The places of the islands' registers are no core's own counters. -/
theorem place_ne_own (k : Nat) (h : k < 0x1800000) :
    (BitVec.ofNat 32 (0xE0000000 + k) == 0xF0000018#32 || BitVec.ofNat 32 (0xE0000000 + k) == 0xF0000030#32) = false := by
  have hk := place_toNat k h
  have hne : ∀ w : Word, 0xF0000000 ≤ w.toNat → BitVec.ofNat 32 (0xE0000000 + k) ≠ w := by
    intro w hw e
    rw [e] at hk
    omega
  simp only [Bool.or_eq_false_iff, beq_eq_false_iff_ne]
  exact ⟨hne _ (by decide), hne _ (by decide)⟩

/-- A read of the low word answers it and latches the high word for the reading island (R687). -/
theorem counterReadLo_place (s : State) (src k : Nat) (h1 : 0x800000 ≤ k) (h2 : k < 0x1800000) (h3 : k % 4 = 0) (hp : PlainCounter k)
    (hon : s.chip.islandOn (islandOf k) = true) (hr : s.chip.readClear src (islandOf k) = true) :
    s.counterReadLo src (BitVec.ofNat 32 (0xE0000000 + k)) = { s with
      chip := (s.chip.setReg (latchKey k src) (BitVec.ofNat 32 (s.chip.counter k / 2 ^ 32))).answer src
        (.data (BitVec.ofNat 32 (s.chip.counter k))) } := by
  have hat : counterAt k = some (k, false) := hp.1
  unfold State.counterReadLo
  dsimp only
  rw [place_ne_own k h2, keyOfAddr_place k h2, pathRoom_of_readClear hr,
    regAccess_place s src k _ h1 h2 h3 (writeClear_of_readClear hr) hon]
  simp only [Bool.and_false, Bool.not_true, Bool.false_eq_true, if_false, hat, readCounterAt_plain _ _ _ hp]
  rfl

/-- A counter at 2^64 - 1 that counts once more (R691). -/
theorem bump_top (c : Chip) (k : Nat) (h : c.counter k = 2 ^ 64 - 1) :
    c.bump k 1 = ((c.setReg k 0#32).setReg (k + 4) 0#32).counterWrapped k := by
  simp only [Chip.bump, h]
  rfl

theorem counterWrap_place (s : State) (k sel : Nat) (h1 : 0x800000 ≤ k) (h2 : k < 0x1800000) (hp : PlainCounter k)
    (hv : s.chip.counter k = 2 ^ 64 - 1) :
    s.counterWrap (BitVec.ofNat 32 (0xE0000000 + k)) sel =
      { s with chip := ((s.chip.setReg k 0#32).setReg (k + 4) 0#32).counterWrapped k } := by
  obtain ⟨hat, h4, h5, h6⟩ := hp
  have hi : ¬k / 0x100000 < 8 := by omega
  simp [State.counterWrap, keyOfAddr_place k h2, hi, hat, h4, h5, h6, hv, counterTop, State.onChip, bump_top s.chip k hv]

/-- CSTATUS on entry, bit by bit (R216). -/
theorem enteredStatus_eq (st : Word) :
    enteredStatus st = BitVec.ofNat 32 (0b10001 + (if st.getLsbD 0 then 4 else 0) + (if st.getLsbD 1 then 8 else 0)) := by
  unfold enteredStatus b2n
  cases st.getLsbD 0 <;> cases st.getLsbD 1 <;> rfl

/-- What an exception of ACCESS leaves in a core that is in no handler (R216). -/
theorem enter_access_entered (s : State) (n : Core) (a : Word) (h : (s.core n).exl = false) :
    s.setCore n ((s.core n).enter excAccess false false (s.core n).pc a) = s.entered n excAccess (s.core n).pc a := by
  rw [enter_noExl _ _ _ _ _ _ h, enteredStatus_eq]
  rfl

section
variable {s : State} {n : Core} (hrun : (s.core n).run = .running) (hwait : (s.core n).wait = none) (hon : s.chip.islandOn n.val = true)
include hrun hwait hon

/-- A core's access to a counter of its own, at a level that permits it (R220). -/
theorem ownCounter_allowed (a : Word) (allowed : CoreSt → Bool) (eff : Core → State → State) (h : allowed (s.core n) = true) :
    s.ownCounter n.val a allowed eff = eff n s := by
  simp [State.ownCounter, n.isLt, hrun, hwait, hon, h]

/-- At a level that does not permit it the access raises ACCESS (R220). -/
theorem ownCounter_denied (a : Word) (allowed : CoreSt → Bool) (eff : Core → State → State) (h : allowed (s.core n) = false)
    (hexl : (s.core n).exl = false) : s.ownCounter n.val a allowed eff = s.entered n excAccess (s.core n).pc a := by
  simp [State.ownCounter, n.isLt, hrun, hwait, hon, h, enter_access_entered s n a hexl]

theorem counterReadLo_ovlwait_denied (h : (s.core n).isX = false) (hexl : (s.core n).exl = false) :
    s.counterReadLo n.val 0xF0000030#32 = s.entered n excAccess (s.core n).pc 0xF0000030#32 := by
  unfold State.counterReadLo
  dsimp only
  rw [if_pos (by decide)]
  refine ownCounter_denied hrun hwait hon _ _ _ ?_ hexl
  simp [h]

end

/-- Settles O19: each access by what its island, its ring or its counter does with it. -/
theorem registersAndCounters : Obligations.RegistersAndCounters := by
  refine ⟨fun s src dst k v h1 h2 h3 => ⟨?_, ?_, ?_, ?_, ?_⟩, fun s src n i k v w sel => ⟨?_, ?_, ?_⟩⟩
  · rintro hi hb hreq hcfg ⟨hw, hon⟩ d hd hl
    have hk : islandOf k = 0x14 := hi
    show Host.Outcome.next (s.regAccess src.val 4 _ _) = _
    rw [regAccess_place s src.val k _ h1 h2 h3 (hk ▸ hw) (hk ▸ hon), writeReg_st s src.val k v hk hb hreq hcfg]
    simp only [State.onChip, writePlain_noLock s.chip src.val k v d hd hl]
    rfl
  · intro hon hr
    refine ⟨_, congrArg Host.Outcome.next (readResponse_place s src.val k h1 h2 h3 hon hr), ?_, rfl⟩
    rw [readReg_only]
    exact ⟨rfl, rfl, rfl⟩
  · intro hp
    show Host.Outcome.next (s.onChip _) = _
    simp only [keyOfAddr_place k h2, regAccessOk_place k h1 h2 h3, if_true]
    exact congrArg (fun d => Host.Outcome.next ({ s with chip := d } : State)) (crossPlaneMessage_apart s.chip src.val k v hp)
  · intro hp older younger x hc ho hs hk hon
    exact congrArg Host.Outcome.next (writeArrives_oldest s src.val dst.val older younger x hp hc ho hs hk hon)
  · intro hp
    exact congrArg (fun d => Host.Outcome.next ({ s with chip := d } : State)) (takeAck_plane s.chip src.val dst.val hp)
  · rintro ⟨h1, h2, h3, hplain⟩ hon hr
    exact congrArg Host.Outcome.next (counterReadLo_place s src.val k h1 h2 h3 hplain hon hr)
  · rintro ⟨h1, h2, -, hplain⟩ hv
    exact ⟨_, congrArg Host.Outcome.next (counterWrap_place s k sel.val h1 h2 hplain hv), ⟨rfl, rfl, rfl⟩, rfl, _, rfl, rfl, rfl⟩
  · intro hin hrun hwait hon
    have hi : exec (.counterWriteHi i 0xF0000034#32 v) s =
        .next (s.ownCounter n.val 0xF0000034#32 CoreSt.isX fun n s => s.onCore n fun c => c.writeLocal 0x34 v) := hin ▸ rfl
    have hlo : exec (.counterWriteLo i 0xF0000030#32 w) s =
        .next (s.ownCounter n.val 0xF0000030#32 CoreSt.isX fun n s => s.onCore n fun c => c.writeLocal 0x30 w) := hin ▸ rfl
    refine ⟨fun hx => ⟨?_, ?_⟩, fun hx hexl => ⟨?_, ?_, ?_⟩⟩
    · rw [hi, ownCounter_allowed hrun hwait hon _ _ _ hx]; rfl
    · rw [hlo, ownCounter_allowed hrun hwait hon _ _ _ hx]; rfl
    · rw [hi, ownCounter_denied hrun hwait hon _ _ _ hx hexl]
    · rw [hlo, ownCounter_denied hrun hwait hon _ _ _ hx hexl]
    · show Host.Outcome.next (s.counterReadLo i.val _) = _
      rw [hin, counterReadLo_ovlwait_denied hrun hwait hon hx hexl]

end Sys2Proof.Machine
end

section
/-!
PROOF. Direct writes, update sets, disabling of stages and the schedule bound of a tap.
-/

namespace Sys2Proof.Machine

/-! ## Register writes that reach their island -/

/-- A register write that reaches its island changes the chip by its effect alone (R66, R71, R74). -/
theorem next_whenOn (s : State) (src k : Nat) (f : Chip → Chip) (h : Claim.reaches s.chip src (islandOf k)) :
    (Host.Outcome.next (s.onChip fun c => c.whenOn src k f) : Out) = Claim.chipNext s (f s.chip) := by
  obtain ⟨hw, hon⟩ := h
  rw [whenOn_on s src k f hw hon]
  rfl

/-! ## Words of a stage's record -/

theorem recW_stageRec (c : Chip) (s i : Nat) (h : i < 32) : recW (c.stageRec s) i = c.reg (LE_STAGE (32 * s + i)) := by
  simp [recW, Chip.stageRec, h]

/-- ENABLE of a stage is bit 4 of its CTRL word (R281). -/
theorem recEnable_stageRec (c : Chip) (s : Nat) : recEnable (c.stageRec s) = (c.fld ⟨LE_STAGE (32 * s), 4, 4⟩ == 1) := by
  simp only [recEnable, recF, recW_stageRec c s 0 (by decide)]
  rfl

/-! ## Direct writes (R285, R323) -/

theorem directWrite_flags (c : Chip) (s : Nat) (v : Word) :
    c.directWrite s 29 v = c.setReg (LE_STAGE (32 * s + 29)) (recW (c.stageRec s) 29 &&& ~~~(v &&& 0x7FF#32)) := rfl

/-- The other device words take no direct write. -/
theorem directWrite_device (c : Chip) (s i : Nat) (v : Word) (h : 23 ≤ i) (h29 : i ≠ 29) :
    c.directWrite s i v = if recEnable (c.stageRec s) then c.setFlag LE_STAT_DIRREF true else c := by
  simp [Chip.directWrite, h, h29]

section
variable {c : Chip} {s : Nat} (hon : recEnable (c.stageRec s) = true)
include hon

/-- Of an enabled stage SPLOCAL and MANVAL are written as they are. -/
theorem directWrite_on_setpoint (i : Nat) (v : Word) (h : i = 18 ∨ i = 19) :
    c.directWrite s i v = c.setReg (LE_STAGE (32 * s + i)) v := by
  have h1 : i ≠ 29 := by omega
  have h2 : ¬23 ≤ i := by omega
  simp [Chip.directWrite, hon, h, h1, h2]

/-- CTRL takes a write that changes MODE alone. -/
theorem directWrite_on_ctrl (v : Word) (h : modeOnly (c.stageRec s) v = true) :
    c.directWrite s 0 v = { c.setReg (LE_STAGE (32 * s)) (v &&& 0x007DFF7F#32) with
      loop := { c.loop with kept := c.loop.kept.filter (· != s) } } := by
  simp [Chip.directWrite, hon, h, recMask, Chip.onLoop, Chip.setReg]

theorem directWrite_on_ctrl_refused (v : Word) (h : modeOnly (c.stageRec s) v = false) :
    c.directWrite s 0 v = c.setFlag LE_STAT_DIRREF true := by
  simp [Chip.directWrite, hon, h]

/-- Every other software word refuses it. -/
theorem directWrite_on_refused (i : Nat) (v : Word) (h1 : 1 ≤ i) (h : i ≤ 17 ∨ (20 ≤ i ∧ i ≤ 22)) :
    c.directWrite s i v = c.setFlag LE_STAT_DIRREF true := by
  have h2 : i ≠ 29 := by omega
  have h3 : ¬23 ≤ i := by omega
  have h4 : ¬(i = 18 ∨ i = 19) := by omega
  have h5 : i ≠ 0 := by omega
  simp [Chip.directWrite, hon, h2, h3, h4, h5]

end

section
variable {c : Chip} {s : Nat} (hoff : recEnable (c.stageRec s) = false)
include hoff

theorem directWrite_off_ctrl (v : Word) :
    c.directWrite s 0 v = (c.setReg (LE_STAGE (32 * s)) (v &&& 0x007DFF6F#32)).trimStates s := by
  simp [Chip.directWrite, hoff, recMask]

/-- Of a disabled stage every software word is written, but for its reserved bits (R18, R19). -/
theorem directWrite_off (i : Nat) (v : Word) (h1 : 1 ≤ i) (h2 : i ≤ 22) :
    c.directWrite s i v = c.setReg (LE_STAGE (32 * s + i)) (v &&& recMask i) := by
  have h3 : i ≠ 29 := by omega
  have h4 : ¬23 ≤ i := by omega
  have h5 : i ≠ 0 := by omega
  simp [Chip.directWrite, hoff, h3, h4, h5]

end

/-! ## Update sets (R324 to R328) -/

theorem bitsOf_eq (x hi lo : Nat) : bitsOf x hi lo = x / 2 ^ lo % 2 ^ (hi - lo + 1) := by
  rw [bitsOf, Nat.shiftRight_eq_div_pow]

/-- COUNT of LE_UPDCOMMIT (R324). -/
theorem bitsOf_count (x : Nat) : bitsOf x 6 0 = x % 128 := by simp [bitsOf_eq]
/-- TAG of LE_UPDCOMMIT (R324). -/
theorem bitsOf_tag (x : Nat) : bitsOf x 15 8 = x / 256 % 256 := by simp [bitsOf_eq]
/-- STAGE of LE_DISABLE (R329). -/
theorem bitsOf_stage (x : Nat) : bitsOf x 10 0 = x % 2048 := by simp [bitsOf_eq]

/-- The set that a write of LE_UPDCOMMIT names. -/
def Chip.askedSet (c : Chip) (v : Word) : UpdSet :=
  ⟨v.toNat / 256 % 256, if (c.reg LE_UPDFRAME).toNat = 0 then none else some (c.reg LE_UPDFRAME).toNat, c.stagedRecs (v.toNat % 128)⟩

/-- Whether the frame it names has passed, counted modulo 2^32 (R328). -/
def Chip.updPast (c : Chip) : Prop :=
  let target := (c.reg LE_UPDFRAME).toNat
  let ahead := (target + 2 ^ 32 - c.loop.frame % 2 ^ 32) % 2 ^ 32
  target ≠ 0 ∧ (ahead = 0 ∨ 2 ^ 31 ≤ ahead)

/-- In RUN-LOCKED and RECOVERY no set is taken. -/
theorem updCommit_mode (c : Chip) (v : Word) (h : c.mode = 5 ∨ c.mode = 1) :
    c.updCommit v = c.updReport (v.toNat / 256 % 256) 0x7F 8 := by
  simp [Chip.updCommit, h, bitsOf_tag]

section
variable {c : Chip} (hmode : ¬(c.mode = 5 ∨ c.mode = 1))
include hmode

theorem updCommit_busy (v : Word) (h : c.loop.upd ≠ none) : c.updCommit v = c.updReport (v.toNat / 256 % 256) 0x7F 2 := by
  simp [Chip.updCommit, hmode, Option.isSome_iff_ne_none, h, bitsOf_tag]

variable {v : Word} (hu : c.loop.upd = none)
include hu

theorem updCommit_count (h : v.toNat % 128 = 0 ∨ 64 < v.toNat % 128) : c.updCommit v = c.updReport (v.toNat / 256 % 256) 0x7F 3 := by
  simp [Chip.updCommit, hmode, hu, bitsOf_count, bitsOf_tag, h]

variable (hn : ¬(v.toNat % 128 = 0 ∨ 64 < v.toNat % 128))
include hn

theorem updCommit_bad (code idx : Nat) (hc : c.checkSet (c.stagedRecs (v.toNat % 128)) = some (code, idx)) :
    c.updCommit v = c.updReport (v.toNat / 256 % 256) idx code := by
  simp [Chip.updCommit, hmode, hu, bitsOf_count, bitsOf_tag, hn, hc]

variable (hc : c.checkSet (c.stagedRecs (v.toNat % 128)) = none)
include hc

/-- While no frames run a set that passes is applied at once. -/
theorem updCommit_apply (hr : c.running = false) : c.updCommit v = c.applyUpd (c.askedSet v) := by
  simp [Chip.updCommit, hmode, hu, bitsOf_count, bitsOf_tag, hn, hc, hr, Chip.askedSet]

theorem updCommit_late (hr : c.running = true) (hp : c.updPast) : c.updCommit v = c.updReport (v.toNat / 256 % 256) 0x7F 9 := by
  simp only [Chip.updCommit, bitsOf_count, bitsOf_tag, hu, hr, if_neg hmode, if_neg hn, hc]
  exact if_pos hp

/-- Otherwise it waits for its frame. -/
theorem updCommit_waits (hr : c.running = true) (hp : ¬c.updPast) : c.updCommit v =
    ((c.onLoop fun l => { l with upd := some (c.askedSet v) }).setFlag LE_STAT_UPDPEND true).updReport (v.toNat / 256 % 256) 0x7F 0 := by
  simp only [Chip.updCommit, bitsOf_count, bitsOf_tag, hu, hr, if_neg hmode, if_neg hn, hc]
  exact if_neg hp

end

/-! ## What reports and counts leave alone -/

/-- A report goes into LE_UPDSTAT alone. -/
theorem updReport_only (c : Chip) (tag idx result : Nat) :
    c.updReport tag idx result = { c with regs := (c.updReport tag idx result).regs } := setFlds_only _ c

theorem reg_updReport_ne (c : Chip) (tag idx result k : Nat) (h : k ≠ LE_UPDSTAT) : (c.updReport tag idx result).reg k = c.reg k :=
  reg_setFlds_ne _ c k (by simp [h])

theorem result_updReport (c : Chip) (tag idx result : Nat) : (c.updReport tag idx result).fld LE_UPDSTAT_RESULT = result % 16 := by
  simp only [Chip.updReport, Chip.setFlds]
  exact fld_setFld_same _ LE_UPDSTAT_RESULT result (by decide) (by decide)

/-- LE_LOAD and LE_COUNT alone follow the configuration (R309). -/
theorem leCounts_only (c : Chip) : c.leCounts = { c with regs := c.leCounts.regs } := setFlds_only _ c

theorem reg_leCounts_ne (c : Chip) (k : Nat) (h1 : k ≠ LE_LOAD) (h2 : k ≠ LE_COUNT) : c.leCounts.reg k = c.reg k :=
  reg_setFlds_ne _ c k (by simp [h1, h2])

theorem loop_leCounts (c : Chip) : c.leCounts.loop = c.loop := by rw [leCounts_only]

theorem events_leCounts (c : Chip) : c.leCounts.events = c.events := by rw [leCounts_only]

/-- A set that waits: nothing of the engine changes but the pending set, and UPDPEND is shown (R325). -/
theorem waiting_set (c : Chip) (u : UpdSet) (tag : Nat) :
    let d := ((c.onLoop fun l => { l with upd := some u }).setFlag LE_STAT_UPDPEND true).updReport tag 0x7F 0
    d.loop = { c.loop with upd := some u } ∧ d.flag LE_STAT_UPDPEND = true ∧ d.fld LE_UPDSTAT_RESULT = 0 := by
  refine ⟨by rw [updReport_only]; rfl, ?_, result_updReport _ tag 0x7F 0⟩
  have h := fld_setFld_same (c.onLoop fun l => { l with upd := some u }) LE_STAT_UPDPEND 1 (by decide) (by decide)
  simp only [Chip.flag, Chip.fld, reg_updReport_ne _ _ _ _ LE_STAT (by decide)] at h ⊢
  simp only [Chip.setFlag, b2n, if_true, h]
  rfl

/-! ## Disabling (R329) -/

/-- Whether another enabled stage reads a stage or names it as PARENT. -/
def Chip.readByOther (c : Chip) (q : Nat) : Bool := c.enabledStages.any fun j => j != q && readsStage (c.stageRec j) q

theorem readsStage_eq (r : List Word) (q : Nat) : readsStage r q =
    (((recSources r).take (typeInputs (recType r))).any (fun y => srcStage y == some q) || (recType r == tPid && recParent r == some q)) := by
  unfold readsStage recCascade
  by_cases h : recType r = tPid <;> simp [h]

section
variable {c : Chip} {v : Word}

theorem leDisable_used (h : c.readByOther (v.toNat % 2048) = true) : c.leDisable v = c.setFlag LE_STAT_DIRREF true := by
  unfold Chip.readByOther at h
  simp [Chip.leDisable, bitsOf_stage, h]

variable (h : c.readByOther (v.toNat % 2048) = false)
include h

theorem leDisable_idle (he : recEnable (c.stageRec (v.toNat % 2048)) = false) : c.leDisable v = c := by
  unfold Chip.readByOther at h
  simp [Chip.leDisable, bitsOf_stage, h, he]

variable (he : recEnable (c.stageRec (v.toNat % 2048)) = true)
include he

/-- While frames run the stage is disabled at the next one. -/
theorem leDisable_running (hr : c.running = true) :
    c.leDisable v = { c with loop := { c.loop with disables := v.toNat % 2048 :: c.loop.disables } } := by
  unfold Chip.readByOther at h
  simp [Chip.leDisable, bitsOf_stage, h, he, hr, Chip.onLoop]

theorem leDisable_stopped (hr : c.running = false) : c.leDisable v = c.disableStage (v.toNat % 2048) := by
  unfold Chip.readByOther at h
  simp [Chip.leDisable, bitsOf_stage, h, he, hr]

end

/-- A stage disabled at once is no longer enabled, and the frame's due stages stay as they are. -/
theorem disableStage_effect (c : Chip) (q : Nat) :
    recEnable ((c.disableStage q).stageRec q) = false ∧ (c.disableStage q).loop.due = c.loop.due := by
  refine ⟨?_, by simp only [Chip.disableStage, loop_leCounts]; rfl⟩
  have h1 : LE_STAGE (32 * q) ≠ LE_LOAD := by simp only [LE_STAGE, LE_LOAD]; omega
  have h2 : LE_STAGE (32 * q) ≠ LE_COUNT := by simp only [LE_STAGE, LE_COUNT]; omega
  have h := fld_setFld_same c ⟨LE_STAGE (32 * q), 4, 4⟩ 0 (Nat.le_refl 4) (by show 4 < 32; decide)
  rw [recEnable_stageRec]
  simp only [Chip.disableStage, Chip.fld, reg_leCounts_ne _ _ h1 h2] at h ⊢
  simp only [Chip.onLoop, Chip.reg] at h ⊢
  simp [h]

/-! ## Taps (R309) -/

theorem bitAt_toNat (v : Word) (i : Nat) : bitAt v.toNat i = v.getLsbD i := by
  rw [BitVec.getLsbD, Nat.testBit_eq_decide_div_mod_eq, bitAt, bitsOf_eq, Nat.sub_self]
  rfl

section
variable {c : Chip} {t : Nat} {v : Word}

/-- A tap that would take the schedule past its bound is not enabled. -/
theorem writeTapsel_refused (hon : v.getLsbD 31 = true ∧ c.flag (LE_TAPSEL_ENABLE t) = false)
    (hlong : 29000 < scheduleBound c.config (c.enabledTaps.length + 1)) : c.writeTapsel t v = c.setFlag LE_STAT_DIRREF true := by
  simp [Chip.writeTapsel, bitAt_toNat, hon, hlong]

/-- Any other write of LE_TAPSEL is taken, its reserved bits aside. -/
theorem writeTapsel_taken (h : ¬((v.getLsbD 31 = true ∧ c.flag (LE_TAPSEL_ENABLE t) = false) ∧
      29000 < scheduleBound c.config (c.enabledTaps.length + 1))) :
    (c.writeTapsel t v).reg (LE_TAPSEL t) = v &&& 0xFFF807FF#32 ∧ (c.writeTapsel t v).events = c.events := by
  have h1 : LE_TAPSEL t ≠ LE_LOAD := by simp only [LE_TAPSEL, LE_LOAD]; omega
  have h2 : LE_TAPSEL t ≠ LE_COUNT := by simp only [LE_TAPSEL, LE_COUNT]; omega
  have hc : ¬(bitAt v.toNat 31 && !c.flag (LE_TAPSEL_ENABLE t) &&
      decide (29000 < scheduleBound c.config (c.enabledTaps.length + 1))) = true := by simpa [bitAt_toNat] using h
  simp only [Chip.writeTapsel, if_neg hc, events_leCounts, reg_leCounts_ne _ _ h1 h2]
  exact ⟨reg_setReg_same c (LE_TAPSEL t) _, rfl⟩

end

/-- Settles O29: every write reaches the engine (R66, R71), and each has its outcome by the cases above. -/
theorem stageChanges : Obligations.StageChanges := by
  intro s src k i tap v hr
  dsimp only
  have hw : exec (.stageDirectWrite src k i v) s = Claim.chipNext s (s.chip.directWrite k.val i.val v) := next_whenOn s src.val (LE_STAGE 0) _ hr
  have hu : exec (.updateSetCommit src v) s = Claim.chipNext s (s.chip.updCommit v) := next_whenOn s src.val LE_UPDCOMMIT _ hr
  have hd : exec (.leDisable src v) s = Claim.chipNext s (s.chip.leDisable v) := next_whenOn s src.val LE_DISABLE _ hr
  have htap : islandOf (LE_TAPSEL tap.val) = 8 := by simp only [islandOf, LE_TAPSEL]; omega
  have ht : exec (.tapEnable src tap v) s = Claim.chipNext s (s.chip.writeTapsel tap.val v) :=
    next_whenOn s src.val (LE_TAPSEL tap.val) _ (htap ▸ hr)
  simp only [← readsStage_eq]
  rw [hw, hu, hd]
  refine ⟨?_, ?_, ?_, ?_, ?_, ?_, ?_, ?_, ⟨?_, fun hm => ?_, fun hm => ?_, fun hm hupd h1 h2 => ?_⟩, ⟨?_, ?_, ?_, ?_⟩, ?_, ?_⟩
  · intro hi
    rw [hi, directWrite_flags]
  · intro h h29
    rw [directWrite_device _ _ _ _ h h29]
    cases recEnable (s.chip.stageRec k.val) <;> rfl
  · intro hon hi
    rw [directWrite_on_setpoint hon _ _ hi]
  · intro hon hi hm
    rw [hi, directWrite_on_ctrl hon _ hm]
    rfl
  · intro hon hi hm
    rw [hi, directWrite_on_ctrl_refused hon _ hm]
  · intro hon h1 h
    rw [directWrite_on_refused hon _ _ h1 h]
  · intro hoff hi
    rw [hi, directWrite_off_ctrl hoff]
    rfl
  · intro hoff h1 h2
    rw [directWrite_off hoff _ _ h1 h2]
  · intro hm
    have hmode : s.chip.mode = 5 ∨ s.chip.mode = 1 := by omega
    rw [updCommit_mode _ _ hmode]
  · intro hupd
    rw [updCommit_busy (not_or.2 hm) _ hupd]
  · intro hupd hn
    rw [updCommit_count (not_or.2 hm) hupd hn]
  · have hm' := not_or.2 hm
    have hn : ¬(v.toNat % 128 = 0 ∨ 64 < v.toNat % 128) := by omega
    refine ⟨?_, ?_, ?_, ?_⟩
    · intro code idx hc
      rw [updCommit_bad hm' hupd hn _ _ hc]
    · intro hc hrun
      rw [updCommit_apply hm' hupd hn hc hrun]
      rfl
    · intro hc hrun hp
      rw [updCommit_late hm' hupd hn hc hrun hp]
    · intro hc hrun hp
      rw [updCommit_waits hm' hupd hn hc hrun hp] at hu
      exact ⟨_, hu, waiting_set s.chip _ _⟩
  · intro h
    rw [leDisable_used h]
  · intro h he
    rw [leDisable_idle h he]
    rfl
  · intro he h hrun
    rw [leDisable_running h he hrun]
  · intro he h hrun
    rw [leDisable_stopped h he hrun] at hd
    exact ⟨_, hd, disableStage_effect s.chip _⟩
  · rintro ⟨hon, hlong⟩
    rw [ht, writeTapsel_refused hon hlong]
  · intro h
    exact ⟨_, ht, writeTapsel_taken h⟩

end Sys2Proof.Machine
end

section
/-!
PROOF. Enabling, disabling, boundaries, ends and watchdogs of the cyclic tasks.
-/

namespace Sys2Proof.Machine

/-! ## What a list of changes keeps -/

/-- What every single change keeps, a list of them keeps. -/
theorem onChans_keeps {β : Type} (P : Chip → β) (f : Nat → Chip → Chip) (h : ∀ i c, P (f i c) = P c) :
    ∀ (l : List Nat) (c : Chip), P (c.onChans f l) = P c
  | [], _ => rfl
  | i :: is, c => by rw [Chip.onChans, onChans_keeps P f h is, h]

theorem foldl_keeps {α β : Type} (P : Chip → β) (f : Chip → α → Chip) (h : ∀ c x, P (f c x) = P c) :
    ∀ (l : List α) (c : Chip), P (l.foldl f c) = P c
  | [], _ => rfl
  | x :: xs, c => by rw [List.foldl_cons, foldl_keeps P f h xs, h]

/-- A state that differs in the chip alone is the old one with that chip. -/
theorem eq_of_restSame {s t : State} (h : s.restSame t) : t = { s with chip := t.chip } := by
  obtain ⟨hc, hm, hp⟩ := h
  rw [← hc, ← hm, ← hp]

theorem restSame_trans {s t u : State} (h : s.restSame t) (h' : t.restSame u) : s.restSame u := by
  obtain ⟨hc, hm, hp⟩ := h
  obtain ⟨hc', hm', hp'⟩ := h'
  exact ⟨hc'.trans hc, hm'.trans hm, hp'.trans hp⟩

theorem restSame_onChip (s : State) (f : Chip → Chip) : s.restSame (s.onChip f) := ⟨rfl, rfl, rfl⟩

/-! ## Enabling and disabling (R228, R229) -/

theorem modeLockOpen_iff (c : Chip) : c.modeLockOpen = true ↔ c.mode = 3 ∨ c.mode = 7 := by simp [Chip.modeLockOpen]

theorem bitsOf_descAddr (x : Nat) : bitsOf x 28 0 = x % 2 ^ 29 := by simp [bitsOf_eq]

/-- The state in which a task's descriptor is checked: ADDR has been written. -/
def State.described (s : State) (k : Nat) (v : Word) : State := s.onChip fun d => d.setFld (MG_TASKDESC_ADDR k) (v.toNat % 2 ^ 29)

section
variable {s : State} (src : Nat) {k : Nat} (v : Word)

theorem taskEnable_locked (h : s.chip.modeLockOpen = false) :
    s.taskEnable src k v = s.onChip fun c => c.rwlIgnored src (MG_TASKDESC k) := by
  simp [State.taskEnable, h]

theorem taskDisable_locked (h : s.chip.modeLockOpen = false) :
    s.taskDisable src k v = s.onChip fun c => c.rwlIgnored src (MG_TASKDESC k) := by
  simp [State.taskDisable, State.onChip, h]

variable (hopen : s.chip.modeLockOpen = true)
include hopen

theorem taskDisable_open : s.taskDisable src k v = { s with
    chip := { (s.chip.setFlag (MG_TASKDESC_ENABLE k) false).setFld (MG_TASKDESC_ADDR k) (v.toNat % 2 ^ 29) with
      locks := s.chip.locks.filter fun l => l.owner != k } } := by
  simp only [State.taskDisable, State.onChip, hopen, bitsOf_descAddr]
  rfl

theorem taskEnable_enabled (h : s.chip.flag (MG_TASKDESC_ENABLE k) = true) : s.taskEnable src k v = s := by
  simp [State.taskEnable, hopen, h]

variable (hoff : s.chip.flag (MG_TASKDESC_ENABLE k) = false)
include hoff

theorem taskEnable_passes (h : (s.described k v).enableReason k = 0) : s.taskEnable src k v = { s with
    chip := { (s.described k v).chip.setFlag (MG_TASKDESC_ENABLE k) true with locks := s.chip.locks ++ (s.described k v).taskLocks k } } := by
  unfold State.described at h
  simp only [State.taskEnable, hopen, hoff, bitsOf_descAddr, h]
  rfl

theorem taskEnable_refused (h : (s.described k v).enableReason k ≠ 0) : s.taskEnable src k v = { s with
    chip := (s.described k v).chip.setFld (MG_TASKSTAT_REFUSE k) ((s.described k v).enableReason k) } := by
  unfold State.described at h ⊢
  simp only [State.taskEnable, hopen, hoff, bitsOf_descAddr]
  rfl

end

/-- A PERIOD out of range is reason 1, whatever else fails (log entry 43). -/
theorem enableReason_period (s : State) (k : Nat) (h : s.tPeriod k < 250 ∨ 10000000 < s.tPeriod k) : s.enableReason k = 1 := by
  have hf : s.descFieldsOk k = false := by
    have hp : decide (250 ≤ s.tPeriod k ∧ s.tPeriod k ≤ 10000000) = false := decide_eq_false (by omega)
    simp only [State.descFieldsOk, hp, Bool.and_false, Bool.false_and]
  simp [State.enableReason, hf]

/-! ## Tasks of the present run -/

theorem assocGet_assocSet_same {α : Type} (l : List (Nat × α)) (k : Nat) (v : α) : assocGet (assocSet l k v) k = some v := by
  simp [assocGet, assocSet]

/-- Changing a task of the run changes nothing else. -/
theorem onRun_some {c : Chip} {k : Nat} {r : TaskRun} (h : c.run k = some r) (f : TaskRun → TaskRun) :
    c.onRun k f = { c with cyc := { c.cyc with tasks := assocSet c.cyc.tasks k (f r) } } := by
  simp [Chip.onRun, h, Chip.onCyc]

theorem run_onRun {c : Chip} {k : Nat} {r : TaskRun} (h : c.run k = some r) (f : TaskRun → TaskRun) : (c.onRun k f).run k = some (f r) := by
  rw [onRun_some h]
  exact assocGet_assocSet_same _ _ _

/-- What a change of a task keeps. -/
theorem patches_onRun (c : Chip) (k : Nat) (f : TaskRun → TaskRun) : (c.onRun k f).cyc.patches = c.cyc.patches := by
  unfold Chip.onRun
  split <;> rfl

/-! ## Dispatch (R234 to R236) -/

/-- The tasks of the run, those that are ready and the patch sets: what dispatching keeps. -/
def Cyc.plan (y : Cyc) : List (Nat × TaskRun) × List Nat × List PatchSet := (y.tasks, y.ready, y.patches)

theorem setFlds_keeps {β : Type} (P : Chip → β) (h : ∀ c l, P { c with regs := l } = P c) (c : Chip) (l : List (Fld × Nat)) :
    P (c.setFlds l) = P c := by
  rw [setFlds_only]
  exact h c _

theorem showStates_keeps {β : Type} (P : Chip → β) (h : ∀ c l, P { c with regs := l } = P c) (c : Chip) : P c.showStates = P c :=
  onChans_keeps P _ (fun _ c => h c _) _ c

theorem dispatchCore_keeps (s : State) (n : Nat) :
    s.restSame (s.dispatchCore n) ∧ (s.dispatchCore n).chip.cyc.plan = s.chip.cyc.plan := by
  refine ⟨restSame_onChip _ _, ?_⟩
  have h : ∀ c l, ((c : Chip).setFlds l).cyc.plan = c.cyc.plan := setFlds_keeps (fun c => c.cyc.plan) fun _ _ => rfl
  simp only [State.dispatchCore, onChip_chip, apply_ite Chip.cyc, h, ite_self]
  rfl

/-- Changes of one core's dispatch after another. -/
theorem each_keeps {β : Type} (P : Chip → β) (f : Nat → State → State)
    (h : ∀ n s, s.restSame (f n s) ∧ P (f n s).chip = P s.chip) :
    ∀ (l : List Nat) (s : State), s.restSame (s.each f l) ∧ P (s.each f l).chip = P s.chip
  | [], _ => ⟨⟨rfl, rfl, rfl⟩, rfl⟩
  | n :: ns, s => by
    obtain ⟨hr, hp⟩ := h n s
    obtain ⟨hr', hp'⟩ := each_keeps P f h ns (f n s)
    exact ⟨restSame_trans hr hr', hp'.trans hp⟩

/-- Dispatching changes the chip alone, and neither the tasks nor which are ready nor the patch sets. -/
theorem dispatch_keeps (s : State) : s.restSame s.dispatch ∧ s.dispatch.chip.cyc.plan = s.chip.cyc.plan := by
  obtain ⟨hr, hp⟩ := each_keeps (fun c => c.cyc.plan) _ (fun n s => dispatchCore_keeps s n) (List.range 8) s
  exact ⟨restSame_trans hr (restSame_onChip _ _), (showStates_keeps (fun c => c.cyc.plan) (fun _ _ => rfl) _).trans hp⟩

theorem run_of_plan {c d : Chip} (h : d.cyc.plan = c.cyc.plan) (k : Nat) : d.run k = c.run k := by
  simp only [Cyc.plan, Prod.mk.injEq] at h
  simp [Chip.run, h.1]

theorem ready_of_plan {c d : Chip} (h : d.cyc.plan = c.cyc.plan) : d.cyc.ready = c.cyc.ready := by
  simp only [Cyc.plan, Prod.mk.injEq] at h
  exact h.2.1

theorem patches_of_plan {c d : Chip} (h : d.cyc.plan = c.cyc.plan) : d.cyc.patches = c.cyc.patches := by
  simp only [Cyc.plan, Prod.mk.injEq] at h
  exact h.2.2

/-! ## The watchdog (R263, R264) -/

theorem missed_iff (r : TaskRun) (t : Nat) : r.missed t = true ↔ ∃ x, r.dead = some x ∧ x ≤ t := by
  unfold TaskRun.missed
  cases r.dead <;> simp

/-- What a trip reads of the chip after a stop: the cycle unit, the events and the mode controller. -/
def Chip.tripView (c : Chip) : Cyc × List Event × ModeCtl := (c.cyc, c.events, c.ctl)

theorem tripView_setFlds (c : Chip) (l : List (Fld × Nat)) : (c.setFlds l).tripView = c.tripView :=
  setFlds_keeps Chip.tripView (fun _ _ => rfl) c l

theorem tripView_setFlag (c : Chip) (f : Fld) (b : Bool) : (c.setFlag f b).tripView = c.tripView := rfl

/-- A stop leaves no epoch and no task, none ready and none current. -/
theorem tripView_stopTasks (c : Chip) (cores : List Nat) :
    (c.stopTasks cores).tripView = ({ c.cyc with epoch := none, tasks := [], ready := [], cur := [] }, c.events, c.ctl) := by
  unfold Chip.stopTasks
  rw [showStates_keeps Chip.tripView fun _ _ => rfl]
  change (Chip.onChans (Chip.onChans (c.onCyc _) _ (List.range 8)) (fun n c => c.setFlag (MG_DISP_STOP n) true) cores).tripView = _
  rw [onChans_keeps Chip.tripView _ fun n c => tripView_setFlag c (MG_DISP_STOP n) true,
    onChans_keeps Chip.tripView _ fun _ c => tripView_setFlds c _]
  rfl

theorem tripView_outputsSafeAt (c : Chip) (t : Nat) : (c.outputsSafeAt t).tripView = c.tripView := by
  refine onChans_keeps Chip.tripView _ (fun i c => ?_) _ _
  split <;> rfl

/-- A fatal fault asks for SAFE-HOLD and for a flush of the recorder (R61, R62, R722). -/
theorem fatalRequest_effect {c : Chip} {y : Cyc} {es : List Event} {x : ModeCtl} (h : c.tripView = (y, es, x)) :
    c.fatalRequest.tripView = (y, es, { x with fatal := true }) ∧ c.fatalRequest.recWanted = true := by
  simp only [Chip.tripView, Prod.mk.injEq] at h
  obtain ⟨rfl, rfl, rfl⟩ := h
  unfold Chip.fatalRequest Chip.wantFlush
  dsimp only
  split <;> exact ⟨rfl, rfl⟩

/-- The first trip is the one that MG_WDCAUSE shows. -/
theorem tripView_cause (c : Chip) (l : List (Fld × Nat)) :
    (if c.flag MG_WDCAUSE_VALID then c else c.setFlds l).tripView = c.tripView ∧
      (if c.flag MG_WDCAUSE_VALID then c else c.setFlds l).recWanted = c.recWanted := by
  split
  · exact ⟨rfl, rfl⟩
  · exact ⟨tripView_setFlds c l, setFlds_keeps Chip.recWanted (fun _ _ => rfl) c l⟩

/-- What a trip of a watchdog leaves (R264). -/
def Chip.Tripped (c d : Chip) : Prop := d.cyc.epoch = none ∧ d.cyc.tasks = [] ∧ d.cyc.ready = [] ∧ d.ctl.fatal = true ∧
  d.recWanted = true ∧ Claim.event c d 0x1C01 7

theorem tripped_raise {c d : Chip} (src : Nat) (data : List Byte) {x : ModeCtl}
    (h : d.tripView = ({ c.cyc with epoch := none, tasks := [], ready := [], cur := [] }, c.events, { x with fatal := true }))
    (hw : d.recWanted = true) : c.Tripped (d.raise 0x1C01 7 src data) := by
  simp only [Chip.tripView, Prod.mk.injEq] at h
  obtain ⟨hy, he, hx⟩ := h
  refine ⟨?_, ?_, ?_, ?_, hw, _, congrArg (· ++ _) he, rfl, rfl⟩
  · exact congrArg Cyc.epoch hy
  · exact congrArg Cyc.tasks hy
  · exact congrArg Cyc.ready hy
  · exact congrArg ModeCtl.fatal hx

/-- A trip stops every task, asks for SAFE-HOLD and a flush, and records an event (R264). -/
theorem trip_effect {s : State} {k : Nat} {r : TaskRun} (hr : s.chip.run k = some r) :
    ∃ d, s.trip k = { s with chip := d } ∧ s.chip.Tripped d := by
  simp only [State.trip, hr]
  refine ⟨_, rfl, ?_⟩
  have hstop : (((s.chip.stopTasks (List.range 8)).setFlag (MG_TASKSTAT_TRIPPED k) true).outputsSafeAt (s.chip.mono + 2000)).tripView =
      ({ s.chip.cyc with epoch := none, tasks := [], ready := [], cur := [] }, s.chip.events, s.chip.ctl) := by
    rw [tripView_outputsSafeAt, tripView_setFlag, tripView_stopTasks]
  obtain ⟨hfatal, hwant⟩ := fatalRequest_effect hstop
  obtain ⟨hview, hrec⟩ := tripView_cause _ [(MG_WDCAUSE_VALID, 1), (MG_WDCAUSE_TASK, k), (MG_WDCAUSE_CYCLE, r.cycle)]
  exact tripped_raise _ _ (hview.trans hfatal) (hrec.trans hwant)

theorem watchdog_missed {s : State} {k : Nat} {r : TaskRun} (hr : s.chip.run k = some r) (h : r.missed s.chip.mono = true) :
    s.watchdog k = s.trip k := by
  simp [State.watchdog, hr, h]

theorem watchdog_inTime {s : State} {k : Nat} {r : TaskRun} (hr : s.chip.run k = some r) (h : r.missed s.chip.mono = false) :
    s.watchdog k = s := by
  simp [State.watchdog, hr, h]

/-! ## What the drain of outputs keeps (R240, R248) -/

theorem cyc_bumpIgn (c : Chip) (i : Nat) : (c.bumpIgn i).cyc = c.cyc := by
  unfold Chip.bumpIgn
  dsimp only
  split <;> rfl

theorem cyc_writeOutput (c : Chip) (i : Nat) (w : Word) (t : Nat) : (c.writeOutput i w t none).2.cyc = c.cyc := by
  unfold Chip.writeOutput
  dsimp only
  split
  · rfl
  · split
    · exact cyc_bumpIgn c i
    · rfl

theorem cyc_through (c : Chip) (rings : List Nat) (eff : Chip → Chip) (h : (eff c).cyc = c.cyc) : (c.through rings eff).cyc = c.cyc := by
  unfold Chip.through
  split
  · exact h
  · rfl

theorem cyc_imageSetpoint (c : Chip) (s : Nat) (w : Word) : (c.imageSetpoint s w).cyc = c.cyc := by
  unfold Chip.imageSetpoint
  split
  · rfl
  · dsimp only
    split <;> rfl

theorem cyc_drainItem (c : Chip) (b v : Nat) (i : MapItem) : (c.drainItem b v i).cyc = c.cyc := by
  unfold Chip.drainItem
  dsimp only
  split
  · split
    · exact cyc_writeOutput ..
    · split
      · rfl
      · exact cyc_through c _ _ rfl
  · exact cyc_imageSetpoint ..
  · rfl

theorem cyc_drainItems (n b : Nat) : ∀ (is : List MapItem) (c : Chip), (c.drainItems n b is).cyc = c.cyc
  | [], _ => rfl
  | i :: is, c => (cyc_drainItems n b is _).trans (cyc_drainItem c b _ i)

theorem plan_buildMessages (c : Chip) (n : Nat) (items : List MapItem) : (c.buildMessages n items).cyc.plan = c.cyc.plan := by
  refine onChans_keeps (fun c => c.cyc.plan) _ (fun i c => ?_) _ c
  rfl

theorem cyc_ringDrop (c : Chip) (n : Nat) : (c.ringDrop n).cyc = c.cyc := by
  unfold Chip.ringDrop
  dsimp only
  split <;> rfl

theorem cyc_offer (c : Chip) (n : Nat) (m : Msg) : (c.offer n m).2.cyc = c.cyc := by
  simp only [Chip.offer, Chip.offerAs, apply_ite Prod.snd, apply_ite Chip.cyc, cyc_ringDrop, ite_self]

theorem plan_sendOne (c : Chip) (p : Nat × Nat × List Byte) : (c.sendOne p).cyc.plan = c.cyc.plan := by
  unfold Chip.sendOne
  dsimp only
  split
  · rename_i c1 h
    have hc : c1.cyc = c.cyc := by
      split at h
      · cases h
        rfl
      · exact (congrArg (fun o : Offer × Chip => o.2.cyc) h).symm.trans (cyc_offer c _ _)
    show c1.cyc.plan = c.cyc.plan
    rw [hc]
  · rfl

theorem plan_sendUnsent (c : Chip) : c.sendUnsent.cyc.plan = c.cyc.plan := foldl_keeps (fun c => c.cyc.plan) _ plan_sendOne _ c

/-- The drain changes the chip alone, and no task. -/
theorem drainOutputs_keeps (s : State) (k b : Nat) :
    s.restSame (s.drainOutputs k b) ∧ (s.drainOutputs k b).chip.cyc.plan = s.chip.cyc.plan := by
  refine ⟨restSame_onChip _ _, ?_⟩
  simp only [State.drainOutputs, onChip_chip]
  split
  · split
    · rfl
    · rw [cyc_drainItems]
  · rw [plan_sendUnsent, plan_buildMessages, cyc_drainItems]

/-! ## Boundaries (R37, R233) -/

/-- Of a task's run a boundary has been passed: the chip alone has changed, and no patch set. -/
def State.Passed (s : State) (k : Nat) (r : TaskRun) (t : State) : Prop :=
  s.restSame t ∧ t.chip.cyc.patches = s.chip.cyc.patches ∧
    ∃ x, t.chip.run k = some x ∧ x.num = r.num + 1 ∧ x.next = r.next + s.tPeriod k * 1000 ∧ x.last = r.next

section
variable {s t u : State} {k : Nat} {r : TaskRun}

theorem passed_passBoundary (hr : s.chip.run k = some r) : s.Passed k r (s.passBoundary k r) :=
  ⟨⟨rfl, rfl, rfl⟩, patches_onRun s.chip k _, _, run_onRun hr _, rfl, rfl, rfl⟩

/-- What keeps the plan keeps that the boundary has been passed. -/
theorem Passed_keep (h : s.Passed k r t) (hs : t.restSame u) (hp : u.chip.cyc.plan = t.chip.cyc.plan) : s.Passed k r u := by
  obtain ⟨hst, hpat, x, hrun, hx⟩ := h
  exact ⟨restSame_trans hst hs, (patches_of_plan hp).trans hpat, x, (run_of_plan hp k).trans hrun, hx⟩

/-- So does a change of what else the task's run holds. -/
theorem Passed_onRun (h : s.Passed k r t) (g : Chip → Chip) (f : TaskRun → TaskRun) (hg : (g t.chip).cyc.plan = t.chip.cyc.plan)
    (hf : ∀ x, (f x).num = x.num ∧ (f x).next = x.next ∧ (f x).last = x.last) : s.Passed k r (t.onChip fun c => (g c).onRun k f) := by
  obtain ⟨hst, hpat, x, hrun, hnum, hnext, hlast⟩ := h
  obtain ⟨fnum, fnext, flast⟩ := hf x
  exact ⟨restSame_trans hst (restSame_onChip _ _), (patches_onRun _ k f).trans ((patches_of_plan hg).trans hpat), f x,
    run_onRun ((run_of_plan hg k).trans hrun) f, fnum.trans hnum, fnext.trans hnext, flast.trans hlast⟩

theorem passed_freezeInputs (h : s.Passed k r t) (b : Nat) : s.Passed k r (t.freezeInputs k b) := by
  unfold State.freezeInputs
  dsimp only
  generalize Chip.freezeItems .. = frozen
  exact Passed_onRun h (fun c => { c with img := { c.img with inB := frozen.1, inF := copyPages frozen.1 c.img.inF (t.tCore k) (t.tInPages k) } })
    (fun x => { x with seen := frozen.2 }) rfl fun _ => ⟨rfl, rfl, rfl⟩

theorem passed_flipOutputs (h : s.Passed k r t) : s.Passed k r (t.flipOutputs k) := Passed_keep h (restSame_onChip _ _) rfl

theorem passed_drainOutputs (h : s.Passed k r t) (b : Nat) : s.Passed k r (t.drainOutputs k b) := by
  obtain ⟨hs, hp⟩ := drainOutputs_keeps t k b
  exact Passed_keep h hs hp

/-- The state of a boundary once inputs and outputs have been exchanged, before the cycle is released (R240). -/
def State.exchanged (s : State) (k : Nat) (r : TaskRun) : State :=
  let n := s.chip.counter (MG_TASKCYC_LO k)
  let s2 := (((s.passBoundary k r).freezeInputs k r.next).flipOutputs k).drainOutputs k r.next
  s2.onChip fun c => (c.setsDueAt k n r.next).onRun k fun x => { x with snap := s2.cycleMessage k n r.next x.snap }

theorem ownBoundary_eq (s : State) (k : Nat) (r : TaskRun) :
    s.ownBoundary k r = ((s.exchanged k r).releaseOrHold k (s.chip.counter (MG_TASKCYC_LO k)) r.next).dispatch := rfl

/-- Commit sets that become due and the message for PL1 leave the boundary passed. -/
theorem passed_cycleMessage (h : s.Passed k r t) (n b : Nat) :
    s.Passed k r (t.onChip fun c => (c.setsDueAt k n b).onRun k fun x => { x with snap := t.cycleMessage k n b x.snap }) :=
  Passed_onRun h (fun c => c.setsDueAt k n b) (fun x => { x with snap := t.cycleMessage k n b x.snap }) rfl fun _ => ⟨rfl, rfl, rfl⟩

theorem passed_exchanged (hr : s.chip.run k = some r) : s.Passed k r (s.exchanged k r) :=
  passed_cycleMessage (passed_drainOutputs (passed_flipOutputs (passed_freezeInputs (passed_passBoundary hr) r.next)) r.next)
    (s.chip.counter (MG_TASKCYC_LO k)) r.next

end

theorem cyc_setCounter (c : Chip) (k v : Nat) : (c.setCounter k v).cyc = c.cyc := rfl

theorem cyc_counterWrapped (c : Chip) (k : Nat) : (c.counterWrapped k).cyc = c.cyc := rfl

theorem cyc_bump (c : Chip) (k n : Nat) : (c.bump k n).cyc = c.cyc := by
  simp only [Chip.bump, apply_ite Chip.cyc, cyc_counterWrapped, cyc_setCounter, ite_self]

theorem mem_addOnce (l : List Nat) (n : Nat) : n ∈ addOnce l n := by
  unfold addOnce
  split
  · rename_i h
    simpa using h
  · simp

/-- A cycle that is released is ready and held no longer (R233). -/
theorem release_effect {c : Chip} {k : Nat} {x : TaskRun} (h : c.run k = some x) :
    (c.release k).run k = some { x with held := false } ∧ k ∈ (c.release k).cyc.ready := by
  have hcyc : (c.release k).cyc = ((c.onRun k fun r => { r with held := false }).onCyc fun y => { y with ready := addOnce y.ready k }).cyc :=
    cyc_bump _ _ _
  refine ⟨?_, ?_⟩
  · simp only [Chip.run, hcyc]
    exact run_onRun h _
  · rw [hcyc]
    exact mem_addOnce _ _

/-- A cycle for which no patch set waits is released with its deadline (R233). -/
theorem releaseOrHold_free {s : State} {k : Nat} (n b : Nat) (h : ∀ p ∈ s.chip.cyc.patches, p.task ≠ k) :
    s.releaseOrHold k n b = s.onChip fun c =>
      (c.onRun k fun x => { x with cycle := n, dead := some (b + s.tWd k * 1000), held := false }).release k := by
  have hdue : (s.chip.cyc.patches.any fun p => p.task == k && (p.target == 0 || decide (p.target ≤ n))) = false := by
    simp only [List.any_eq_false]
    intro p hp
    simp [h p hp]
  simp [State.releaseOrHold, hdue]

/-- After the exchange of a boundary the cycle is released, where no patch set waits for it. -/
theorem Passed_released {s t : State} {k : Nat} {r : TaskRun} (h : s.Passed k r t) (hpat : ∀ p ∈ s.chip.cyc.patches, p.task ≠ k) (n b : Nat) :
    let u := (t.releaseOrHold k n b).dispatch
    s.restSame u ∧ k ∈ u.chip.cyc.ready ∧ ∃ x, u.chip.run k = some x ∧ x.num = r.num + 1 ∧
      x.next = r.next + s.tPeriod k * 1000 ∧ x.last = r.next ∧ x.held = false := by
  obtain ⟨hs, hp, x, hrun, hnum, hnext, hlast⟩ := h
  rw [← hp] at hpat
  rw [releaseOrHold_free n b hpat]
  obtain ⟨hrel, hready⟩ := release_effect
    (run_onRun hrun fun x => { x with cycle := n, dead := some (b + t.tWd k * 1000), held := false })
  obtain ⟨hd, hplan⟩ := dispatch_keeps (t.onChip fun c =>
    (c.onRun k fun x => { x with cycle := n, dead := some (b + t.tWd k * 1000), held := false }).release k)
  exact ⟨restSame_trans hs (restSame_trans (restSame_onChip _ _) hd), (ready_of_plan hplan).symm ▸ hready, _,
    (run_of_plan hplan k).trans hrel, hnum, hnext, hlast, rfl⟩

section
variable {s : State} {k : Nat} {r : TaskRun} (hr : s.chip.run k = some r)
include hr

theorem boundary_early (feed : Option PairedCycle) (h : s.chip.mono < r.next) : s.boundary k feed = s := by
  simp [State.boundary, hr, h]

/-- A boundary at which the cycle before has not ended trips the watchdog (R263). -/
theorem boundary_late (feed : Option PairedCycle) (h : r.next ≤ s.chip.mono) (hm : r.missed r.next = true) : s.boundary k feed = s.trip k := by
  simp [State.boundary, hr, Nat.not_lt.2 h, hm]

/-- The boundary of a unit that runs on its own inputs. -/
theorem boundary_own (h : r.next ≤ s.chip.mono) (hm : r.missed r.next = false) (hho : s.chip.handingOver = false)
    (hst : s.chip.pairedStandby = false) : s.boundary k none = s.ownBoundary k r := by
  simp [State.boundary, hr, Nat.not_lt.2 h, hm, hho, hst, State.loadSnapshot]

end

/-! ## Ends of cycles (R237, R263) -/

theorem bitsOf_endTask (x : Nat) : bitsOf x 3 0 = x % 16 := by simp [bitsOf_eq]

/-- The chip once a task's cycle of `us` microseconds has ended: neither deadline nor readiness is left of it. -/
def Chip.cycleEnded (c : Chip) (k us : Nat) : Chip :=
  let c1 := (c.onRun k fun x => { x with dead := none }).onCyc fun y => { y with ready := y.ready.filter (· != k) }
  c1.setFlds [(MG_TASKEXEC_US k, us), (MG_TASKMAX_US k, Nat.max us (c1.fld (MG_TASKMAX_US k)))]

theorem cycleEnded_effect {c : Chip} {k : Nat} {r : TaskRun} (hr : c.run k = some r) (us : Nat) :
    (c.cycleEnded k us).cyc.ready = c.cyc.ready.filter (· != k) ∧ (c.cycleEnded k us).run k = some { r with dead := none } := by
  have hcyc : (c.cycleEnded k us).cyc =
      ((c.onRun k fun x => { x with dead := none }).onCyc fun y => { y with ready := y.ready.filter (· != k) }).cyc :=
    setFlds_keeps Chip.cyc (fun _ _ => rfl) _ _
  refine ⟨?_, ?_⟩
  · rw [hcyc, onRun_some hr]
    rfl
  · simp only [Chip.run, hcyc]
    exact run_onRun hr _

section
variable {s : State} {k : Nat} {r : TaskRun} (hr : s.chip.run k = some r) {src : Nat} {v : Word} (hv : bitsOf v.toNat 3 0 = k)
include hr
include hv

/-- TASK_END of a task that is not current is ignored, and an event recorded. -/
theorem taskEnd_ignored (h : mapGet 0 s.chip.cyc.cur src ≠ k + 1) :
    s.taskEnd src v = s.onChip fun c => c.raise 0x1C02 4 0x15 (toBytes 1 k ++ toBytes 1 src) := by
  simp [State.taskEnd, hv, hr, h]

variable (hsrc : src < 8) (hcur : mapGet 0 s.chip.cyc.cur src = k + 1)
include hsrc hcur

theorem taskEnd_late (h : r.missed s.chip.mono = true) : s.taskEnd src v = s.trip k := by
  simp [State.taskEnd, hv, hr, Nat.not_le.2 hsrc, hcur, h]

theorem taskEnd_inTime (h : r.missed s.chip.mono = false) :
    s.taskEnd src v = (s.onChip fun c => c.cycleEnded k ((s.chip.mono - r.last) / 1000 % 2 ^ 24)).dispatch := by
  have hnot : ¬(8 ≤ src ∨ mapGet 0 s.chip.cyc.cur src ≠ k + 1) := by simp [hcur, hsrc]
  simp only [State.taskEnd, hv, hr, if_neg hnot, h, Bool.false_eq_true, if_false]
  rfl

/-- The end of the current task's cycle before its deadline. -/
theorem taskEnd_inTime_effect (h : r.missed s.chip.mono = false) :
    s.restSame (s.taskEnd src v) ∧ (s.taskEnd src v).chip.cyc.ready = s.chip.cyc.ready.filter (· != k) ∧
      (s.taskEnd src v).chip.run k = some { r with dead := none } := by
  rw [taskEnd_inTime hr hv hsrc hcur h]
  obtain ⟨hs, hplan⟩ := dispatch_keeps (s.onChip fun c => c.cycleEnded k ((s.chip.mono - r.last) / 1000 % 2 ^ 24))
  obtain ⟨hready, hrun⟩ := cycleEnded_effect hr ((s.chip.mono - r.last) / 1000 % 2 ^ 24)
  exact ⟨restSame_trans (restSame_onChip _ _) hs, (ready_of_plan hplan).trans hready, (run_of_plan hplan k).trans hrun⟩

end

/-! ## Remote inputs and the mirror (R246, R268) -/

/-- A consumer that takes a message changes the pool alone. -/
theorem consume_only (c : Chip) (n : Nat) : c.consume n = { c with pool := (c.consume n).pool } := by
  unfold Chip.consume
  split <;> rfl

theorem cyc_consume (c : Chip) (n : Nat) : (c.consume n).cyc = c.cyc := by rw [consume_only]

theorem inF_consume (c : Chip) (n : Nat) : (c.consume n).img.inF = c.img.inF := by rw [consume_only]

/-- A frame of a remote module is consumed and counted; the front bank of the inputs stays as it is. -/
theorem remoteFrame_effect {s : State} {k remote : Nat} {r : TaskRun} {m : Msg} (hr : s.chip.run k = some r) (hring : s.tRring k ≠ 0)
    (hm : s.chip.head? (s.tRring k) = some m) (hp : m.poisoned = false) :
    ∃ d, s.remoteFrame k remote = { s with chip := d } ∧ d.pool = (s.chip.consume (s.tRring k)).pool ∧
      assocGet d.cyc.rx (k * 0x100000 + remote) = some ((assocGet s.chip.cyc.rx (k * 0x100000 + remote)).getD 0 + 1) ∧
      d.img.inF = s.chip.img.inF := by
  simp only [State.remoteFrame, hm, hr, if_neg hring, hp, Bool.false_eq_true, if_false]
  refine ⟨_, rfl, rfl, ?_, inF_consume s.chip (s.tRring k)⟩
  rw [← cyc_consume s.chip (s.tRring k)]
  exact assocGet_assocSet_same _ _ _

theorem mirrorStream_some {c : Chip} {k : Nat} {r : TaskRun} {bs : List Byte} (hr : c.run k = some r) (h : r.snap = some bs) :
    c.mirrorStream k =
      { c with cyc := { c.cyc with tasks := assocSet c.cyc.tasks k { r with snap := none } }, sent := mapSet [] c.sent 7 bs } := by
  simp only [Chip.mirrorStream, hr, Option.bind_some, h, onRun_some hr]
  rfl

theorem mirrorStream_none {c : Chip} {k : Nat} {r : TaskRun} (hr : c.run k = some r) (h : r.snap = none) : c.mirrorStream k = c := by
  simp [Chip.mirrorStream, hr, h]

/-! ## The statement -/

/-- A write that finds the lock closed leaves the registers and locks alone, and an event (R24). -/
theorem rwlIgnored_effect (c : Chip) (src k : Nat) : (c.rwlIgnored src k).regs = c.regs ∧ (c.rwlIgnored src k).locks = c.locks ∧
    Claim.event c (c.rwlIgnored src k) 0x1D01 3 := ⟨rfl, rfl, _, rfl, rfl, rfl⟩

/-- What differs from a state in the chip alone is done by the chip. -/
theorem does_of_restSame {s t : State} {i : Instr} {P : Chip → Prop} (hi : exec i s = .next t) (hs : s.restSame t) (hP : P t.chip) :
    Claim.does s i P := ⟨t.chip, hi.trans (congrArg _ (eq_of_restSame hs)), hP⟩

theorem does_of_trip {s : State} {i : Instr} {k : Nat} {r : TaskRun} (hr : s.chip.run k = some r) (hi : exec i s = .next (s.trip k)) :
    Claim.does s i s.chip.Tripped := by
  obtain ⟨d, hd, hP⟩ := trip_effect hr
  exact ⟨d, hi.trans (congrArg _ hd), hP⟩

/-- A write of MG_TASKDESC or MG_TASKEND that reaches MG. -/
theorem next_stateWhenOn (s : State) (src k : Nat) (f : State → State) (hk : islandOf k = 0x15) (h : Claim.reaches s.chip src 0x15) :
    (Host.Outcome.next (s.whenOn src k f) : Out) = .next (f s) := by
  obtain ⟨hw, hon⟩ := h
  rw [stateWhenOn_on s src k f (hk ▸ hw) (hk ▸ hon)]

theorem islandOf_taskDesc (k : Task) : islandOf (MG_TASKDESC k.val) = 0x15 := by
  simp only [islandOf, MG_TASKDESC]
  omega

/-- Settles O26: writes of a descriptor by its lock and check, a task of the run by its deadline and its boundary. -/
theorem tasksAndCycles : Obligations.TasksAndCycles := by
  refine ⟨fun s src k v hreach => ?_, fun s k n r v station module hr => ?_⟩
  · have hen : exec (.taskEnable src k v) s = .next (s.taskEnable src.val k.val v) :=
      next_stateWhenOn s src.val _ _ (islandOf_taskDesc k) hreach
    have hdis : exec (.taskDisable src k v) s = .next (s.taskDisable src.val k.val v) :=
      next_stateWhenOn s src.val _ _ (islandOf_taskDesc k) hreach
    dsimp only
    rw [← modeLockOpen_iff, hen, hdis]
    refine ⟨?_, ?_, ?_, ?_, ?_, ?_⟩
    · intro ho he
      rw [taskEnable_enabled _ _ ho he]
    · intro ho he h
      rw [taskEnable_passes _ _ ho he h]
      rfl
    · intro ho he h
      rw [taskEnable_refused _ _ ho he h]
      rfl
    · intro ho he h
      have h1 : (s.described k.val v).enableReason k.val = 1 := enableReason_period _ _ h
      rw [taskEnable_refused _ _ ho he (by rw [h1]; decide), h1]
      rfl
    · intro ho
      rw [taskDisable_open _ _ ho]
      rfl
    · intro ho i hi
      have hlock : s.chip.modeLockOpen = false := by simpa using ho
      rw [taskEnable_locked _ _ hlock] at hen
      rw [taskDisable_locked _ _ hlock] at hdis
      simp only [List.mem_cons, List.not_mem_nil, or_false] at hi
      rcases hi with rfl | rfl
      · exact ⟨_, hen, rwlIgnored_effect ..⟩
      · exact ⟨_, hdis, rwlIgnored_effect ..⟩
  · dsimp only
    simp only [← missed_iff, Bool.not_eq_true]
    have hb : exec (.taskBoundary k none) s = .next (s.boundary k.val none) := rfl
    have hw : exec (.watchdogTrip k) s = .next (s.watchdog k.val) := rfl
    refine ⟨?_, ?_, ?_, ?_, ?_, ?_, ?_, ?_, ?_⟩
    · intro h
      rw [hb, boundary_early hr _ h]
    · intro h hm hho hst hpat
      rw [boundary_own hr h hm hho hst, ownBoundary_eq] at hb
      obtain ⟨hs, hP⟩ := Passed_released (passed_exchanged hr) hpat _ _
      exact does_of_restSame hb hs hP
    · intro h hm
      rw [boundary_late hr _ h hm] at hb
      exact does_of_trip hr hb
    · intro hm
      rw [watchdog_missed hr hm] at hw
      exact does_of_trip hr hw
    · intro hm
      rw [hw, watchdog_inTime hr hm]
    · intro hreach hv
      have he : exec (.taskEnd ⟨n.val, by omega⟩ v) s = .next (s.taskEnd n.val v) :=
        next_stateWhenOn s n.val MG_TASKEND _ rfl hreach
      have hv' : bitsOf v.toNat 3 0 = k.val := (bitsOf_endTask _).trans hv
      refine ⟨?_, ?_, ?_⟩
      · intro hm hcur
        rw [taskEnd_late hr hv' n.isLt hcur hm] at he
        exact does_of_trip hr he
      · intro hm hcur
        obtain ⟨hs, hP⟩ := taskEnd_inTime_effect hr hv' n.isLt hcur hm
        exact does_of_restSame he hs hP
      · intro hcur
        rw [taskEnd_ignored hr hv' hcur] at he
        exact ⟨_, he, rfl, rfl, _, rfl, rfl, rfl⟩
    · intro m hring hm hp
      obtain ⟨d, hd, hP⟩ := remoteFrame_effect (remote := station.toNat + module.toNat * 4096) hr hring hm hp
      exact ⟨d, congrArg Host.Outcome.next hd, hP⟩
    · intro bs h
      exact congrArg (Claim.chipNext s) (mirrorStream_some hr h)
    · intro h
      exact congrArg (Claim.chipNext s) (mirrorStream_none hr h)

end Sys2Proof.Machine
end
